-- ==== Sys2Proof/Word.lean ====
section
/-! DEFINITION. Words of the Tobonar architecture and the plainest operations on them (R5, R6). Bit 0 is the least
significant bit; memory is byte addressed and little-endian. -/

namespace Sys2Proof

/-- A 64-bit scalar register, address or system register (R13, R38). -/
abbrev Word := BitVec 64

/-- One byte of storage (R5). -/
abbrev Byte := BitVec 8

/-- A sparse map: key and value pairs with keys strictly rising and no entry at its default. Machine/Sparse.lean holds the operations. -/
abbrev FMap (α : Type) := List (Nat × α)

/-- Bits [hi:lo] of a number (R5: both ends included). -/
def bits (x hi lo : Nat) : Nat := x / 2 ^ lo % 2 ^ (hi + 1 - lo)

/-- Bit `i` of a number. -/
def bit (x i : Nat) : Bool := x / 2 ^ i % 2 == 1

end Sys2Proof
end

