-- ==== Sys2Proof/Wire.lean ====
section
/-! DEFINITION. What the operands of the device's steps carry: flits (R378), the signed configuration record and its
partition records (R414, R415), the units of storage and the units self-test names (R346, R347). No machine state. -/

namespace Sys2Proof

/-- A store flit, KIND 1 of R378. -/
structure Flit where
  seq : BitVec 16
  cls : BitVec 3
  sealedStore : Bool
  dst : BitVec 18
  tpart : BitVec 4
  src : BitVec 18
  spart : BitVec 4
  off : BitVec 48
  lfmt : BitVec 8
  mask : BitVec 32
  data : BitVec 256
  eseq : BitVec 32
  /-- Byte 19: 0, but for what a seal makes of it (R381). -/
  pad : BitVec 8 := 0
  deriving DecidableEq, Repr

/-- A tag flit, KIND 2 of R378: it closes a group of `n` sealed store flits whose first is `eseq` (R381). -/
structure TagFlit where
  seq : BitVec 16
  cls : BitVec 3
  dst : BitVec 18
  tpart : BitVec 4
  src : BitVec 18
  spart : BitVec 4
  n : BitVec 8
  tag : BitVec 128
  eseq : BitVec 32
  deriving DecidableEq, Repr

/-- What a channel of a hop carries, as the replay store keeps it (R379). -/
inductive HopItem where
  | store (f : Flit)
  | tag (t : TagFlit)
  deriving DecidableEq, Repr

/-- The routes of the two copies of a control flit (R383): two lanes of a bundle, two up bundles to a device, or two up bundles of a flood. -/
inductive CtlRoute where
  | hop (bundle : Nat) (lanes : List Nat)
  | ends (dst : BitVec 18) (bundles : List Nat)
  | flood (bundles : List Nat)
  deriving DecidableEq, Repr

/-- A control flit, KIND 3 of R378: its operation, its operands in the order of R383 Table 8, and its identifier. -/
structure CtlFlit where
  op : Nat
  route : CtlRoute
  cid : BitVec 32
  args : List Nat
  deriving DecidableEq, Repr

/-- A copy of a control flit that arrives: its SRC and CID, and whether its CRC is good (R383). -/
structure CtlHead where
  src : BitVec 18
  cid : BitVec 32
  good : Bool
  deriving DecidableEq, Repr

/-- A partition record of the signed configuration record (R300, R415 Table 3). -/
structure PartRec where
  arcades : BitVec 16
  pmax : Nat
  prewait : Nat
  sqd : Nat
  quota0 : BitVec 48
  wdog0 : BitVec 48
  gto0 : BitVec 32
  tvec0 : BitVec 64
  ebcmin0 : BitVec 4
  asidt : BitVec 48
  sapool : BitVec 48
  salen : Nat
  rxbase : BitVec 48
  rxlen : Nat
  rxdir : BitVec 48
  sealmask : BitVec 8
  /-- Handles of the sealing keys, by peer partition. -/
  keys : List Nat
  peqbase : BitVec 48
  peqlen : Nat
  mbox : BitVec 48
  port : BitVec 1
  dbgen : Bool
  deriving DecidableEq, Repr, Inhabited

/-- The signed configuration record of module flash (R414). `genuine` says that its signature verifies. -/
structure ConfigRec where
  genuine : Bool
  version : Nat
  cxlPort1 : Bool
  nearLow : BitVec 4
  qb : List Nat
  ckBase : BitVec 48
  parts : List PartRec
  /-- The reserved frames of R272: first frame and count. -/
  reserved : List (Nat × Nat) := []
  deriving DecidableEq, Repr, Inhabited

/-- Where an uncorrectable error lies (R295, R346 Table 4). -/
inductive Storage where
  | regFile (tile : BitVec 11) (slot : BitVec 3)
  | buffer (tile : BitVec 11) (space : BitVec 2) (off : BitVec 18)
  | l1Line (ptile : BitVec 11) (set : BitVec 10) (way : BitVec 4)
  | versionLine (task : BitVec 64) (tile : BitVec 11) (granule : BitVec 64)
  | committedLine (pa : BitVec 48)
  | memory (pa : BitVec 48)
  deriving DecidableEq, Repr

/-- The unit kinds of a machine-check record, by their UNIT code (R349). -/
inductive UnitKind where
  | bank | bus | layer | channel | tile | omu
  deriving DecidableEq, Repr

end Sys2Proof
end

