-- ==== Sys2Proof/Syntax.lean ====
section
/-! DEFINITION. The instruction set: one constructor for each row of spec/opcode_table.json. The first 200 are the
instruction words of R47 to R56, with their operand fields as the tables of chapter 2 cut them. The other 115 are the device's
own steps, which have no word: their operands carry what the outside world or a free choice supplies (a temperature, a flit,
which agent acts), and Machine/Step.lean takes them from State.agenda. -/

namespace Sys2Proof

/-- One instruction word, or one step of the device beside its instruction stream. -/
inductive Instr where
  /-- ADD (R69). -/
  | add (rd : BitVec 4) (ra : BitVec 4) (rb : BitVec 4)
  /-- SUB (R69). -/
  | sub (rd : BitVec 4) (ra : BitVec 4) (rb : BitVec 4)
  /-- AND (R69). -/
  | and (rd : BitVec 4) (ra : BitVec 4) (rb : BitVec 4)
  /-- OR (R69). -/
  | or (rd : BitVec 4) (ra : BitVec 4) (rb : BitVec 4)
  /-- XOR (R69). -/
  | xor (rd : BitVec 4) (ra : BitVec 4) (rb : BitVec 4)
  /-- ANDN (R69). -/
  | andn (rd : BitVec 4) (ra : BitVec 4) (rb : BitVec 4)
  /-- ORN (R69). -/
  | orn (rd : BitVec 4) (ra : BitVec 4) (rb : BitVec 4)
  /-- SHL (R69). -/
  | shl (rd : BitVec 4) (ra : BitVec 4) (rb : BitVec 4)
  /-- SHR (R69). -/
  | shr (rd : BitVec 4) (ra : BitVec 4) (rb : BitVec 4)
  /-- SRA (R69). -/
  | sra (rd : BitVec 4) (ra : BitVec 4) (rb : BitVec 4)
  /-- ROL (R69). -/
  | rol (rd : BitVec 4) (ra : BitVec 4) (rb : BitVec 4)
  /-- MIN (R69). -/
  | min (rd : BitVec 4) (ra : BitVec 4) (rb : BitVec 4)
  /-- MAX (R69). -/
  | max (rd : BitVec 4) (ra : BitVec 4) (rb : BitVec 4)
  /-- MINN (R69). -/
  | minn (rd : BitVec 4) (ra : BitVec 4) (rb : BitVec 4)
  /-- MAXN (R69). -/
  | maxn (rd : BitVec 4) (ra : BitVec 4) (rb : BitVec 4)
  /-- SLT (R69). -/
  | slt (rd : BitVec 4) (ra : BitVec 4) (rb : BitVec 4)
  /-- SLTN (R69). -/
  | sltn (rd : BitVec 4) (ra : BitVec 4) (rb : BitVec 4)
  /-- SEQ (R69). -/
  | seq (rd : BitVec 4) (ra : BitVec 4) (rb : BitVec 4)
  /-- CLZ (R70). -/
  | clz (rd : BitVec 4) (ra : BitVec 4)
  /-- CTZ (R70). -/
  | ctz (rd : BitVec 4) (ra : BitVec 4)
  /-- POPC (R70). -/
  | popc (rd : BitVec 4) (ra : BitVec 4)
  /-- SEXT (R71). -/
  | sext (rd : BitVec 4) (ra : BitVec 4) (sz : BitVec 2)
  /-- ZEXT (R71). -/
  | zext (rd : BitVec 4) (ra : BitVec 4) (sz : BitVec 2)
  /-- BFX (R72). -/
  | bfx (rd : BitVec 4) (ra : BitVec 4) (rb : BitVec 4)
  /-- BFXS (R72). -/
  | bfxs (rd : BitVec 4) (ra : BitVec 4) (rb : BitVec 4)
  /-- BFI (R72). -/
  | bfi (rd : BitVec 4) (ra : BitVec 4) (rb : BitVec 4)
  /-- CSEL (R73). -/
  | csel (rd : BitVec 4) (ra : BitVec 4) (rb : BitVec 4)
  /-- LEA (R74). -/
  | lea (rd : BitVec 4) (ra : BitVec 4) (rb : BitVec 4) (sh : BitVec 2)
  /-- MUL (R75). -/
  | mul (rd : BitVec 4) (ra : BitVec 4) (rb : BitVec 4)
  /-- MULH (R75). -/
  | mulh (rd : BitVec 4) (ra : BitVec 4) (rb : BitVec 4)
  /-- MULHN (R75). -/
  | mulhn (rd : BitVec 4) (ra : BitVec 4) (rb : BitVec 4)
  /-- DIV (R76). -/
  | div (rd : BitVec 4) (ra : BitVec 4) (rb : BitVec 4)
  /-- DIVN (R76). -/
  | divn (rd : BitVec 4) (ra : BitVec 4) (rb : BitVec 4)
  /-- REM (R76). -/
  | rem (rd : BitVec 4) (ra : BitVec 4) (rb : BitVec 4)
  /-- REMN (R76). -/
  | remn (rd : BitVec 4) (ra : BitVec 4) (rb : BitVec 4)
  /-- ADDI (R77). -/
  | addi (rd : BitVec 4) (ra : BitVec 4) (imm : BitVec 18)
  /-- ANDI (R77). -/
  | andi (rd : BitVec 4) (ra : BitVec 4) (imm : BitVec 18)
  /-- ORI (R77). -/
  | ori (rd : BitVec 4) (ra : BitVec 4) (imm : BitVec 18)
  /-- XORI (R77). -/
  | xori (rd : BitVec 4) (ra : BitVec 4) (imm : BitVec 18)
  /-- SLTI (R77). -/
  | slti (rd : BitVec 4) (ra : BitVec 4) (imm : BitVec 18)
  /-- SLTNI (R77). -/
  | sltni (rd : BitVec 4) (ra : BitVec 4) (imm : BitVec 18)
  /-- SHLI (R78). -/
  | shli (rd : BitVec 4) (ra : BitVec 4) (n : BitVec 6)
  /-- SHRI (R78). -/
  | shri (rd : BitVec 4) (ra : BitVec 4) (n : BitVec 6)
  /-- SRAI (R78). -/
  | srai (rd : BitVec 4) (ra : BitVec 4) (n : BitVec 6)
  /-- LIH (R79). -/
  | lih (rd : BitVec 4) (ra : BitVec 4) (imm : BitVec 16)
  /-- B_EQ (R82). -/
  | bEq (ra : BitVec 4) (rb : BitVec 4) (off : BitVec 14)
  /-- B_NE (R82). -/
  | bNe (ra : BitVec 4) (rb : BitVec 4) (off : BitVec 14)
  /-- B_LT (R82). -/
  | bLt (ra : BitVec 4) (rb : BitVec 4) (off : BitVec 14)
  /-- B_GE (R82). -/
  | bGe (ra : BitVec 4) (rb : BitVec 4) (off : BitVec 14)
  /-- B_LTN (R82). -/
  | bLtn (ra : BitVec 4) (rb : BitVec 4) (off : BitVec 14)
  /-- B_GEN (R82). -/
  | bGen (ra : BitVec 4) (rb : BitVec 4) (off : BitVec 14)
  /-- J (R83). -/
  | j (off : BitVec 26)
  /-- JAL (R83). -/
  | jal (off : BitVec 26)
  /-- JALR (R84). -/
  | jalr (rd : BitVec 4) (ra : BitVec 4) (imm : BitVec 18)
  /-- JR (R84). -/
  | jr (ra : BitVec 4) (imm : BitVec 18)
  /-- LOOP (R85). -/
  | loop (ra : BitVec 4) (off : BitVec 14)
  /-- LD (R90). -/
  | ld (rd : BitVec 4) (ra : BitVec 4) (sz : BitVec 2) (ord : BitVec 2) (sp : BitVec 2) (off : BitVec 12)
  /-- ST (R90). -/
  | st (rd : BitVec 4) (ra : BitVec 4) (sz : BitVec 2) (ord : BitVec 2) (sp : BitVec 2) (off : BitVec 12)
  /-- PF (R95). -/
  | pf (ra : BitVec 4) (off : BitVec 12)
  /-- CFL (R96). -/
  | cfl (ra : BitVec 4) (off : BitVec 12)
  /-- CINV (R97). -/
  | cinv (ra : BitVec 4) (off : BitVec 12)
  /-- AMO_ADD (R98). -/
  | amoAdd (rd : BitVec 4) (ra : BitVec 4) (rb : BitVec 4) (ord : BitVec 2) (dw : BitVec 1)
  /-- AMO_AND (R98). -/
  | amoAnd (rd : BitVec 4) (ra : BitVec 4) (rb : BitVec 4) (ord : BitVec 2) (dw : BitVec 1)
  /-- AMO_OR (R98). -/
  | amoOr (rd : BitVec 4) (ra : BitVec 4) (rb : BitVec 4) (ord : BitVec 2) (dw : BitVec 1)
  /-- AMO_XOR (R98). -/
  | amoXor (rd : BitVec 4) (ra : BitVec 4) (rb : BitVec 4) (ord : BitVec 2) (dw : BitVec 1)
  /-- AMO_MIN (R98). -/
  | amoMin (rd : BitVec 4) (ra : BitVec 4) (rb : BitVec 4) (ord : BitVec 2) (dw : BitVec 1)
  /-- AMO_MAX (R98). -/
  | amoMax (rd : BitVec 4) (ra : BitVec 4) (rb : BitVec 4) (ord : BitVec 2) (dw : BitVec 1)
  /-- AMO_MINN (R98). -/
  | amoMinn (rd : BitVec 4) (ra : BitVec 4) (rb : BitVec 4) (ord : BitVec 2) (dw : BitVec 1)
  /-- AMO_MAXN (R98). -/
  | amoMaxn (rd : BitVec 4) (ra : BitVec 4) (rb : BitVec 4) (ord : BitVec 2) (dw : BitVec 1)
  /-- AMO_SWAP (R98). -/
  | amoSwap (rd : BitVec 4) (ra : BitVec 4) (rb : BitVec 4) (ord : BitVec 2) (dw : BitVec 1)
  /-- CAS (R99). -/
  | cas (rd : BitVec 4) (ra : BitVec 4) (rb : BitVec 4) (ord : BitVec 2) (dw : BitVec 1)
  /-- MOP_RED_ADD (R102). -/
  | mopRedAdd (ra : BitVec 4) (rb : BitVec 4) (dw : BitVec 1)
  /-- MOP_RED_AND (R102). -/
  | mopRedAnd (ra : BitVec 4) (rb : BitVec 4) (dw : BitVec 1)
  /-- MOP_RED_OR (R102). -/
  | mopRedOr (ra : BitVec 4) (rb : BitVec 4) (dw : BitVec 1)
  /-- MOP_RED_XOR (R102). -/
  | mopRedXor (ra : BitVec 4) (rb : BitVec 4) (dw : BitVec 1)
  /-- MOP_RED_MIN (R102). -/
  | mopRedMin (ra : BitVec 4) (rb : BitVec 4) (dw : BitVec 1)
  /-- MOP_RED_MAX (R102). -/
  | mopRedMax (ra : BitVec 4) (rb : BitVec 4) (dw : BitVec 1)
  /-- MOP_RED_MINN (R102). -/
  | mopRedMinn (ra : BitVec 4) (rb : BitVec 4) (dw : BitVec 1)
  /-- MOP_RED_MAXN (R102). -/
  | mopRedMaxn (ra : BitVec 4) (rb : BitVec 4) (dw : BitVec 1)
  /-- MOP_CAS (R103). -/
  | mopCas (rd : BitVec 4) (ra : BitVec 4) (rb : BitVec 4) (dw : BitVec 1)
  /-- MOP_SAC (R104). -/
  | mopSac (rd : BitVec 4) (ra : BitVec 4) (rb : BitVec 4) (dw : BitVec 1)
  /-- GTH (R107). -/
  | gth (rd : BitVec 4) (ra : BitVec 4) (rb : BitVec 4)
  /-- FENCE (R110). -/
  | fence
  /-- FENCE_G (R110). -/
  | fenceG
  /-- FENCE_B (R110). -/
  | fenceB
  /-- COMMIT (R109). -/
  | commit
  /-- WAITA (R111). -/
  | waita (rd : BitVec 4) (ra : BitVec 4) (rb : BitVec 4)
  /-- WAITANY (R112). -/
  | waitany (rd : BitVec 4) (ra : BitVec 4)
  /-- REFL (R115). -/
  | refl (rd : BitVec 4)
  /-- VADD (R140). -/
  | vadd (vd : BitVec 5) (va : BitVec 5) (vb : BitVec 5) (km : BitVec 3)
  /-- VSUB (R140). -/
  | vsub (vd : BitVec 5) (va : BitVec 5) (vb : BitVec 5) (km : BitVec 3)
  /-- VMUL (R140). -/
  | vmul (vd : BitVec 5) (va : BitVec 5) (vb : BitVec 5) (km : BitVec 3)
  /-- VMIN (R140). -/
  | vmin (vd : BitVec 5) (va : BitVec 5) (vb : BitVec 5) (km : BitVec 3)
  /-- VMAX (R140). -/
  | vmax (vd : BitVec 5) (va : BitVec 5) (vb : BitVec 5) (km : BitVec 3)
  /-- VABS (R141). -/
  | vabs (vd : BitVec 5) (va : BitVec 5) (km : BitVec 3)
  /-- VNEG (R141). -/
  | vneg (vd : BitVec 5) (va : BitVec 5) (km : BitVec 3)
  /-- VFMA (R142). -/
  | vfma (vd : BitVec 5) (va : BitVec 5) (vb : BitVec 5) (km : BitVec 3) (n : BitVec 3)
  /-- VAND (R143). -/
  | vand (vd : BitVec 5) (va : BitVec 5) (vb : BitVec 5) (km : BitVec 3)
  /-- VOR (R143). -/
  | vor (vd : BitVec 5) (va : BitVec 5) (vb : BitVec 5) (km : BitVec 3)
  /-- VXOR (R143). -/
  | vxor (vd : BitVec 5) (va : BitVec 5) (vb : BitVec 5) (km : BitVec 3)
  /-- VSHL (R144). -/
  | vshl (vd : BitVec 5) (va : BitVec 5) (vb : BitVec 5) (km : BitVec 3)
  /-- VSHR (R144). -/
  | vshr (vd : BitVec 5) (va : BitVec 5) (vb : BitVec 5) (km : BitVec 3)
  /-- VSRA (R144). -/
  | vsra (vd : BitVec 5) (va : BitVec 5) (vb : BitVec 5) (km : BitVec 3)
  /-- VCMP_EQ (R145). -/
  | vcmpEq (kd : BitVec 3) (va : BitVec 5) (vb : BitVec 5) (km : BitVec 3)
  /-- VCMP_NE (R145). -/
  | vcmpNe (kd : BitVec 3) (va : BitVec 5) (vb : BitVec 5) (km : BitVec 3)
  /-- VCMP_LT (R145). -/
  | vcmpLt (kd : BitVec 3) (va : BitVec 5) (vb : BitVec 5) (km : BitVec 3)
  /-- VCMP_LE (R145). -/
  | vcmpLe (kd : BitVec 3) (va : BitVec 5) (vb : BitVec 5) (km : BitVec 3)
  /-- VCMP_GT (R145). -/
  | vcmpGt (kd : BitVec 3) (va : BitVec 5) (vb : BitVec 5) (km : BitVec 3)
  /-- VCMP_GE (R145). -/
  | vcmpGe (kd : BitVec 3) (va : BitVec 5) (vb : BitVec 5) (km : BitVec 3)
  /-- VSEL (R146). -/
  | vsel (vd : BitVec 5) (va : BitVec 5) (vb : BitVec 5) (km : BitVec 3) (n : BitVec 3)
  /-- VMOV (R147). -/
  | vmov (vd : BitVec 5) (va : BitVec 5) (km : BitVec 3)
  /-- VIDX (R148). -/
  | vidx (vd : BitVec 5) (km : BitVec 3)
  /-- VBC (R149). -/
  | vbc (vd : BitVec 5) (ra : BitVec 4) (km : BitVec 3) (tg : BitVec 4)
  /-- VEXT (R150). -/
  | vext (rd : BitVec 4) (va : BitVec 5) (lane : BitVec 5)
  /-- VCVT (R151). -/
  | vcvt (vd : BitVec 5) (va : BitVec 5) (km : BitVec 3) (tg : BitVec 4)
  /-- VQNT (R154). -/
  | vqnt (vd : BitVec 5) (va : BitVec 5) (vb : BitVec 5) (tg : BitVec 4)
  /-- VDQ (R156). -/
  | vdq (vd : BitVec 5) (va : BitVec 5) (vb : BitVec 5) (km : BitVec 3)
  /-- VCBD (R157). -/
  | vcbd (vd : BitVec 5) (va : BitVec 5) (vb : BitVec 5) (km : BitVec 3)
  /-- VPACK (R152). -/
  | vpack (vd : BitVec 5) (va : BitVec 5) (vb : BitVec 5) (km : BitVec 3)
  /-- VUNPK_L (R153). -/
  | vunpkL (vd : BitVec 5) (va : BitVec 5) (km : BitVec 3)
  /-- VUNPK_H (R153). -/
  | vunpkH (vd : BitVec 5) (va : BitVec 5) (km : BitVec 3)
  /-- VRED_ADD (R158). -/
  | vredAdd (vd : BitVec 5) (va : BitVec 5) (km : BitVec 3)
  /-- VRED_MIN (R158). -/
  | vredMin (vd : BitVec 5) (va : BitVec 5) (km : BitVec 3)
  /-- VRED_MAX (R158). -/
  | vredMax (vd : BitVec 5) (va : BitVec 5) (km : BitVec 3)
  /-- VRED_AND (R158). -/
  | vredAnd (vd : BitVec 5) (va : BitVec 5) (km : BitVec 3)
  /-- VRED_OR (R158). -/
  | vredOr (vd : BitVec 5) (va : BitVec 5) (km : BitVec 3)
  /-- VRED_XOR (R158). -/
  | vredXor (vd : BitVec 5) (va : BitVec 5) (km : BitVec 3)
  /-- VSCAN_ADD (R159). -/
  | vscanAdd (vd : BitVec 5) (va : BitVec 5) (km : BitVec 3)
  /-- VSCAN_MIN (R159). -/
  | vscanMin (vd : BitVec 5) (va : BitVec 5) (km : BitVec 3)
  /-- VSCAN_MAX (R159). -/
  | vscanMax (vd : BitVec 5) (va : BitVec 5) (km : BitVec 3)
  /-- VSCAN_AND (R159). -/
  | vscanAnd (vd : BitVec 5) (va : BitVec 5) (km : BitVec 3)
  /-- VSCAN_OR (R159). -/
  | vscanOr (vd : BitVec 5) (va : BitVec 5) (km : BitVec 3)
  /-- VSCAN_XOR (R159). -/
  | vscanXor (vd : BitVec 5) (va : BitVec 5) (km : BitVec 3)
  /-- VPERM (R160). -/
  | vperm (vd : BitVec 5) (va : BitVec 5) (vb : BitVec 5) (km : BitVec 3)
  /-- VSHF (R161). -/
  | vshf (vd : BitVec 5) (va : BitVec 5) (n : BitVec 5) (km : BitVec 3)
  /-- VRCP (R162). -/
  | vrcp (vd : BitVec 5) (va : BitVec 5) (km : BitVec 3)
  /-- VRSQ (R162). -/
  | vrsq (vd : BitVec 5) (va : BitVec 5) (km : BitVec 3)
  /-- VEX2 (R162). -/
  | vex2 (vd : BitVec 5) (va : BitVec 5) (km : BitVec 3)
  /-- VLG2 (R162). -/
  | vlg2 (vd : BitVec 5) (va : BitVec 5) (km : BitVec 3)
  /-- KAND (R164). -/
  | kand (kd : BitVec 3) (ka : BitVec 3) (kb : BitVec 3)
  /-- KOR (R164). -/
  | kor (kd : BitVec 3) (ka : BitVec 3) (kb : BitVec 3)
  /-- KXOR (R164). -/
  | kxor (kd : BitVec 3) (ka : BitVec 3) (kb : BitVec 3)
  /-- KNOT (R164). -/
  | knot (kd : BitVec 3) (ka : BitVec 3)
  /-- KMOV_MASK_TO_MASK (R164). -/
  | kmovMaskToMask (kd : BitVec 3) (ka : BitVec 3)
  /-- KMOV_SCALAR_TO_MASK (R164). -/
  | kmovScalarToMask (kd : BitVec 3) (ra : BitVec 4)
  /-- KMOV_MASK_TO_SCALAR (R164). -/
  | kmovMaskToScalar (rd : BitVec 4) (ka : BitVec 3)
  /-- KPOP (R164). -/
  | kpop (rd : BitVec 4) (ka : BitVec 3)
  /-- KFF (R164). -/
  | kff (rd : BitVec 4) (ka : BitVec 3)
  /-- VLD (R168). -/
  | vld (vt : BitVec 5) (ra : BitVec 4) (km : BitVec 3) (sp : BitVec 2) (off : BitVec 6)
  /-- VLDS (R169). -/
  | vlds (vt : BitVec 5) (ra : BitVec 4) (ix : BitVec 4) (km : BitVec 3) (sp : BitVec 2) (off : BitVec 6)
  /-- VGTH (R170). -/
  | vgth (vt : BitVec 5) (ra : BitVec 4) (ix : BitVec 4) (km : BitVec 3) (sp : BitVec 2) (off : BitVec 6)
  /-- VST (R168). -/
  | vst (vt : BitVec 5) (ra : BitVec 4) (km : BitVec 3) (sp : BitVec 2) (off : BitVec 6)
  /-- VSTS (R169). -/
  | vsts (vt : BitVec 5) (ra : BitVec 4) (ix : BitVec 4) (km : BitVec 3) (sp : BitVec 2) (off : BitVec 6)
  /-- VSCT (R170). -/
  | vsct (vt : BitVec 5) (ra : BitVec 4) (ix : BitVec 4) (km : BitVec 3) (sp : BitVec 2) (off : BitVec 6)
  /-- MXP (R203). -/
  | mxp (qa : BitVec 3) (qc : BitVec 3) (n : BitVec 4) (rs : BitVec 4) (chain : BitVec 1)
  /-- DEC (R197). -/
  | dec (qa : BitVec 3) (n : BitVec 4) (rs : BitVec 4) (toBank : BitVec 1) (wf : BitVec 3)
  /-- PHLD (R193). -/
  | phld (qa : BitVec 3) (n : BitVec 4) (swap : BitVec 1)
  /-- PHSW (R194). -/
  | phsw (settle : BitVec 1)
  /-- PHRD (R195). -/
  | phrd (qc : BitVec 3) (rs : BitVec 4)
  /-- PHWR (R195). -/
  | phwr (qa : BitVec 3) (n : BitVec 4) (rs : BitVec 4)
  /-- UNF (R201). -/
  | unf (qa : BitVec 3) (qc : BitVec 3) (n : BitVec 4) (rs : BitVec 4) (adv : BitVec 1)
  /-- ACCRD (R211). -/
  | accrd (qc : BitVec 3) (rs : BitVec 4) (clr : BitVec 1) (tg : BitVec 4)
  /-- ACCCLR (R209). -/
  | accclr (rs : BitVec 4) (cntOnly : BitVec 1)
  /-- ACCPRO (R210). -/
  | accpro (rs : BitVec 4) (rescale : BitVec 1)
  /-- ACCEXP (R211). -/
  | accexp (qc : BitVec 3) (rs : BitVec 4) (clr : BitVec 1) (tg : BitVec 4)
  /-- CNTRD (R212). -/
  | cntrd (rs : BitVec 4)
  /-- PROBE (R213). -/
  | probe (full : BitVec 1)
  /-- QCFG (R214). -/
  | qcfg (qa : BitVec 3) (rs : BitVec 4)
  /-- QADV_P (R216). -/
  | qadvP (qa : BitVec 3) (n : BitVec 4)
  /-- QADV_C (R216). -/
  | qadvC (qa : BitVec 3) (n : BitVec 4)
  /-- QSTAT (R218). -/
  | qstat (qa : BitVec 3) (rs : BitVec 4)
  /-- QWAIT (R217). -/
  | qwait (qa : BitVec 3) (n : BitVec 4)
  /-- CPY (R240). -/
  | cpy (ch : BitVec 3) (rd : BitVec 4) (ra : BitVec 4) (rb : BitVec 4) (att : BitVec 1) (bn : BitVec 3)
  /-- CPY_STEP (R249). -/
  | cpyStep (ch : BitVec 3) (ra : BitVec 4)
  /-- CPY_WM (R249). -/
  | cpyWm (ch : BitVec 3) (ra : BitVec 4)
  /-- CPY_SUM (R249). -/
  | cpySum (ch : BitVec 3) (rd : BitVec 4)
  /-- CPY_STOP (R249). -/
  | cpyStop (ch : BitVec 3)
  /-- SEND_REQ (R226). -/
  | sendReq (rd : BitVec 4) (ra : BitVec 4) (rb : BitVec 4) (k : BitVec 4) (att : BitVec 1) (bn : BitVec 3)
  /-- SEND_RPY (R226). -/
  | sendRpy (rd : BitVec 4) (ra : BitVec 4) (rb : BitVec 4) (k : BitVec 4) (att : BitVec 1) (bn : BitVec 3)
  /-- MIGR (R231). -/
  | migr (ra : BitVec 4)
  /-- FORK (R234). -/
  | fork (rd : BitVec 4) (ra : BitVec 4) (rb : BitVec 4) (att : BitVec 1) (bn : BitVec 3)
  /-- JOIN (R236). -/
  | join (ra : BitVec 4)
  /-- TEND (R237). -/
  | tend
  /-- YIELD (R238). -/
  | yield
  /-- SPAWN (R239). -/
  | spawn (rd : BitVec 4) (ra : BitVec 4) (rb : BitVec 4)
  /-- SRR (R250). -/
  | srr (rd : BitVec 4) (sr : BitVec 12)
  /-- SRW (R250). -/
  | srw (ra : BitVec 4) (sr : BitVec 12)
  /-- TRAP (R251). -/
  | trap (n : BitVec 5)
  /-- ERET (R252). -/
  | eret
  /-- BKPT (R253). -/
  | bkpt
  /-- TIME (R254). -/
  | time (rd : BitVec 4)
  /-- IDLE (R255). -/
  | idle
  /-- LIMM_A (R58). -/
  | limmA (payload : BitVec 22)
  /-- LIMM_B (R58). -/
  | limmB (payload : BitVec 22)
  /-- ROUND (R56). -/
  | round (mode : BitVec 3)
  /-- SAT (R56). -/
  | sat (code : BitVec 1)
  /-- SCOPE (R56). -/
  | scope (code : BitVec 3)
  /-- PRIO (R56). -/
  | prio
  /-- CACHE (R282). -/
  | cache (policy : BitVec 2)
  /-- WAITN (R56). -/
  | waitn (count : BitVec 12)
  /-- ILLEGAL_WORD (R45). -/
  | illegalWord (word : BitVec 32) (cause : BitVec 8)
  /-- FETCH_FAULT (R277). -/
  | fetchFault (cause : BitVec 8)
  /-- GANG_BARRIER_COMPLETE (R174). -/
  | gangBarrierComplete (stall : BitVec 7) (task : BitVec 64)
  /-- GANG_TIMEOUT (R177). -/
  | gangTimeout (stall : BitVec 7) (task : BitVec 64)
  /-- MXP_SLOT_COMPLETE (R203). -/
  | mxpSlotComplete (stall : BitVec 7) (task : BitVec 64)
  /-- DEC_BLOCK_COMPLETE (R197). -/
  | decBlockComplete (stall : BitVec 7) (task : BitVec 64)
  /-- OMU_SETTLE_END (R356). -/
  | omuSettleEnd (pstall : BitVec 7)
  /-- PILOT (R357). -/
  | pilot (pstall : BitVec 7) (rho : BitVec 16)
  /-- UNFOLD_SLOT (R200). -/
  | unfoldSlot (tile : BitVec 11)
  /-- FORWARDED_REPLY (R94). -/
  | forwardedReply (task : BitVec 64) (tile : BitVec 11) (lanes : BitVec 32)
  /-- BANK_OP_APPLY (R101). -/
  | bankOpApply (unit : BitVec 14)
  /-- SEALED_COMMIT (R114). -/
  | sealedCommit (task : BitVec 64) (tile : BitVec 11)
  /-- WAITA_WAKE (R111). -/
  | waitaWake (tile : BitVec 11) (slot : BitVec 3)
  /-- WAIT_COMPLETION (R10). -/
  | waitCompletion (tile : BitVec 11) (slot : BitVec 3)
  /-- IDLE_END (R255). -/
  | idleEnd (tile : BitVec 11) (slot : BitVec 3)
  /-- BOUNDARY_EVENT (R329). -/
  | boundaryEvent (tile : BitVec 11) (slot : BitVec 3)
  /-- WATCHDOG_EXPIRY (R341). -/
  | watchdogExpiry (tile : BitVec 11) (slot : BitVec 3)
  /-- ENERGY_CHARGE (R402). -/
  | energyCharge (quad : BitVec 2) (energy : BitVec 48)
  /-- SLOT_FILL (R315). -/
  | slotFill (tile : BitVec 11) (slot : BitVec 3)
  /-- GANG_START (R316). -/
  | gangStart (stall : BitVec 7)
  /-- MESSAGE_INJECTION (R227). -/
  | messageInjection (tile : BitVec 11) (net : BitVec 1)
  /-- MESSAGE_ARRIVAL (R228). -/
  | messageArrival (idx : Nat)
  /-- MIGRANT_ARRIVAL (R232). -/
  | migrantArrival (idx : Nat)
  /-- MIGRANT_ACCEPTANCE (R231). -/
  | migrantAcceptance (tile : BitVec 11) (slot : BitVec 3)
  /-- MESSAGE_REFUSAL (R229). -/
  | messageRefusal (idx : Nat)
  /-- COPY_DESCRIPTOR (R242). -/
  | copyDescriptor (tile : BitVec 11) (ch : BitVec 3)
  /-- COPY_DESCRIPTOR_COMPLETE (R246). -/
  | copyDescriptorComplete (tile : BitVec 11) (ch : BitVec 3)
  /-- QUEUE_RECORD_FETCH (R411). -/
  | queueRecordFetch (queue : BitVec 16)
  /-- GRAPH_NODE_FETCH (R306). -/
  | graphNodeFetch (part : BitVec 4)
  /-- NODE_COMPLETE (R306). -/
  | nodeComplete (asid : BitVec 16) (node : BitVec 64)
  /-- FORK_NODE (R304). -/
  | forkNode (asid : BitVec 16) (node : BitVec 64)
  /-- COPY_NODE (R304). -/
  | copyNode (asid : BitVec 16) (node : BitVec 64)
  /-- SIGNAL_NODE (R304). -/
  | signalNode (asid : BitVec 16) (node : BitVec 64)
  /-- GRAPH_NODE (R304). -/
  | graphNode (asid : BitVec 16) (node : BitVec 64)
  /-- DISPENSE (R312). -/
  | dispense (part : BitVec 4)
  /-- PREEMPTION (R314). -/
  | preemption (part : BitVec 4)
  /-- ROTATION_TICK (R321). -/
  | rotationTick (arcade : BitVec 4)
  /-- SWAP_RELEASE (R323). -/
  | swapRelease (arcade : BitVec 4)
  /-- OPERATING_POINT_CHANGE (R396). -/
  | operatingPointChange (quad : BitVec 2)
  /-- POINT_RAISE (R397). -/
  | pointRaise (quad : BitVec 2)
  /-- QUADRANT_POWER_SAMPLE (R400). -/
  | quadrantPowerSample (quad : BitVec 2) (watts : BitVec 16)
  /-- MODULE_POWER_SAMPLE (R401). -/
  | modulePowerSample (watts : BitVec 16)
  /-- DROOP_ALARM (R398). -/
  | droopAlarm (quad : BitVec 2) (supply : BitVec 16)
  /-- STRETCH_END (R398). -/
  | stretchEnd (quad : BitVec 2)
  /-- THROTTLE_END (R318). -/
  | throttleEnd (quad : BitVec 2)
  /-- SENSOR_SAMPLE (R399). -/
  | sensorSample (pstall : BitVec 7) (logic : BitVec 8) (banks : List (BitVec 8))
  /-- REFRESH_ROW_DUE (R291). -/
  | refreshRowDue (pstall : BitVec 7) (bank : BitVec 6) (busy : Bool)
  /-- PLACEMENT_HALVING (R285). -/
  | placementHalving
  /-- PAGE_EXCHANGE_START (R287). -/
  | pageExchangeStart (quad : BitVec 2) (frame : BitVec 32)
  /-- PAGE_EXCHANGE_COMMIT (R287). -/
  | pageExchangeCommit (quad : BitVec 2)
  /-- SCOUT_ACCESS (R283). -/
  | scoutAccess (pstall : BitVec 7) (asid : BitVec 16) (va : BitVec 64)
  /-- CORRECTABLE_ERROR (R346). -/
  | correctableError (pstall : BitVec 7) (place : Storage) (word : BitVec 32)
  /-- UNCORRECTABLE_ERROR (R346). -/
  | uncorrectableError (place : Storage)
  /-- SELF_TEST_COMPLETE (R347). -/
  | selfTestComplete (unit : UnitKind) (number : BitVec 32) (pass : Bool)
  /-- BANK_LOSS (R296). -/
  | bankLoss (unit : UnitKind) (number : BitVec 32)
  /-- CXL_REMOVAL (R299). -/
  | cxlRemoval
  /-- CXL_INSERTION (R418). -/
  | cxlInsertion
  /-- LINE_LOSS (R360). -/
  | lineLoss (stalls : BitVec 128) (source : Bool)
  /-- LIGHT_RECOVERY (R360). -/
  | lightRecovery (pstall : BitVec 7) (rho : BitVec 16)
  /-- SOURCE_RESTORED (R360). -/
  | sourceRestored (src : BitVec 1)
  /-- STORE_FLIT (R372). -/
  | storeFlit (bundle lane : BitVec 4) (raw : BitVec 512)
  /-- TAG_FLIT (R381). -/
  | tagFlit (bundle lane : BitVec 4) (raw : BitVec 512)
  /-- ACK (R379). -/
  | ack (head : CtlHead) (bundle : BitVec 4) (vc : BitVec 3) (seq : BitVec 16)
  /-- NAK (R379). -/
  | nak (head : CtlHead) (bundle : BitVec 4) (vc : BitVec 3) (seq : BitVec 16)
  /-- RRF (R387). -/
  | rrf (head : CtlHead) (bundle : BitVec 4) (mask : BitVec 9)
  /-- LANEST (R385). -/
  | lanest (head : CtlHead) (bundle : BitVec 4) (weights : BitVec 36)
  /-- APPLIED (R375). -/
  | applied (head : CtlHead) (cls : BitVec 3) (eseq : BitVec 32)
  /-- FAIL (R376). -/
  | fail (head : CtlHead) (cls : BitVec 3) (first last : BitVec 32) (cause : BitVec 8)
  /-- RESYNC (R373). -/
  | resync (head : CtlHead) (cls : BitVec 3) (eseq : BitVec 32)
  /-- GONE (R390). -/
  | gone (head : CtlHead) (dev : BitVec 18)
  /-- HELLO (R393). -/
  | hello (head : CtlHead) (dev : BitVec 18)
  /-- KEYX (R374). -/
  | keyx (head : CtlHead) (answer : Bool) (cls : BitVec 3) (value : BitVec 64)
  /-- PATH_REESTABLISHMENT (R374). -/
  | pathReestablishment (dev : BitVec 18) (cls : BitVec 3)
  /-- NAK_REPEAT (R379). -/
  | nakRepeat (bundle : BitVec 4) (vc : BitVec 3)
  /-- ACK_TIMER (R379). -/
  | ackTimer (bundle : BitVec 4) (vc : BitVec 3)
  /-- GROUP_CLOSE (R381). -/
  | groupClose (dev : BitVec 18) (cls : BitVec 3)
  /-- TAG_TIMEOUT (R381). -/
  | tagTimeout (dev : BitVec 18) (cls : BitVec 3)
  /-- STORE_TIMEOUT (R376). -/
  | storeTimeout (dev : BitVec 18) (cls : BitVec 3)
  /-- LANE_RETRAIN (R385). -/
  | laneRetrain (bundle : BitVec 4) (lane : BitVec 4) (lost : Bool)
  /-- RETRAIN_COMPLETE (R386). -/
  | retrainComplete (bundle : BitVec 4) (lane : BitVec 4) (pass : Bool)
  /-- LANE_WEIGHT_STEP (R385). -/
  | laneWeightStep (bundle : BitVec 4) (lane : BitVec 4)
  /-- DEVICE_GONE (R389). -/
  | deviceGone (dev : BitVec 18)
  /-- MODULE_INSERTION (R393). -/
  | moduleInsertion (dev : BitVec 18)
  /-- LATCH_RELEASE (R418). -/
  | latchRelease
  /-- COOLANT_OVERTEMP (R418). -/
  | coolantOvertemp
  /-- LEAK (R418). -/
  | leak
  /-- COLD_RESET (R416). -/
  | coldReset (record : ConfigRec) (retired : List (UnitKind × Nat)) (rhos : List (BitVec 16)) (down : BitVec 2)
  /-- RESET_COLD (R416). -/
  | resetCold (record : ConfigRec) (retired : List (UnitKind × Nat)) (rhos : List (BitVec 16)) (down : BitVec 2)
  /-- PARTITION_RESET (R416). -/
  | partitionReset (part : BitVec 4)
  /-- CHECKPOINT_START (R417). -/
  | checkpointStart
  /-- CHECKPOINT_RESTORE (R417). -/
  | checkpointRestore
  /-- CHECKPOINT_COMPLETE (R417). -/
  | checkpointComplete (micros : BitVec 32)
  /-- CKSTAT_CLEAR (R406). -/
  | ckstatClear (value : BitVec 64)
  /-- MCQDROP_CLEAR (R406). -/
  | mcqdropClear
  /-- MCQ_CONFIG_WRITE (R406). -/
  | mcqConfigWrite (len : Bool) (value : BitVec 64)
  /-- CXLEN (R406). -/
  | cxlen (value : BitVec 64)
  /-- KILL (R343). -/
  | kill (part : BitVec 4) (task : BitVec 64)
  /-- HALT (R345). -/
  | halt (part : BitVec 4) (task : BitVec 64)
  /-- RELEASE (R408). -/
  | release (part : BitVec 4) (serial : BitVec 60)
  /-- STEP (R408). -/
  | step (part : BitVec 4) (serial : BitVec 60)
  /-- DEBUG_SAVE (R408). -/
  | debugSave (part : BitVec 4) (serial : BitVec 60)
  /-- DEBUG_RESTORE (R408). -/
  | debugRestore (part : BitVec 4) (serial : BitVec 60)
  /-- RESUME (R408). -/
  | resume (part : BitVec 4) (serial : BitVec 60)
  /-- PEQDROP_CLEAR (R407). -/
  | peqdropClear (part : BitVec 4)
  /-- TAIL (R411). -/
  | tail (queue : BitVec 16) (value : BitVec 32)
  /-- CHEAD (R412). -/
  | chead (queue : BitVec 16) (value : BitVec 32)
  /-- QERR_CLEAR (R409). -/
  | qerrClear (queue : BitVec 16) (value : BitVec 64)
  /-- QUEUE_CONFIG_WRITE (R410). -/
  | queueConfigWrite (queue : BitVec 16) (reg : BitVec 6) (value : BitVec 64)
  /-- REGISTER_WRITE (R405). -/
  | registerWrite (offset : BitVec 26) (size : Nat) (value : BitVec 64)
  /-- HOST_READ (R271). -/
  | hostRead (pa : BitVec 48) (len : BitVec 6)
  /-- HOST_WRITE (R271). -/
  | hostWrite (pa : BitVec 48) (data : List (BitVec 8))
  /-- MSIX_UNMASK (R413). -/
  | msixUnmask (port : BitVec 1) (vec : BitVec 11)
  /-- PROBE_COMPLETE (R213). -/
  | probeComplete (stall : BitVec 7) (task : BitVec 64) (rho : BitVec 16)
  /-- GATHER_COMPLETE (R294). -/
  | gatherComplete (tile : BitVec 11) (slot : BitVec 3)
  /-- LANE_RESYNC (R388). -/
  | laneResync (bundle : BitVec 4) (lane : BitVec 4)
  deriving DecidableEq, Repr

end Sys2Proof
end

