-- ==== Sys2Proof/Config.lean ====
section
/-! DEFINITION. What one implementation fixes and what the spec leaves open: constants without a body, so that nothing can
evaluate them or prove a value of them. Each is named in a log entry under notes/assumptions/. Most are applied to
State.steps, the model's own counter, so that every step has values of its own. -/

namespace Sys2Proof

/-- The steps of the device, and the inputs from outside, that act next after step `n` (notes/assumptions/1.md). -/
opaque Config.arrival : Nat → List Instr

/-- Nanoseconds of TIME that step `n` takes (notes/assumptions/2.md). -/
opaque Config.elapsed : Nat → Nat

/-- Clock edges that the tile sees in step `n` (R38 CYCLE; notes/assumptions/2.md). -/
opaque Config.edges : Nat → Nat → Nat

/-- The tile whose issue logic acts next when several tiles could (notes/assumptions/1.md). -/
opaque Config.nextTile : Nat → Nat

/-- R262: the home directory (0 to 127) of a granule, a hash of virtual address and ASID that the spec does not give (notes/assumptions/15.md). -/
opaque Config.homeDir : BitVec 16 → Nat → Nat

/-- R262: the bit (0 to 2,047) of a signature that a granule sets (notes/assumptions/15.md). -/
opaque Config.sigBit : BitVec 16 → Nat → Nat

/-- R282: the way that ordinary replacement chooses in a set (stall caches by set, L1s after them), which the spec leaves open (notes/assumptions/16.md and notes/assumptions/59.md). -/
opaque Config.victim : Nat → Nat → Nat

/-- R268: for a load of a private page that two tasks touch at once, whether it returns the older committed value (notes/assumptions/14.md). -/
opaque Config.privateOld : Nat → Nat → Bool

/-- R286: the frame that the pool offers as free in a memory, named by its first frame; the spec does not give the pool (notes/assumptions/35.md). -/
opaque Config.freeFrame : Nat → Nat → Option Nat

/-- R283 and R285 disagree on whether the placement record counts a PF: this says whether it does (notes/assumptions/9.md). -/
opaque Config.pfCounted : Bool

/-- R107: bytes that a stopped or trapped GTH may have written beyond PIDX (notes/assumptions/20.md). -/
opaque Config.gatherAhead : Nat → Nat → Option (BitVec 8)

/-- R92, R108, R171, R193: the units after which a long instruction of a step meets a stop point; none when it runs to its end (notes/assumptions/6.md and notes/assumptions/60.md). -/
opaque Config.stopPoint : Nat → Option Nat

/-- R364: the up port (0 to 15) that the hash of source, destination, class and usable ports selects (notes/assumptions/43.md). -/
opaque Config.upPort : BitVec 18 → BitVec 18 → BitVec 3 → Nat → Nat

/-- R381: the AES-256-GCM tag under a path key and a nonce, of each flit's additional data and protected bytes (notes/assumptions/42.md). -/
opaque Config.gcmTag : BitVec 256 → BitVec 96 → List (BitVec 112) → List (BitVec 352) → BitVec 128

/-- R381: the AES-256-GCM key stream under a path key and a nonce, for the protected bytes of a group's flit `i` (notes/assumptions/42.md). -/
opaque Config.gcmStream : BitVec 256 → BitVec 96 → Nat → BitVec 352

/-- R378: where the operands of a control operation lie in bytes 12 to 55, which the spec does not give (notes/assumptions/69.md). -/
opaque Config.ctlOperands : Nat → List Nat → BitVec 352

/-- R383: which two routes control flit `n` takes (notes/assumptions/69.md). -/
opaque Config.ctlRoutes : Nat → Nat

/-- R384: the hash of channel and SEQ that selects a lane (notes/assumptions/69.md). -/
opaque Config.laneHash : BitVec 3 → BitVec 16 → Nat

/-- R379: the receiver's buffer is full in step `n`; the spec does not give its size (notes/assumptions/69.md). -/
opaque Config.hopFull : Nat → Bool

/-- R374: the path key, HKDF-SHA-384 of the provisioned key handle, the two exchanged values, source, destination, class (notes/assumptions/42.md). -/
opaque Config.pathKey : Nat → BitVec 64 → BitVec 64 → BitVec 18 → BitVec 18 → BitVec 3 → BitVec 256

/-- R374: a value of the device's random source (notes/assumptions/42.md). -/
opaque Config.random : Nat → BitVec 64

/-- R311, R402: tile cycles in which an OMU or a decomposition engine performs the gang instruction of step `n` (notes/assumptions/24.md). -/
opaque Config.gangCycles : Nat → Nat

/-- R298: the channel of its stack that holds a 256-byte unit of HBM4, which the spec does not give (notes/assumptions/39.md). -/
opaque Config.hbmChannel : Nat → Nat

/-- R297: where a tile's mailbox lies in its column: numbers from which two layers and a bank in each are taken (notes/assumptions/39.md). -/
opaque Config.mailboxBank : Nat → Nat → Nat

/-- R414, R416: the configuration record of a cold reset that a write to RESET makes at step `n`, the units that its self-test retires, ρ of each OMU's probe, and the host ports whose link does not train (notes/assumptions/56.md). -/
opaque Config.bootRecord : Nat → ConfigRec
opaque Config.bootRetired : Nat → List (UnitKind × Nat)
opaque Config.bootRhos : Nat → List (BitVec 16)
opaque Config.bootDown : Nat → BitVec 2

/-- R413: what the host writes to a port's MSI-X structures after step `n`: port, entry (0 to 2,047) or function mask (2,048) or enable (2,049), value (notes/assumptions/77.md). -/
opaque Config.msixHost : Nat → Option (Nat × Nat × Bool)

/-- R272: bytes of CXL memory attached behind port 1, at most 14 TiB (notes/assumptions/47.md). -/
opaque Config.cxlBytes : Nat

/-- R119, R120 and other values of an instruction that the spec leaves open, by step and place (notes/assumptions/21.md, 23.md, 27.md and 32.md). -/
opaque Config.openBits : Nat → Nat → BitVec 64

end Sys2Proof
end

