-- ==== Sys2Proof/Machine/Sparse.lean ====
section
/-! DEFINITION. The operations on sparse maps (FMap of Word.lean): reading, writing, and the canonical form. The machine's
memory (R3, R5), its register files and its tables of records are all held this way, so that equal contents are equal data. -/

namespace Sys2Proof.Machine

/-- Read key `k`; an unlisted key reads as the default `d`. -/
def fget {α : Type} (d : α) : FMap α → Nat → α
  | [], _ => d
  | (j, v) :: m, k => if j = k then v else fget d m k

/-- Take key `k` out. -/
def fdel {α : Type} (k : Nat) : FMap α → FMap α
  | [] => []
  | (j, v) :: m => if j = k then fdel k m else (j, v) :: fdel k m

/-- Put value `v` at key `k` of a map, keeping the keys rising. -/
def fins {α : Type} (k : Nat) (v : α) : FMap α → FMap α
  | [] => [(k, v)]
  | (j, w) :: m => if k < j then (k, v) :: (j, w) :: m else if k = j then (k, v) :: m else (j, w) :: fins k v m

/-- Write value `v` at key `k`: writing the default takes the entry out. -/
def fset {α : Type} [DecidableEq α] (d : α) (k : Nat) (v : α) (m : FMap α) : FMap α :=
  if v = d then fdel k m else fins k v m

/-- Change the value at key `k`. -/
def fmod {α : Type} [DecidableEq α] (d : α) (k : Nat) (f : α → α) (m : FMap α) : FMap α :=
  fset d k (f (fget d m k)) m

/-- The canonical form from a lower bound on the keys: keys strictly rising, no entry at the default. -/
def fwfFrom {α : Type} [DecidableEq α] (d : α) : Nat → FMap α → Bool
  | _, [] => true
  | lo, (k, v) :: m => decide (lo ≤ k) && decide (v ≠ d) && fwfFrom d (k + 1) m

/-- The canonical form of a sparse map. -/
def fwf {α : Type} [DecidableEq α] (d : α) (m : FMap α) : Bool := fwfFrom d 0 m

/-- Is there an entry at key `k`? -/
def fhas {α : Type} (m : FMap α) (k : Nat) : Bool := m.any (fun e => e.1 == k)

/-- The values of the keys from `k`, `n` of them. -/
def fgetN {α : Type} (d : α) (m : FMap α) (k : Nat) : Nat → List α
  | 0 => []
  | n + 1 => fget d m k :: fgetN d m (k + 1) n

/-- Write a list of values at consecutive keys. -/
def fsetL {α : Type} [DecidableEq α] (d : α) (k : Nat) : List α → FMap α → FMap α
  | [], m => m
  | v :: vs, m => fsetL d (k + 1) vs (fset d k v m)

/-- The entries with keys from `lo`, `n` of them, and the map without them. -/
def frange {α : Type} (m : FMap α) (lo n : Nat) : FMap α := m.filter (fun e => decide (lo ≤ e.1) && decide (e.1 < lo + n))
def fdrop {α : Type} (m : FMap α) (lo n : Nat) : FMap α := m.filter (fun e => !(decide (lo ≤ e.1) && decide (e.1 < lo + n)))

/-- Write entries at keys moved from `lo` to `dst`. -/
def fmove {α : Type} [DecidableEq α] (d : α) (lo dst : Nat) (es m : FMap α) : FMap α :=
  es.foldl (fun r e => fset d (e.1 - lo + dst) e.2 r) m

/-- The ranges of `n` keys from `a` and from `b` change places. -/
def fswap {α : Type} [DecidableEq α] (d : α) (a b n : Nat) (m : FMap α) : FMap α :=
  fmove d b a (frange m b n) (fmove d a b (frange m a n) (fdrop (fdrop m a n) b n))

/-- The `n` keys from `lo` copied to `dst`. -/
def fcopy {α : Type} [DecidableEq α] (d : α) (lo dst n : Nat) (m : FMap α) : FMap α :=
  fmove d lo dst (frange m lo n) (fdrop m dst n)

end Sys2Proof.Machine
end

