-- ==== Sys2Proof/Machine/State.lean ====
section
/-! DEFINITION. The machine's state as plain data: every piece of state the spec gives the device, one record for each
scope (thread slot, tile, stall, arcade, quadrant, partition, device), and the state right after reset. Reset values that the
spec does not give are named in notes/assumptions/3.md. -/

namespace Sys2Proof.Machine

/-- Reasons why the machine stops with a fault: there are none, because every trap the spec describes is taken (R326) and a
module held in reset (R414) still waits for a cold reset. -/
inductive Fault where
  deriving DecidableEq, Repr

/-- Reasons why the model has no meaning for an instruction. -/
inductive Refusal where
  /-- Raised by the arms of Dispatch.lean that have no meaning yet; safe. -/
  | notModelled (mnemonic : String)
  deriving DecidableEq, Repr

/-- A vector register: its format tag and its 32 lanes of 32 bits, lane 0 lowest (R15, R18). -/
structure VReg where
  tag : BitVec 4 := 0
  lanes : BitVec 1024 := 0
  deriving DecidableEq, Repr

/-- What an undo brings back to its value at segment start (R264 Table 2). -/
structure RegImage where
  g : FMap Word := []
  v : FMap VReg := []
  k : FMap (BitVec 32) := []
  flags : Word := 0
  rngs : BitVec 32 := 1
  deriving DecidableEq, Repr

/-- Where a line of a version lies (R259, R280): the physical stall whose cache holds it, the RD, WR, EX, PRIV, PVT and TYPE bits of its
page as they were copied at its fill (R278), and the CACHE policy of its latest store (R282). -/
structure VLine where
  stall : Nat := 0
  leaf : Nat := 0
  policy : Nat := 0
  deriving DecidableEq, Repr

/-- The current segment of a task (R256 to R264). -/
structure Segment where
  /-- Address of the segment's first instruction (R264). -/
  start : Word := 0
  /-- Registers at segment start. -/
  image : RegImage := {}
  /-- The version: bytes stored and not committed, by virtual address (R258). -/
  version : FMap (Option Byte) := []
  /-- Granules (virtual address / 32) of the access set that were read (R257). -/
  reads : FMap Bool := []
  /-- Granules of the write set. -/
  writes : FMap Bool := []
  /-- Granules of the version that lie on private pages: versioned and never tracked (R268). -/
  priv : FMap Bool := []
  /-- Granules of private pages that were read: of no access set, and known to the check of R87 step 8. -/
  privR : FMap Bool := []
  /-- Granules beyond a full home directory, as bits of its signatures: directory * 2048 + bit (R262). -/
  sigR : FMap Bool := []
  sigW : FMap Bool := []
  /-- Granules beyond a full home directory that were written, and those that were read: a signature never misses one (R262). -/
  spilled : FMap Bool := []
  spilledR : FMap Bool := []
  /-- The version's lines in the stall caches, by granule (R259, R280). -/
  vlines : FMap (Option VLine) := []
  /-- Lowest granule address on which an entry has doomed the segment (R261). -/
  doom : Option Word := none
  /-- Doomed through a signature (R262). -/
  doomSig : Bool := false
  /-- A commit that waits took the segment: it takes no further access (R114). -/
  sealedCommit : Bool := false
  /-- Address that the access of a sealed release has accessed: its commit makes the release (R88, R114). -/
  release : Option Word := none
  /-- It began at the commit of the instruction in progress, and starts at the next one once that retires (R264). -/
  opened : Bool := false
  /-- Count of commits when it began: what is older than the task's own previous commit (R268). -/
  began : Nat := 0
  deriving DecidableEq, Repr

/-- A gather descriptor (R106 Table 4). -/
structure Gather where
  tbase : Word
  ibase : Word
  count : Nat
  tlen : Nat
  elog : Nat
  iw : Nat
  bad : Bool
  deriving DecidableEq, Repr

/-- A GTH at its engine: the descriptor as it was read, tile and offset of the destination in AB, rd, and the GTH's own address. -/
structure GatherRun where
  desc : Gather
  home : Nat
  off : Nat
  rd : BitVec 4
  at' : Word
  deriving DecidableEq, Repr

/-- What a waiting slot waits for (R10). -/
inductive Wait where
  /-- A ring, barrier, join cell, queue space, sealed commit or the like: the instruction executes again when woken. -/
  | completion
  /-- WAITA: a change of the dword at the address (R111). -/
  | address (va : Word)
  /-- A gang instruction at its barrier or in its pass (R174). -/
  | gang
  /-- A load waiting for forwarded replies (R94, R172). -/
  | load
  /-- MOP.CAS or MOP.SAC waiting for the old value: rd, and the instruction's own address (R103, R104). -/
  | bankValue (rd : BitVec 4) (at' : Word)
  /-- A GTH at its gather engine (R294). -/
  | gather (run : GatherRun)
  /-- IDLE (R255). -/
  | idle
  /-- MIGR waiting for acceptance or refusal (R231). -/
  | migrate
  /-- Stopped for a quota stop that found no save area; halted, for a debug save that found none (R334). -/
  | area
  | debugArea
  deriving DecidableEq, Repr

/-- Thread-slot states (R10 Table 1). -/
inductive Phase where
  | free
  | ready
  | waiting (w : Wait)
  | halted
  deriving DecidableEq, Repr

/-- Stop requests that R329 carries out at a boundary, by their reason. -/
inductive Stop where
  | preempt
  | yield
  | quota
  | halt
  deriving DecidableEq, Repr

/-- Where a task's ending and late credits go (R35, R331). -/
inductive Origin where
  /-- A message handler or migrant with no creator that waits for it. -/
  | nobody
  /-- Worker of a fork: the join cell (R235). -/
  | cell (id : Nat)
  /-- KIND 0 record of a work queue (R412). -/
  | queue (q : Nat)
  /-- The command of a COPY graph node (R304). -/
  | node (asid : BitVec 16) (va : Word)
  deriving DecidableEq, Repr

/-- A load waiting for forwarded replies, as the save area holds it (R94, R172, R335). -/
structure PendingLoad where
  /-- The load instruction, its own address, and that of the first HINT of its run. -/
  instr : Instr
  at' : Word := 0
  start : Word := 0
  /-- Virtual address of the access (of lane 0's displacement base for a vector). -/
  ea : Word := 0
  /-- Bytes of the scalar access, or 0 for a vector load. -/
  size : Nat := 0
  /-- Destination: scalar register, or vector register of the lanes. -/
  dest : Nat := 0
  /-- Lanes wanted and lanes done. -/
  want : BitVec 32 := 0
  done : BitVec 32 := 0
  /-- Virtual address of each lane. -/
  addrs : FMap Word := []
  /-- Lanes, or the dword in bits 63 to 0, of the replies. -/
  image : BitVec 1024 := 0
  /-- The replies received, oldest first: the lanes that each completed, and its cause with the faulting address, or 0 (R335 Table 3). -/
  log : List (BitVec 32 × BitVec 8 × Word) := []
  /-- Mask under which the lanes are merged. -/
  mask : BitVec 32 := 0
  /-- CACHE policy of the load (R282), and when its segment began (R264). -/
  policy : Nat := 0
  began : Nat := 0
  deriving DecidableEq, Repr

/-- A record of a tile's run queue (R315) or of the dispenser (R310). -/
inductive RecordKind where
  /-- A new task: entry address and eight argument words. -/
  | task (entry : Word) (args : List Word)
  /-- A fork worker: worker number and count, argument, and handle. -/
  | worker (entry : Word) (args : List Word) (cell : Nat)
  /-- A pre-empted or resumed task: its save area (physical address). -/
  | saved (area : Nat)
  /-- The continuation of a join cell whose last worker left no slot (R235). -/
  | cont (cell : Nat)
  deriving DecidableEq, Repr

structure Record where
  kind : RecordKind
  gang : Bool := false
  pcls : BitVec 3 := 0
  part : BitVec 4 := 0
  asid : BitVec 16 := 0
  origin : Origin := .nobody
  queue : Option Nat := none
  demand : Option (BitVec 3) := none
  /-- Its reservation was made by pre-emption: the slots that its victims leave pass to it (R314). -/
  urgent : Bool := false
  /-- Queued by YIELD: it stands behind the records it gave way to (R238). -/
  yielded : Bool := false
  /-- Leases wanted: AB in 4 KiB units, WB in 1 KiB units (R233). -/
  lab : Nat := 0
  lwb : Nat := 0
  /-- SCHED command of a FORK node's worker: address and descriptors (R304). -/
  sched : Option (Word × Nat) := none
  /-- TIME at which the record came to the dispenser (R314). -/
  since : Nat := 0
  /-- Its place in the dispenser's arrival order: the step at which it came (R310). -/
  seq : Nat := 0
  deriving DecidableEq, Repr

/-- A thread slot: its state, the context of its task (R11), and what the tile keeps beside it. -/
structure Slot where
  phase : Phase := .free
  pc : Word := 0
  g : FMap Word := []
  v : FMap VReg := []
  k : FMap (BitVec 32) := []
  status : Word := 0
  flags : Word := 0
  taskid : Word := 0
  asid : BitVec 16 := 0
  epc : Word := 0
  ecause : BitVec 8 := 0
  eval : Word := 0
  pidx : BitVec 32 := 0
  /-- The model's own: units that PHLD instructions read before they stopped, by pc (R193), and the PIDX at which a chained MXP has loaded its
  image, with its pc (R203; notes/assumptions/27.md). -/
  staged : List (Word × FMap Byte) := []
  /-- The PIDX at which the pass in progress began or was resumed (R361). -/
  passFrom : BitVec 32 := 0
  chained : Option (Word × Nat) := none
  estatus : Word := 0
  tvec : Word := 0
  rngs : BitVec 32 := 1
  quota : BitVec 48 := 0
  wdog : BitVec 48 := 0
  gmask : BitVec 16 := 0
  gto : BitVec 32 := 0
  cwm : BitVec 16 := 0
  ebcmin : BitVec 4 := 0
  q : FMap (BitVec 128) := []
  b : FMap (BitVec 32) := []
  /-- Energy overrun in microjoules (R342). -/
  debt : BitVec 64 := 0
  /-- Units of the current 10 µs, and the fraction of a microjoule carried, as a quotient (R402). -/
  units : Nat := 0
  carry : Nat × Nat := (0, 1)
  seg : Segment := {}
  /-- Start pointer of WAITANY; not part of the context (R112). -/
  startPtr : BitVec 3 := 0
  /-- The pending list of kind A causes, oldest first, at most 8 (R328). -/
  pend : List (BitVec 8 × Word) := []
  /-- The hint run in progress: kind and payload, oldest first, and the address of its first HINT (R57, R59). -/
  hints : List (BitVec 4 × BitVec 22) := []
  runStart : Word := 0
  /-- Commit-before of the instruction at the pc already made before it was stopped or waits (R113, R114). -/
  committed : Bool := false
  kill : Bool := false
  wdogDue : Bool := false
  stops : List Stop := []
  /-- One-step run of the debugger (R345). -/
  stepping : Bool := false
  /-- PRIO grant (R56, R317). -/
  prio : Bool := false
  /-- PRIO was in the run of the instruction that waits (R113). -/
  prioRun : Bool := false
  /-- Issue cycles for which the slot has been eligible without issue (R317 step 1). -/
  age : Nat := 0
  /-- Arrived at the gang barrier with this instruction, its hints and its scalar operand (R174). -/
  arrived : Option (Instr × List (BitVec 4 × BitVec 22) × Word) := none
  /-- The gang barrier has completed and the instruction performs (R174). -/
  performing : Bool := false
  load : Option PendingLoad := none
  /-- Loads whose wait a trap has interrupted, innermost first: a return to the instruction takes its load up again (R94). -/
  kept : List PendingLoad := []
  /-- The second 4-byte word of a store of 8 bytes to a buffer, not yet performed: tile, space, offset, word (R92). -/
  late : Option (Nat × Nat × Nat × Nat) := none
  /-- Old value of a bank operation or of a migration's outcome that has arrived for the waiting instruction. -/
  reply : Option Word := none
  /-- Progress flag of an instruction that waits: it has been sent, or its access made. -/
  sent : Bool := false
  /-- Instructions issued since the task started (R314). -/
  issued : Nat := 0
  origin : Origin := .nobody
  /-- Work queue charged for the task's issues (R311). -/
  queue : Option Nat := none
  /-- Demanded operating point (R309); none for handlers and migrants. -/
  demand : Option (BitVec 3) := none
  /-- AB and WB leases, in bytes: offset, length (R234); they lie on leaseTile. -/
  leaseTile : Nat := 0
  abLease : Nat × Nat := (0, 0)
  wbLease : Nat × Nat := (0, 0)
  /-- Held empty for the reservation of its stall (R316). -/
  held : Bool := false
  /-- The record that waits to take the slot once the pre-empted task has left it (R314). -/
  next : Option Record := none
  /-- Time at which IDLE began, nanoseconds (R255). -/
  idleAt : Nat := 0
  /-- Nanoseconds counted against GTO since its arrival (R177). -/
  gangFor : Nat := 0
  /-- Cause under which another member of its gang has ended: a failure, or 0x86 (R331). -/
  peerEnd : BitVec 8 := 0
  deriving DecidableEq, Repr

/-- One entry of a send queue, of the network and of a mailbox (R226 to R232). -/
structure Message where
  net : BitVec 1 := 0
  dest : BitVec 11 := 0
  pc : Word := 0
  payload : List Word := []
  sender : BitVec 11 := 0
  cookie : Word := 0
  /-- Barrier attached by the SEND. -/
  barrier : Option (BitVec 3) := none
  /-- Sending task: TASKID, class, ASID, and the slot key it issued from. -/
  task : Word := 0
  pcls : BitVec 3 := 0
  asid : BitVec 16 := 0
  fromSlot : Nat := 0
  /-- A migrant: the context it carries (R232). -/
  migrant : Option Slot := none
  /-- Step at which it was sent (R230). -/
  sentAt : Nat := 0
  deriving DecidableEq, Repr

/-- What waits at the switch of a stall that is mid-swap (R28, R323). -/
inductive HeldBy where
  /-- A typed-buffer access of a slot: the slot, its task and the address of its instruction. -/
  | access (key : Nat) (task pc : Word)
  /-- A message or migrant of the networks: the slot that sent it, and the step. -/
  | message (sender sentAt : Nat)
  /-- A credit of a join cell: a cause, whether a worker ended with it, and the slot that the last worker keeps for the continuation. -/
  | credit (cell : Nat) (cause : BitVec 8) (ends : Bool) (key : Option Nat)
  /-- An access of a copy channel: its tile, and the task, first descriptor and place of the command. -/
  | copy (home : Nat) (task first : Word) (idx : Nat)
  /-- The unfolding unit of a tile: its task, and the slots left. -/
  | unfold (home : Nat) (task : Word) (left : Nat)
  /-- The output of a DEC: the gang's stall, its task, and the block. -/
  | dec (stall : Nat) (task : Word) (block : Nat)
  deriving DecidableEq, Repr

structure Held where
  stall : Nat
  who : HeldBy
  deriving DecidableEq, Repr

/-- A copy command queued on a channel (R240 to R249). -/
structure Command where
  first : Word := 0
  count : Nat := 0
  /-- TASKID of the issuing task; for a COPY node one that no task has, whose credits go to the node (R35). -/
  task : Word := 0
  /-- COPY node that the command belongs to: it has no issuing task (R304). -/
  node : Option (BitVec 16 × Word) := none
  asid : BitVec 16 := 0
  part : BitVec 4 := 0
  barrier : Option (BitVec 3) := none
  mode : BitVec 3 := 0
  gen : BitVec 32 := 1
  /-- Privilege level of the issuing task, and its slot; a COPY node's command has none. -/
  pl : BitVec 2 := 0
  slot : Option Nat := none
  /-- SCHED command of a fork worker: AB and WB offsets of its lease (R304). -/
  leaseRel : Option (Nat × Nat) := none
  /-- Descriptor in progress, whether it has begun, its 64 bytes, and its dimensions: count, source and destination stride. -/
  idx : Nat := 0
  begun : Bool := false
  image : BitVec 512 := 0
  dims : List (Nat × Word × Word) := []
  /-- A descriptor that waits for its step credit, as it was read when the channel reached it: its 64 bytes, and its shape record (R240). -/
  reached : Option (BitVec 512 × Nat) := none
  /-- Bytes that the command has moved since its latest energy unit (R402). -/
  odd : Nat := 0
  /-- Bytes of it moved, the CB element in progress, and its uncommitted global writes. -/
  pos : Nat := 0
  elem : BitVec 32 := 0
  writes : FMap (Option Byte) := []
  /-- A part of it has moved and waits to commit. -/
  moved : Bool := false
  /-- Check group: its first descriptor, the running sum, and SUM of the previous descriptor; by descriptor, how often it has begun and how
  many retries its own mismatch has caused (R245). -/
  groupStart : Nat := 0
  begins : FMap Nat := []
  retries : FMap Nat := []
  sum : BitVec 32 := 0
  prevKind : BitVec 2 := 0
  /-- Non-zero: the command is ending with this status. -/
  status : BitVec 8 := 0
  deriving DecidableEq, Repr

/-- A copy-engine channel (R240, R248). -/
structure Channel where
  cmds : List Command := []
  credits : BitVec 16 := 0
  /-- Watermark source: a slot of the tile, or none for the slot of each command's issuing task (R249). -/
  wm : Option (BitVec 3) := none
  /-- Last sums completed, by issuing slot (CPY.SUM, R249). -/
  sums : FMap (BitVec 32) := []
  deriving DecidableEq, Repr

/-- An accumulator entry of CB, 108 bits (R129 Table 6). -/
structure CbEntry where
  w : BitVec 80 := 0
  n : BitVec 24 := 0
  c : BitVec 4 := 0
  deriving DecidableEq, Repr

/-- The block record of 16 CB rows (R129 Table 7). -/
structure CbBlock where
  e : BitVec 10 := 0x200
  ebc : BitVec 4 := 8
  satcnt : BitVec 16 := 0
  fzcnt : BitVec 16 := 0
  deriving DecidableEq, Repr

/-- A command of a tile's unfolding unit (R199 to R201). -/
structure Unfold where
  /-- Slot whose handles it advances, and the handles. -/
  slot : BitVec 3 := 0
  task : Word := 0
  qa : BitVec 3 := 0
  qc : BitVec 3 := 0
  /-- Slots still to produce. -/
  left : Nat := 0
  /-- AB offset of the descriptor. -/
  desc : Nat := 0
  adv : Bool := false
  /-- The handles qa and qc once the task has ended, which the unit then advances by itself (R201, R331). -/
  rings : Option (BitVec 128 × BitVec 128) := none
  deriving DecidableEq, Repr

/-- The buffers, rings, queues and engines of one logical tile; they travel with the stall image (R322), and the mailbox and
MQCAP stay with the logical tile (R40). -/
structure Tile where
  ab : FMap Byte := []
  wb : FMap Byte := []
  /-- Accumulator entries: column * 4096 + row. -/
  cb : FMap CbEntry := []
  blk : FMap CbBlock := []
  /-- Typed-buffer words marked by an uncorrectable error: space * 2^18 + byte address of the word, with the bytes of it that have not been
  written since (R346). -/
  marked : FMap (BitVec 4) := []
  sendReq : List Message := []
  sendRpy : List Message := []
  mailbox : List Message := []
  mqcap : BitVec 16 := 1024
  runq : List Record := []
  chans : FMap Channel := []
  unfold : Option Unfold := none
  /-- Leases held on the tile: owner TASKID, offset, length (R234). -/
  abLeases : List (Word × Nat × Nat) := []
  wbLeases : List (Word × Nat × Nat) := []
  /-- Issue pointer of R317. -/
  ptr : BitVec 3 := 0
  deriving DecidableEq, Repr

/-- One phase bank (R192): a phase image of 16,448 bytes by offset, and its valid bit. -/
structure Bank where
  valid : Bool := false
  bytes : FMap Byte := []
  deriving DecidableEq, Repr

/-- What a logical stall holds beside its slots and tiles (R322 Table 3). -/
structure LStall where
  active : Bank := {}
  shadow : Bank := {}
  /-- Gang reservation (R316). -/
  reserved : Option Record := none
  /-- Marked dead in the tile map (R348). -/
  dead : Bool := false
  deriving DecidableEq, Repr

/-- A physical stall: its OMU, sensors, near-memory column and counters. -/
structure PStall where
  omustat : Word := 0
  /-- Phase settings still settling (R185, R194, R356). -/
  settling : Bool := false
  temp : BitVec 8 := 0
  /-- Bank sensors: layer * 16 + bank (R289). -/
  bankTemp : FMap (BitVec 8) := []
  hot : Bool := false
  /-- The logic-die sensor marked it hot (R403). -/
  hotLogic : Bool := false
  retired : Bool := false
  omuRetired : Bool := false
  /-- Dropped-prefetch counter and correctable-error count (R405). -/
  pfDrops : BitVec 32 := 0
  ceCount : Word := 0
  /-- Refresh debt of each bank (R291). -/
  debt : FMap Nat := []
  /-- The next pilot is the first of the OMU's grid from this TIME on (R357). -/
  pilotFrom : Nat := 0
  /-- TIME of the latest cause 0x63 on this OMU (R347). -/
  lastDrift : Option Nat := none
  deriving DecidableEq, Repr

/-- A join cell (R234, R235). -/
structure Cell where
  /-- TASKID of the task that forked, or 0 for a FORK node; it has ended, so that no JOIN reads the status (R235). -/
  creator : Word := 0
  orphan : Bool := false
  node : Option (BitVec 16 × Word) := none
  total : Nat := 0
  ended : Nat := 0
  failed : Nat := 0
  killed : Nat := 0
  cause : BitVec 8 := 0
  cont : Word := 0
  carg : Word := 0
  barrier : Option (BitVec 3) := none
  asid : BitVec 16 := 0
  part : BitVec 4 := 0
  pcls : BitVec 3 := 0
  queue : Option Nat := none
  demand : Option (BitVec 3) := none
  /-- Tile whose run queue takes a continuation with no slot (R235); it is complete and waits for room there (R315). -/
  tile : Nat := 0
  due : Bool := false
  deriving DecidableEq, Repr

/-- An arcade: its tile map and rotation controller (R320, R321, R323). -/
structure Arcade where
  /-- Physical stall (0 to 7) that holds the image of each logical stall. -/
  map : List Nat := [0, 1, 2, 3, 4, 5, 6, 7]
  rotivl : BitVec 14 := 400
  /-- TIME of the tick that is due; none for the first after reset (R321). -/
  due : Option Nat := none
  /-- Swap in progress: logical stalls of H and C, TIME of its tick. -/
  swap : Option (Nat × Nat × Nat) := none
  deriving DecidableEq, Repr

/-- A page exchange of a quadrant's swap engine (R286, R287): the frames of both pages. -/
structure Exchange where
  a : Nat
  b : Nat
  /-- Leaf entries that name either frame, by address, as they were at the start. -/
  leaves : List (Nat × Nat) := []
  deriving DecidableEq, Repr

/-- Where a droop alarm has put the tiles of a quadrant (R398, R318). -/
inductive Droop where
  | normal
  | stretch
  | throttle
  deriving DecidableEq, Repr

/-- A quadrant: operating point, droop, budget and swap engine. -/
structure Quad where
  drth : BitVec 8 := 0x19
  /-- Writes of DRTH, newest first, each with the TIME from which it governs comparisons; older ones that govern no more go (R398). -/
  drths : List (Nat × BitVec 8) := []
  point : BitVec 3 := 0
  droop : Droop := .normal
  alarms : Nat := 0
  firstAlarm : Nat := 0
  /-- A thermal emergency stands; steps by which it, the quadrant budget and the module budget hold the point down (R397). -/
  thermal : Bool := false
  thermalSteps : Nat := 0
  budgetSteps : Nat := 0
  moduleSteps : Nat := 0
  /-- Over budget; TIME since which, or of the latest reduction (R397, R400). -/
  overBudget : Bool := false
  overAt : Nat := 0
  /-- Latest power samples, newest first, at most 10 (R400), and successive samples with the mean below 0.95 QB. -/
  watts : List Nat := []
  calm : Nat := 0
  exch : Option Exchange := none
  scan : Nat := 0
  /-- TIME of the latest raise after each of the three conditions, or of the end of the condition (R397). -/
  thermalAt : Nat := 0
  budgetAt : Nat := 0
  moduleAt : Nat := 0
  deriving DecidableEq, Repr

/-- A switched-out task: where its area lies, and what stays in the caches and engines for it (R259, R336). -/
structure Saved where
  /-- Physical address of the save area. -/
  area : Nat
  /-- Area of the gang extension, for member 0 (R338). -/
  ext : Option Nat := none
  /-- The slot it left, with the segment, origin and demand that its area does not hold. -/
  ctx : Slot
  home : BitVec 11
  /-- Its record is in its tile's run queue. -/
  queued : Bool := false
  deriving DecidableEq, Repr

/-- A partition: its record and its run-time registers. -/
structure Part where
  cfg : PartRec
  wmtb : Word := 0
  peqHead : BitVec 32 := 0
  peqTail : BitVec 32 := 0
  peqDrop : BitVec 32 := 0
  dbgctl : Word := 0
  /-- DBGSTAT: BUSY, REJECTED, OP (R407); a request accepted that has not yet taken effect: its OP and task (R408). -/
  dbgWait : Option (BitVec 4 × Word) := none
  dbgBusy : Bool := false
  dbgRejected : Bool := false
  dbgOp : BitVec 4 := 0
  /-- Serial of the next TASKID (R38). -/
  serial : Nat := 1
  /-- Records waiting at the dispenser, in arrival order (R310). -/
  waiting : List Record := []
  /-- Queue pointer of each class (R311). -/
  ptr : FMap Nat := []
  /-- Power event records formed while a checkpoint holds committed writes (R403, R417). -/
  peqWait : List (BitVec 128) := []
  saved : List Saved := []
  deriving DecidableEq, Repr

/-- A work queue (R301, R409). -/
structure Queue where
  qbase : Word := 0
  tail : BitVec 32 := 0
  head : BitVec 32 := 0
  cfg : Word := 0
  cbase : Word := 0
  ctail : BitVec 32 := 0
  chead : BitVec 32 := 0
  qerr : Word := 0
  /-- Deficit counter (R311). -/
  deficit : Int := 0
  /-- Demanded point of the tasks that SPAWN posted, plus 8, by ring index (R309). -/
  demands : FMap Nat := []
  /-- Completion records waiting for room, oldest first: of a graph node or a task, identity, status (R412). -/
  comps : List (Bool × Word × Word) := []
  deriving DecidableEq, Repr

/-- How far a graph node has come (R306). -/
inductive NodeState where
  | fetching
  | waiting
  | ready
  | running
  | done
  deriving DecidableEq, Repr

/-- A graph node in flight (R302 to R308). -/
structure Node where
  asid : BitVec 16 := 0
  va : Word := 0
  part : BitVec 4 := 0
  queue : Nat := 0
  /-- Its graph, by the step of its submission; whether it is the root; the GRAPH node that submitted the graph: graph, address. -/
  gid : Nat := 0
  top : Bool := false
  parent : Option (Nat × Word) := none
  state : NodeState := .fetching
  /-- The counter of R306; below 0 while predecessors have completed before the node is fetched. -/
  deps : Int := 0
  /-- The 64 bytes fetched, as a number, and the successor list. -/
  image : BitVec 512 := 0
  succs : List Word := []
  /-- The graph that a GRAPH node has submitted. -/
  sub : Nat := 0
  point : BitVec 3 := 0
  /-- ES, EF and LF of R308, in 1/2,016,000 ns. -/
  es : Nat := 0
  ef : Nat := 0
  lf : Nat := 0
  /-- Status: killed, failed, P, first cause. -/
  killed : Nat := 0
  failed : Nat := 0
  total : Nat := 1
  cause : BitVec 8 := 0
  /-- Failed before it ran (R305); found on a cycle of successor links while it ran. -/
  bad : Bool := false
  looped : Bool := false
  /-- Place in the order of readiness (R306), and TIME then. -/
  readyAt : Nat := 0
  since : Nat := 0
  deriving DecidableEq, Repr

/-- An operation queued at a bank operation unit (R101 to R104, R293). -/
structure BankOp where
  /-- RED 0 to 7, CAS 8, SAC 9. -/
  op : Nat := 0
  size : Nat := 4
  va : Word := 0
  pa : Nat := 0
  b : Word := 0
  expect : Word := 0
  task : Word := 0
  slot : Nat := 0
  asid : BitVec 16 := 0
  part : BitVec 4 := 0
  /-- The slot waits for the old value. -/
  wants : Bool := false
  deriving DecidableEq, Repr

/-- A committed line not yet written back to its memory (R268, R271). -/
structure Dirty where
  /-- Physical stall whose cache holds it. -/
  holder : Nat := 0
  /-- What memory still holds, little-endian. -/
  stale : BitVec 256 := 0
  /-- Count of commits when the line became dirty. -/
  first : Nat := 0
  /-- The commits that wrote it since then, newest first: cache that held the version, count of commits, task (R110, R268). -/
  wrote : List (Nat × Nat × Word) := []
  deriving DecidableEq, Repr

/-- A line of an L1 (R279): the granule of its tag, the permission bits copied at its fill (R278), and its place in replacement (R282). -/
structure L1Line where
  part : Nat := 0
  asid : Nat := 0
  granule : Nat := 0
  leaf : Nat := 0
  /-- Next victim of its set; protected from replacement. -/
  next : Bool := false
  keep : Bool := false
  deriving DecidableEq, Repr

/-- A run of sequential misses of a stall cache (R283): whose, at which privilege level, its latest superblock (virtual address / 128), and how
many it has. -/
structure MissRun where
  part : Nat := 0
  asid : Nat := 0
  pl : Nat := 0
  block : Nat := 0
  length : Nat := 1
  deriving DecidableEq, Repr

/-- A superblock of committed lines in a stall cache (R280): its tag, 4 aligned granules, and for each valid line the permission bits copied
at its fill, plus 1. Its dirty lines are those of State.dirty. -/
structure Super where
  part : Nat := 0
  asid : Nat := 0
  /-- Virtual address / 128. -/
  block : Nat := 0
  lines : FMap Nat := []
  next : Bool := false
  keep : Bool := false
  deriving DecidableEq, Repr

/-- A window store handed to the window unit and not yet applied or failed (R371, R375, R376). -/
structure WStore where
  task : Word := 0
  flit : Flit
  /-- Transmit address of its first masked byte. -/
  va : Word := 0
  /-- HOME from which its task stored. -/
  home : Nat := 0
  /-- It is its segment's last on the path: a sealed group closes with it (R381). -/
  last : Bool := false
  /-- It has its ESEQ and has left; the TIME at which it did (R376). -/
  sent : Bool := false
  sentAt : Nat := 0
  deriving DecidableEq, Repr

/-- The sending side of a path (R270, R364, R373, R374). -/
structure TxPath where
  dst : BitVec 18
  cls : BitVec 3
  /-- Next ESEQ. -/
  next : Nat := 0
  stores : List WStore := []
  /-- KEYX exchanged; values drawn here and received. -/
  ready : Bool := false
  mine : Option (BitVec 64) := none
  peer : Option (BitVec 64) := none
  /-- First ESEQ and count of the open sealed group (R381). -/
  group : Nat × Nat := (0, 0)
  /-- Its up port, and the one whose route failed last (R364, R376). -/
  port : Option Nat := none
  avoid : Option Nat := none
  deriving DecidableEq, Repr

/-- The receiving side of a path (R372, R373, R381, R391). -/
structure RxPath where
  src : BitVec 18
  cls : BitVec 3
  /-- Next ESEQ to apply; the ESEQ below which a missing flit is abandoned; and one more than the highest applied (R373, R375). -/
  next : Nat := 0
  floor : Nat := 0
  done : Nat := 0
  held : List Flit := []
  /-- Groups whose tag has verified: first ESEQ, count. -/
  groups : List (Nat × Nat) := []
  /-- Tags that have come before all flits of their groups, and groups whose tags failed: first ESEQ, count. -/
  tags : List TagFlit := []
  failed : List (Nat × Nat) := []
  /-- The values exchanged by KEYX: the sender's, and the one drawn here. -/
  salt : BitVec 64 × BitVec 64 := (0, 0)
  deriving DecidableEq, Repr

/-- One lane of a bundle (R384 to R388). -/
structure Lane where
  weight : BitVec 4 := 8
  retraining : Bool := false
  retired : Bool := false
  dark : Bool := false
  /-- TIME of its latest CRC errors, newest first (R385). -/
  errs : List Nat := []
  deriving DecidableEq, Repr

/-- A flit in a replay store: its SEQ, and the lane that carried it last (R379, R384). -/
structure HopSent where
  seq : BitVec 16
  item : HopItem
  lane : Option Nat := none
  deriving DecidableEq, Repr

/-- One channel of a hop: sequence numbers, replay store, and what the receiver waits for (R379). -/
structure HopChan where
  next : BitVec 16 := 0
  replay : List HopSent := []
  /-- What waits for room in the replay store. -/
  queue : List HopItem := []
  rxNext : BitVec 16 := 0
  /-- Flits that came ahead of their turn over other lanes (R384). -/
  early : List HopItem := []
  nakWait : Bool := false
  /-- Flits received and not yet acknowledged. -/
  unacked : Nat := 0
  deriving DecidableEq, Repr

/-- One of the 16 bundles of the root switch. -/
structure Bundle where
  lanes : FMap Lane := []
  chans : FMap HopChan := []
  down : Bool := false
  deriving DecidableEq, Repr

/-- REFL record of a task: stores outstanding, stores failed, first cause (R115, R375). -/
structure ReflRec where
  outstanding : Nat := 0
  failed : Nat := 0
  cause : BitVec 8 := 0
  deriving DecidableEq, Repr

/-- Placement record of a frame (R285). -/
structure Place where
  count : BitVec 12 := 0
  own : BitVec 7 := 0
  run : BitVec 4 := 0
  deriving DecidableEq, Repr

/-- MSI-X state of a port (R413). -/
structure Msix where
  enabled : Bool := true
  masked : Bool := false
  entryMasked : FMap Bool := []
  pending : FMap Bool := []
  deriving DecidableEq, Repr

/-- Device-wide registers: the device block (R406), the light sources (R360), the checkpoint (R417), CXL (R418). -/
structure Device where
  devno : BitVec 18 := 0
  stepping : BitVec 8 := 0
  /-- The configuration record in use, and the highest version accepted (R414). -/
  version : Nat := 0
  nearLow : BitVec 4 := 0
  cxlPort1 : Bool := false
  qb : List Nat := [110, 110, 110, 110]
  /-- The controller holds the module in reset (R414). -/
  held : Bool := false
  ckBase : Nat := 0x0200_0000_0000
  /-- Other reserved frames of the configuration record: first frame and count (R272, R414). -/
  reserved : List (Nat × Nat) := []
  /-- Receive directory entries whose SENDER has been set since their STAT was last cleared, by address (R368). -/
  senders : FMap Bool := []
  ckBusy : Bool := false
  ckIgnored : Bool := false
  ckValid : Bool := false
  ckMicros : BitVec 32 := 0
  mcqBase : Word := 0
  mcqLen : Word := 0
  mcqHead : BitVec 32 := 0
  mcqTail : BitVec 32 := 0
  mcqDrop : BitVec 32 := 0
  /-- Machine-check records formed while a checkpoint holds committed writes (R349, R417). -/
  mcqWait : List (BitVec 256) := []
  /-- Host ports whose link is down: both until a boot reaches step 6, then those that failed to train (R404, R416). -/
  portDown : BitVec 2 := 3
  cxlIn : Bool := false
  cxlLink : Bool := false
  cxlGone : Bool := false
  /-- Source in use, and which sources are lost (R360). -/
  source : BitVec 1 := 0
  lost0 : Bool := false
  lost1 : Bool := false
  /-- Module power samples, newest first, at most 10 (R401). -/
  watts : List Nat := []
  moduleOver : Bool := false
  /-- TIME of the latest reduction for the module budget (R401). -/
  moduleAt : Nat := 0
  /-- TIME of the latest placement halving (R285). -/
  halved : Nat := 0
  /-- What the controller reported on the management bus, newest first (R404, R414, R418). -/
  reports : List Nat := []
  /-- Interrupt vectors sent, newest first: port, vector (R413). -/
  irqs : List (Nat × Nat) := []
  /-- Control flits sent, newest first, and the CID of the next (R383). -/
  ctl : List CtlFlit := []
  cid : BitVec 32 := 0
  /-- Control flits acted on in the last 1 ms: SRC, CID, TIME (R383). -/
  heard : List (BitVec 18 × BitVec 32 × Nat) := []
  /-- Errors of units within the last second: unit, number, TIME (R347). -/
  errs : List (UnitKind × Nat × Nat) := []
  /-- Self-tests started and not complete: unit, number, cause, address. -/
  tests : List (UnitKind × Nat × BitVec 8 × Nat) := []
  /-- Correctable errors by address: TIME (R347). -/
  lastCe : List (Storage × BitVec 32 × Nat) := []
  /-- Bytes of host writes that wait for an exchange or a checkpoint, oldest first: physical address, bytes of one granule (R287, R417). -/
  hostWaits : List (Nat × List Byte) := []
  /-- Values that hosts have read, newest first (R271, R404). -/
  reads : List (List Byte) := []
  deriving DecidableEq, Repr

/-- The whole machine. -/
structure State where
  /-- The model's own: steps made, the events that act next, and the slot whose instruction issues next (notes/assumptions/1.md). -/
  steps : Nat
  agenda : List Instr
  cur : Nat
  /-- The model's own: where a long instruction of this step meets a stop point, as a number of its units (notes/assumptions/60.md). -/
  cut : Option Nat
  time : Word
  /-- CYCLE of each physical tile. -/
  cycles : FMap Word
  /-- Latest committed contents of physical memory (R272). -/
  mem : List Host.Cell
  /-- Slots: HOME of the tile * 8 + slot number. -/
  slots : FMap Slot
  /-- Logical tiles, by HOME. -/
  tiles : FMap Tile
  lstalls : FMap LStall
  pstalls : FMap PStall
  /-- Join cells: logical stall * 64 + i in the stall switches, 8192 + arcade * 64 + i in the arcade switches. -/
  cells : FMap (Option Cell)
  arcades : FMap Arcade
  quads : FMap Quad
  parts : List Part
  queues : FMap Queue
  nodes : List Node
  net : List Message
  refusals : List Message
  /-- What waits at the switches of stalls that are mid-swap, in order of arrival (R323). -/
  held : List Held
  /-- Bank operation queues by unit. -/
  bankops : FMap (List BankOp)
  /-- Dirty lines by granule, the releases of each granule (cache, count of commits), and the count of commits. -/
  dirty : FMap (Option Dirty)
  releases : FMap (List (Nat × Nat))
  commits : Nat
  /-- L1 sets: physical tile * 1024 + set; stall-cache sets: physical stall * 2048 + set (R279, R280). -/
  l1 : FMap (List L1Line)
  caches : FMap (List Super)
  /-- Lines of versions that lie in a version overflow area: task, HOME, granule (R280). -/
  overflow : List (Word × Nat × Nat)
  /-- The latest runs of misses of each physical stall's cache, newest first (R283). -/
  misses : FMap (List MissRun)
  /-- Poisoned granules, lost units (banks, channels) and placement records. -/
  poison : FMap Bool
  lost : FMap Bool
  place : FMap Place
  /-- The reverse map: mappings that walks have loaded, by frame (R275): partition, ASID, virtual page, level-2 entry's address. -/
  rmap : FMap (List (Nat × Nat × Nat × Nat))
  /-- Frames that walks have read as tables: table frame (R274): the mappings that went through it are found by walking again. -/
  tables : FMap Bool
  tx : List TxPath
  rx : List RxPath
  bundles : FMap Bundle
  gone : FMap Bool
  refl : FMap ReflRec
  /-- Where late credits of ended tasks go, by TASKID, until their status is delivered (R331). -/
  ended : FMap Origin
  msix : FMap Msix
  dev : Device
  deriving DecidableEq, Repr

/-- Partition record of partition `p` before any configuration record is accepted; partition 0 holds every arcade
(notes/assumptions/3.md). -/
def PartRec.initial (p : Nat) : PartRec :=
  { arcades := if p = 0 then 0xFFFF else 0, pmax := 5, prewait := 200000, sqd := 8, quota0 := 0xFFFFFFFFFFFF, wdog0 := 0,
    gto0 := 0, tvec0 := 0, ebcmin0 := 0, asidt := 0, sapool := 0, salen := 0, rxbase := 0, rxlen := 0, rxdir := 0,
    sealmask := 0, keys := [], peqbase := 0, peqlen := 256, mbox := 0, port := 0, dbgen := false }

/-- Partition `p` right after reset. -/
def Part.initial (p : Nat) : Part := { cfg := PartRec.initial p }

/-- The machine right after reset. -/
def State.reset : State :=
  { steps := 0, agenda := [], cur := 0, cut := none, time := 0, cycles := [], mem := [], slots := [], tiles := [], lstalls := [],
    pstalls := [], cells := [], arcades := [], quads := [], parts := (List.range 16).map Part.initial, queues := [],
    nodes := [], net := [], refusals := [], held := [], bankops := [], dirty := [], releases := [], commits := 0, l1 := [],
    caches := [], overflow := [], misses := [], poison := [],
    lost := [], place := [], rmap := [], tables := [], tx := [], rx := [], bundles := [], gone := [], refl := [], ended := [],
    msix := [], dev := {} }

end Sys2Proof.Machine
end

