-- ==== Sys2Proof/Machine/Regs.lean ====
section
/-! DEFINITION. Reading and writing the parts of the state: the records of each scope, the registers of a slot (R13 to R25), and
the fields of STATUS and FLAGS (R31, R32). Every other file goes through these. -/

namespace Sys2Proof.Machine

/-- The `len` bits of a word from bit `lo`, as a number. -/
def field (x : Word) (lo len : Nat) : Nat := x.toNat / 2 ^ lo % 2 ^ len

/-- A word with the `len` bits from bit `lo` replaced. -/
def putField (x : Word) (lo len v : Nat) : Word :=
  BitVec.ofNat 64 (x.toNat % 2 ^ lo + v % 2 ^ len * 2 ^ lo + x.toNat / 2 ^ (lo + len) * 2 ^ (lo + len))

/-- Bit `i` of a word. -/
def wbit (x : Word) (i : Nat) : Bool := x.getLsbD i

/-! Records of each scope. -/

def State.slot (s : State) (key : Nat) : Slot := fget {} s.slots key
def State.setSlot (s : State) (key : Nat) (sl : Slot) : State := { s with slots := fset {} key sl s.slots }
def State.modSlot (s : State) (key : Nat) (f : Slot → Slot) : State := s.setSlot key (f (s.slot key))

/-- The slot whose instruction is performed. -/
def State.me (s : State) : Slot := s.slot s.cur
def State.setMe (s : State) (sl : Slot) : State := s.setSlot s.cur sl
def State.modMe (s : State) (f : Slot → Slot) : State := s.modSlot s.cur f

def State.tile (s : State) (home : Nat) : Tile := fget {} s.tiles home
def State.setTile (s : State) (home : Nat) (t : Tile) : State := { s with tiles := fset {} home t s.tiles }
def State.modTile (s : State) (home : Nat) (f : Tile → Tile) : State := s.setTile home (f (s.tile home))

def State.lstall (s : State) (k : Nat) : LStall := fget {} s.lstalls k
def State.modLStall (s : State) (k : Nat) (f : LStall → LStall) : State :=
  { s with lstalls := fset {} k (f (s.lstall k)) s.lstalls }

def State.pstall (s : State) (k : Nat) : PStall := fget {} s.pstalls k
def State.modPStall (s : State) (k : Nat) (f : PStall → PStall) : State :=
  { s with pstalls := fset {} k (f (s.pstall k)) s.pstalls }

def State.arcade (s : State) (k : Nat) : Arcade := fget {} s.arcades k
def State.modArcade (s : State) (k : Nat) (f : Arcade → Arcade) : State :=
  { s with arcades := fset {} k (f (s.arcade k)) s.arcades }

def State.quad (s : State) (k : Nat) : Quad := fget {} s.quads k
def State.modQuad (s : State) (k : Nat) (f : Quad → Quad) : State := { s with quads := fset {} k (f (s.quad k)) s.quads }

def State.part (s : State) (p : Nat) : Part := s.parts.getD p { cfg := PartRec.initial p }
def State.modPart (s : State) (p : Nat) (f : Part → Part) : State := { s with parts := s.parts.modify p f }

def State.queue (s : State) (q : Nat) : Queue := fget {} s.queues q
def State.modQueue (s : State) (q : Nat) (f : Queue → Queue) : State := { s with queues := fset {} q (f (s.queue q)) s.queues }

def State.cell (s : State) (k : Nat) : Option Cell := fget none s.cells k
def State.setCell (s : State) (k : Nat) (c : Option Cell) : State := { s with cells := fset none k c s.cells }

def State.modDev (s : State) (f : Device → Device) : State := { s with dev := f s.dev }

/-- TIME as a number of nanoseconds. -/
def State.now (s : State) : Nat := s.time.toNat

/-! Scalar, vector and mask registers (R13, R15, R22). -/

/-- g0 reads 0 (R13). -/
def Slot.gr (sl : Slot) (r : BitVec 4) : Word := if r = 0 then 0 else fget 0 sl.g r.toNat

/-- A write to g0 is discarded (R13). -/
def Slot.gw (sl : Slot) (r : BitVec 4) (v : Word) : Slot :=
  if r = 0 then sl else { sl with g := fset 0 r.toNat v sl.g }

def Slot.vr (sl : Slot) (sel : Nat) : VReg := fget {} sl.v sel
def Slot.vw (sl : Slot) (sel : Nat) (x : VReg) : Slot := { sl with v := fset {} sel x sl.v }

/-- k0 reads all ones (R22). -/
def Slot.kr (sl : Slot) (k : BitVec 3) : BitVec 32 := if k = 0 then 0xFFFFFFFF else fget 0 sl.k k.toNat

/-- A write to k0 is discarded (R22). -/
def Slot.kw (sl : Slot) (k : BitVec 3) (v : BitVec 32) : Slot :=
  if k = 0 then sl else { sl with k := fset 0 k.toNat v sl.k }

def Slot.qr (sl : Slot) (i : Nat) : BitVec 128 := fget 0 sl.q i
def Slot.qw (sl : Slot) (i : Nat) (h : BitVec 128) : Slot := { sl with q := fset 0 i h sl.q }
def Slot.br (sl : Slot) (i : Nat) : BitVec 32 := fget 0 sl.b i
def Slot.bw (sl : Slot) (i : Nat) (b : BitVec 32) : Slot := { sl with b := fset 0 i b sl.b }

/-- What an undo brings back (R264 Table 2). -/
def Slot.image (sl : Slot) : RegImage := { g := sl.g, v := sl.v, k := sl.k, flags := sl.flags, rngs := sl.rngs }

/-! STATUS (R31 Table 6). -/

def Slot.pl (sl : Slot) : Nat := field sl.status 0 2
def Slot.rm (sl : Slot) : BitVec 3 := BitVec.ofNat 3 (field sl.status 2 3)
def Slot.vs (sl : Slot) : Bool := wbit sl.status 5
def Slot.tbw (sl : Slot) : Bool := wbit sl.status 6
def Slot.gang (sl : Slot) : Bool := wbit sl.status 7
def Slot.msg (sl : Slot) : Bool := wbit sl.status 8
def Slot.mig (sl : Slot) : Bool := wbit sl.status 9
def Slot.edl (sl : Slot) : Bool := wbit sl.status 16
def Slot.ewf (sl : Slot) : Bool := wbit sl.status 17
def Slot.pcls (sl : Slot) : BitVec 3 := BitVec.ofNat 3 (field sl.status 24 3)
def Slot.part (sl : Slot) : Nat := field sl.status 32 4

def Slot.setStatus (sl : Slot) (lo len v : Nat) : Slot := { sl with status := putField sl.status lo len v }
def Slot.setVs (sl : Slot) : Slot := sl.setStatus 5 1 1
def Slot.setTbw (sl : Slot) : Slot := sl.setStatus 6 1 1
def Slot.clearTbw (sl : Slot) : Slot := sl.setStatus 6 1 0

/-- STATUS of a new task: reset values, with class, partition and the GANG, MSG and MIG bits (R12, R31). -/
def statusOf (part pcls : Nat) (gang msg mig : Bool) : Word :=
  BitVec.ofNat 64 (gang.toNat * 2 ^ 7 + msg.toNat * 2 ^ 8 + mig.toNat * 2 ^ 9 + pcls % 8 * 2 ^ 24 + part % 16 * 2 ^ 32)

/-- Bits of STATUS (R31), of FLAGS (R32), of a barrier (R25) and of a ring handle (R23) that are not reserved: the others read as zero (R8). -/
def statusMask : Word := 0x0000000F070303FF#64
def flagsMask : Word := 0x000000FF01FF007F#64
def barMask : BitVec 32 := 0x01FFFFFF#32
def ringMask : BitVec 128 := 0xFF03FFFFFFFFFFFFFFFFFFFFF0000001#128

/-! FLAGS (R32 Table 8). -/

/-- Sticky flags by bit: NV 0, DZ 1, OF 2, UF 3, NX 4, SA 5, FZ 6. -/
abbrev FlagSet := BitVec 7

def fNV : FlagSet := 0x01#7
def fDZ : FlagSet := 0x02#7
def fOF : FlagSet := 0x04#7
def fUF : FlagSet := 0x08#7
def fNX : FlagSet := 0x10#7
def fSA : FlagSet := 0x20#7
def fFZ : FlagSet := 0x40#7

/-- An instruction ORs its flags into FLAGS (R33). -/
def Slot.orFlags (sl : Slot) (f : FlagSet) : Slot := { sl with flags := sl.flags ||| f.setWidth 64 }

/-- An asynchronous error credited without a trap: ACAUSE, AV, and ACNT saturating at 0xFF (R34). -/
def creditFlags (flags : Word) (cause : BitVec 8) : Word :=
  putField (putField (putField flags 16 8 cause.toNat) 24 1 1) 32 8 (Nat.min (field flags 32 8 + 1) 0xFF)

def Slot.credit (sl : Slot) (cause : BitVec 8) : Slot := { sl with flags := creditFlags sl.flags cause }

/-! Places (R29, R30, R320). -/

/-- HOME of the tile of a slot key. -/
def homeOf (key : Nat) : Nat := key / 8

/-- Logical stall (0 to 127) of a HOME. -/
def stallOf (home : Nat) : Nat := home / 16

/-- Arcade of a HOME. -/
def arcadeOf (home : Nat) : Nat := home / 128

/-- Physical stall (0 to 127) that holds a logical stall's image, through the arcade's tile map (R320). -/
def State.physStall (s : State) (ls : Nat) : Nat := ls / 8 * 8 + (s.arcade (ls / 8)).map.getD (ls % 8) (ls % 8)

/-- TILE of a HOME: the physical stall in bits [6:4] (R30). -/
def State.physTile (s : State) (home : Nat) : Nat := s.physStall (stallOf home) * 16 + home % 16

/-- Logical stall whose image a physical stall holds. -/
def State.logStall (s : State) (ps : Nat) : Nat :=
  (List.range 8).foldl (fun r l => if s.physStall (ps / 8 * 8 + l) = ps then ps / 8 * 8 + l else r) ps

/-- Quadrant (0 to 3) of an arcade: four arcades each (R2). -/
def quadOfArcade (a : Nat) : Nat := a / 4

/-- The slots of a tile, as keys. -/
def slotsOfTile (home : Nat) : List Nat := (List.range 8).map (fun i => home * 8 + i)

/-- The slots of a logical stall, as keys. -/
def slotsOfStall (ls : Nat) : List Nat := (List.range 128).map (fun i => ls * 128 + i)

/-- Arcade `a` belongs to partition `p` (R300). -/
def State.ownsArcade (s : State) (p a : Nat) : Bool := (s.part p).cfg.arcades.getLsbD a

/-- Partition of an arcade. -/
def State.partOfArcade (s : State) (a : Nat) : Nat :=
  (List.range 16).foldr (fun p r => if s.ownsArcade p a then p else r) 0

/-- A tile of a physical stall is under self-test: the stall is stopped as for a swap (R347). -/
def State.tileTest (s : State) (ps : Nat) : Bool := s.dev.tests.any (fun t => t.1 == .tile && t.2.1 / 16 == ps)

/-- A stall is between Hold and Release of a swap (R323), or stopped for a self-test. -/
def State.midSwap (s : State) (ls : Nat) : Bool :=
  (match (s.arcade (ls / 8)).swap with
   | none => false
   | some (h, c, _) => h == ls || c == ls) || s.tileTest (s.physStall ls)

/-- A legal target (R80): below 2^52 and word aligned. -/
def legalTarget (t : Nat) : Bool := decide (t < 2 ^ 52) && t % 4 == 0

/-- An instruction's own address, or the first HINT of its run (R59). -/
def Slot.unitStart (sl : Slot) : Word := if sl.hints.isEmpty then sl.pc else sl.runStart

/-- The slot holds a task (R10). -/
def Slot.occupied (sl : Slot) : Bool := sl.phase != .free

/-- The slot is free, and neither held for a gang reservation (R316) nor left to a record that has pre-empted its task (R314). -/
def Slot.isFree (sl : Slot) : Bool := sl.phase == .free && !sl.held && sl.next.isNone

/-- What a slot is once its task has left it. -/
def Slot.vacated (sl : Slot) : Slot := { next := sl.next }

end Sys2Proof.Machine
end

