-- ==== Sys2Proof/Machine/Memory.lean ====
section
/-! DEFINITION. Global memory: physical storage and its byte order (R5, R272), translation (R273 to R276), the checks of a global
access (R87), the segment's version and access set (R257, R258, R262), and doom (R261). The memory holds the latest committed
bytes; what has not been written back to it yet stands in State.dirty (R268). -/

namespace Sys2Proof.Machine

/-! Bytes of physical memory, little-endian. -/

/-- `n` bytes from address `a`, the byte at `a` lowest. -/
def rdN (m : FMap Byte) (a : Nat) : Nat → Nat
  | 0 => 0
  | n + 1 => (fget 0 m a).toNat + 256 * rdN m (a + 1) n

/-- Write the low `n` bytes of `v` from address `a`. -/
def wrN (m : FMap Byte) (a : Nat) : Nat → Nat → FMap Byte
  | 0, _ => m
  | n + 1, v => wrN (fset 0 a (BitVec.ofNat 8 v) m) (a + 1) n (v / 256)

def State.rd (s : State) (pa n : Nat) : Nat := rdN s.mem pa n
def State.rawWrite (s : State) (pa n v : Nat) : State := { s with mem := wrN s.mem pa n v }

/-- Memory is in canonical form. -/
def Memory.wf (m : List Host.Cell) : Bool := fwf (0 : Byte) m

/-! Typed-buffer contents (R26, R92, R346). -/

def Tile.buf (t : Tile) (sp : Nat) : FMap Byte := if sp = 1 then t.ab else t.wb
def Tile.setBuf (t : Tile) (sp : Nat) (m : FMap Byte) : Tile := if sp = 1 then { t with ab := m } else { t with wb := m }

def State.bufRead (s : State) (home sp off n : Nat) : Nat := rdN ((s.tile home).buf sp) off n

/-- Key of the mark of a typed-buffer word (R346). -/
def markKey (sp off : Nat) : Nat := sp * 2 ^ 18 + off / 4 * 4

/-- A word of the range is marked by an uncorrectable error: the address of the lowest. -/
def State.markedIn (s : State) (home sp off n : Nat) : Option Nat :=
  let t := s.tile home
  if t.marked.isEmpty then none
  else ((List.range ((off % 4 + n + 3) / 4)).map (fun i => off / 4 * 4 + 4 * i)).find? (fun o => fget 0 t.marked (markKey sp o) != 0)

/-- Marks after the `n` bytes from `off` have been written: one goes once all 4 bytes of its word are (R346). -/
def clearMarks (sp off n : Nat) (m : FMap (BitVec 4)) : FMap (BitVec 4) :=
  if m.isEmpty then m
  else (List.range n).foldl (fun r i => fmod 0 (markKey sp (off + i)) (fun k => k &&& ~~~(1#4 <<< ((off + i) % 4))) r) m

/-- A typed-buffer write. -/
def State.bufWrite (s : State) (home sp off n v : Nat) : State :=
  s.modTile home (fun t => { t.setBuf sp (wrN (t.buf sp) off n v) with marked := clearMarks sp off n t.marked })

/-- The second word of a store of 8 bytes is performed (R92). -/
def State.landLate (s : State) (key : Nat) : State :=
  match (s.slot key).late with
  | none => s
  | some (h, sp, o, v) => (s.bufWrite h sp o 4 v).modSlot key (fun l => { l with late := none })

/-! The physical address map (R272 Table 1). -/

inductive Storage4 where
  | near
  | hbm
  | lpddr
  | cxl
  | hole
  deriving DecidableEq, Repr

def State.storage (s : State) (pa : Nat) : Storage4 :=
  if pa < 0x0002_0000_0000 then .near
  else if 0x0080_0000_0000 ≤ pa ∧ pa ≤ 0x00F7_3593_FFFF then .hbm
  else if 0x0200_0000_0000 ≤ pa ∧ pa ≤ 0x03FF_FFFF_FFFF then .lpddr
  else if 0x0400_0000_0000 ≤ pa ∧ pa ≤ 0x11FF_FFFF_FFFF ∧ s.dev.cxlPort1 = true ∧ s.dev.portDown.getLsbD 1 = false ∧ pa < 0x0400_0000_0000 + Config.cxlBytes then .cxl
  else .hole

/-- Physical stall above the near-memory bank that holds an address (R272). -/
def nearStall (pa : Nat) : Nat := bits pa 30 24

/-- Bank operation unit of an address (R293): near banks as stall * 64 + layer * 16 + bank, then the HBM4 stacks, LPDDR, CXL. That each HBM4
stack, LPDDR and CXL have one unit each is the model's choice (notes/assumptions/17.md). -/
def State.unitOf (s : State) (pa : Nat) : Nat :=
  match s.storage pa with
  | .near => nearStall pa * 64 + bits pa 32 31 * 16 + bits pa 23 20
  | .hbm => 8192 + bits pa 10 8
  | .lpddr => 8200
  | .cxl => 8201
  | .hole => 8202

/-- The bank, or the HBM4 channel as 8 * channel + stack, that holds the storage of an address (R272, R296, R298). -/
def State.lossUnit (s : State) (pa : Nat) : Nat :=
  match s.storage pa with
  | .hbm => 8192 + 8 * Config.hbmChannel (pa / 256) + bits pa 10 8
  | .near => s.unitOf pa
  | .lpddr | .cxl | .hole => 0x10000

/-- The banks or channels that hold a part of the frame of an address: the HBM4 stacks interleave every 256 bytes (R272). -/
def State.frameUnits (s : State) (pa : Nat) : List Nat :=
  match s.storage pa with
  | .hbm => (List.range 256).map (fun i => s.lossUnit (pa / 0x10000 * 0x10000 + 256 * i))
  | .near | .lpddr | .cxl | .hole => [s.lossUnit pa]

/-- The frame of an address has been lost (R296, R298). -/
def State.isLost (s : State) (pa : Nat) : Bool := !s.lost.isEmpty && (s.frameUnits pa).any (fget false s.lost)

/-- The bank of copy 0 or 1 of a tile's mailbox: two layers of the tile's column (R297; notes/assumptions/39.md). -/
def mailboxBank (home i : Nat) : Nat :=
  let layer := Config.mailboxBank home 0 % 4
  stallOf home * 64 + (if i = 0 then layer else (layer + 1 + Config.mailboxBank home 1 % 3) % 4) * 16 + Config.mailboxBank home (2 + i) % 16

/-- Both copies of a tile's mailbox are lost (R297). -/
def State.mailboxLost (s : State) (home : Nat) : Bool :=
  !s.lost.isEmpty && fget false s.lost (mailboxBank home 0) && fget false s.lost (mailboxBank home 1)

/-- The CXL memory was surprise-removed (R299). -/
def State.deepGone (s : State) (pa : Nat) : Bool := s.storage pa == .cxl && s.dev.cxlGone

/-- Deep memory: LPDDR and CXL (R284). -/
def State.isDeep (s : State) (pa : Nat) : Bool := s.storage pa == .lpddr || s.storage pa == .cxl

/-! Translation (R273). -/

/-- What a walk finds: the physical address, the leaf entry and where it stands. -/
structure Xlat where
  pa : Nat
  leaf : Nat
  at' : Nat
  deriving DecidableEq, Repr

def Xlat.ty (x : Xlat) : Nat := bits x.leaf 15 14
def Xlat.priv (x : Xlat) : Bool := bit x.leaf 4
def Xlat.pvt (x : Xlat) : Bool := bit x.leaf 5
def Xlat.ex (x : Xlat) : Bool := bit x.leaf 3
def Xlat.wr (x : Xlat) : Bool := bit x.leaf 2
def Xlat.rdok (x : Xlat) : Bool := bit x.leaf 1

/-- A pointer entry of level 0 or 1: valid, bits [63:48] and [14:1] zero; it names the next table. -/
def pointer (e : Nat) : Option Nat :=
  if bit e 0 && bits e 63 48 == 0 && bits e 14 1 == 0 then some (bits e 47 15 * 0x8000) else none

/-- The walk of R273; the error is the cause: 0x21 unmapped, 0x2D a lost page or table. -/
def State.walk (s : State) (part asid va : Nat) : Except (BitVec 8) Xlat :=
  let e := s.rd ((s.part part).cfg.asidt.toNat + 8 * asid) 8
  if va ≥ 2 ^ 52 then .error 0x21
  else if s.isLost ((s.part part).cfg.asidt.toNat + 8 * asid) then .error 0x2D
  else if !(bit e 0) then .error 0x21
  else
    let t0 := bits e 47 15 * 0x8000
    if s.isLost t0 then .error 0x2D
    else match pointer (s.rd (t0 + 8 * bits va 51 40) 8) with
    | none => .error 0x21
    | some t1 =>
      if s.isLost t1 then .error 0x2D
      else match pointer (s.rd (t1 + 8 * bits va 39 28) 8) with
      | none => .error 0x21
      | some t2 =>
        let at' := t2 + 8 * bits va 27 16
        let leaf := s.rd at' 8
        let pa := bits leaf 47 16 * 0x10000 + va % 0x10000
        if s.isLost t2 then .error 0x2D
        else if !(bit leaf 0) then .error 0x21
        else if bits leaf 15 14 == 3 then .error 0x2D
        else if s.storage pa == .hole then .error 0x21
        else if s.isLost pa then .error 0x2D
        else .ok { pa := pa, leaf := leaf, at' := at' }

/-- Entries of a table of `len` bytes at `base` that memory lists, by index. -/
def State.entriesIn (s : State) (base len : Nat) : List Nat :=
  (s.mem.filter (fun c => decide (base ≤ c.1) && decide (c.1 < base + len))).foldr (fun c r =>
    let i := (c.1 - base) / 8
    if r.head? = some i then r else i :: r) []

/-- Every valid leaf entry that the tables of a partition hold: frame, partition, ASID, virtual page, address of the entry (R273). -/
def State.leavesOfPart (s : State) (p : Nat) : List (Nat × Nat × Nat × Nat × Nat) :=
  let base := (s.part p).cfg.asidt.toNat
  (s.entriesIn base 0x80000).flatMap (fun a =>
    let e := s.rd (base + 8 * a) 8
    if !(bit e 0) then [] else
    let t0 := bits e 47 15 * 0x8000
    (s.entriesIn t0 0x8000).flatMap (fun i0 => match pointer (s.rd (t0 + 8 * i0) 8) with
      | none => []
      | some t1 => (s.entriesIn t1 0x8000).flatMap (fun i1 => match pointer (s.rd (t1 + 8 * i1) 8) with
        | none => []
        | some t2 => (s.entriesIn t2 0x8000).filterMap (fun i2 =>
          let leaf := s.rd (t2 + 8 * i2) 8
          if bit leaf 0 then some (bits leaf 47 16, p, a, (i0 * 4096 + i1) * 4096 + i2, t2 + 8 * i2) else none))))

/-- Those of all partitions. -/
def State.leaves (s : State) : List (Nat × Nat × Nat × Nat × Nat) := (List.range 16).flatMap s.leavesOfPart

/-- Tables that a walk reads, by 32 KiB frame number (R274). -/
def State.walkTables (s : State) (part asid va : Nat) : List Nat :=
  let a0 := (s.part part).cfg.asidt.toNat
  let e := s.rd (a0 + 8 * asid) 8
  let t0 := bits e 47 15
  let e0 := s.rd (t0 * 0x8000 + 8 * bits va 51 40) 8
  let t1 := bits e0 47 15
  let e1 := s.rd (t1 * 0x8000 + 8 * bits va 39 28) 8
  [a0 / 0x8000 + asid / 4096, t0, t1, bits e1 47 15]

/-- Another mapping of the same frame that R275 forbids beside this one: in the same partition, or in another when either is
writable. A mapping that no longer leads to the frame is none. -/
def State.synonym (s : State) (part asid va : Nat) (x : Xlat) : Bool :=
  x.ty == 0 &&
  (fget [] s.rmap (x.pa / 0x10000)).any (fun m =>
    match m with
    | (p, a, vp, _) =>
      !(p == part && a == asid && vp == va / 0x10000) &&
      (match s.walk p a (vp * 0x10000) with
       | .ok y => y.pa / 0x10000 == x.pa / 0x10000 && y.ty == 0 && (p == part || x.wr || y.wr)
       | .error _ => false))

/-- The mapping of a page as a walk has loaded it, while it stands: its frame and its entry's address (R275). -/
def State.loaded (s : State) (part asid va : Nat) : Option Xlat :=
  s.rmap.findSome? (fun e => (e.2.find? (fun m => m.1 == part && m.2.1 == asid && m.2.2.1 == va / 0x10000)).map (fun m =>
    { pa := e.1 * 0x10000 + va % 0x10000, leaf := 0, at' := m.2.2.2 }))

/-- A translation that loads the mapping: the walk, the synonym check (R275), and, for a demand access, the A bit (R276). The
reverse map and the set of table frames note it. -/
def State.translate (s : State) (part asid va : Nat) (demand : Bool) : Except (BitVec 8) (State × Xlat) :=
  match s.walk part asid va with
  | .error c => .error c
  | .ok x =>
    if s.synonym part asid va x then .error 0x30
    else
      let f := x.pa / 0x10000
      let m := (part, asid, va / 0x10000, x.at')
      let old := fget [] s.rmap f
      let s1 := if old.contains m then s else { s with rmap := fset [] f (m :: old) s.rmap }
      let s2 := { s1 with tables := (s.walkTables part asid va).foldl (fun t k => fset false k true t) s1.tables }
      let s3 := if demand && !(bit x.leaf 6) then s2.rawWrite x.at' 8 (x.leaf + 64) else s2
      .ok (s3, x)

/-- D is set at the first committed write of the page (R276). -/
def State.setDirtyBit (s : State) (x : Xlat) : State :=
  let e := s.rd x.at' 8
  if bit e 7 then s else s.rawWrite x.at' 8 (e + 128)

/-! Window mapping entries (R365 to R367). -/

structure WEntry where
  dest : BitVec 18
  tpart : BitVec 4
  cls : BitVec 3
  off : Nat
  lfmt : Nat
  lb : Bool
  deriving DecidableEq, Repr

/-- Bytes of the local element of a link format (R370 Table 4). -/
def localBytes (lfmt : Nat) : Nat :=
  match lfmt with
  | 1 | 2 | 3 | 4 | 5 => 4
  | 6 => 2
  | _ => 1

/-- The entry at physical address `a`, if it is valid and covers `va` (R366). -/
def State.wentry (s : State) (a va : Nat) : Option WEntry :=
  let txw := s.rd a 8
  let pages := s.rd (a + 8) 4
  let dest := s.rd (a + 12) 4
  let roff := s.rd (a + 16) 8
  let lfmt := s.rd (a + 24) 1
  let base := bits txw 51 12 * 4096
  if bit txw 0 && bits txw 11 2 == 0 && bits txw 63 52 == 0 && bits dest 31 25 == 0 && s.rd (a + 25) 7 == 0
      && decide (1 ≤ pages) && decide (lfmt ≤ 6) && decide (base ≤ va) && decide (va < base + pages * 4096) then
    some { dest := BitVec.ofNat 18 dest, tpart := BitVec.ofNat 4 (bits dest 21 18), cls := BitVec.ofNat 3 (bits dest 24 22),
           off := roff + va - base, lfmt := lfmt, lb := bit txw 1 }
  else none

/-- The lowest-numbered valid entry among `n` from address `a`. -/
def State.findEntry (s : State) (va : Nat) : Nat → Nat → Option WEntry
  | _, 0 => none
  | a, n + 1 => match s.wentry a va with
    | some e => some e
    | none => s.findEntry va (a + 32) n

/-- The entry of a transmit-window address in a partition's table; none when the table is off (R365). -/
def State.windowEntry (s : State) (part va : Nat) : Option WEntry :=
  let w := (s.part part).wmtb
  if wbit w 63 then s.findEntry va (field w 12 36 * 4096) (field w 0 12 + 1) else none

/-! The version and the access set of a segment (R257, R258, R262). -/

/-- Bytes of the version from `va` where it holds them, else the bytes of `x` (R258). -/
def rdOver (v : FMap (Option Byte)) (va x : Nat) : Nat → Nat
  | 0 => 0
  | n + 1 => ((fget none v va).getD (BitVec.ofNat 8 x)).toNat + 256 * rdOver v (va + 1) (x / 256) n

/-- The task reads from the version where it holds the byte, else from committed memory at `pa`. -/
def rdV (v : FMap (Option Byte)) (m : FMap Byte) (va pa n : Nat) : Nat := rdOver v va (rdN m pa n) n

/-- Bytes of the version written by a store. -/
def wrV (v : FMap (Option Byte)) (va : Nat) : Nat → Nat → FMap (Option Byte)
  | 0, _ => v
  | n + 1, x => wrV (fset none va (some (BitVec.ofNat 8 x)) v) (va + 1) n (x / 256)

/-- Every byte of the access is in the version. -/
def inVersion (v : FMap (Option Byte)) (va : Nat) : Nat → Bool
  | 0 => true
  | n + 1 => (fget none v va).isSome && inVersion v (va + 1) n

/-- All slots and switched-out tasks with a segment, for directory use and doom. -/
def State.segments (s : State) : List (BitVec 16 × Segment) :=
  (s.slots.map (fun e => (e.2.asid, e.2.seg))) ++
  ((s.parts.map (fun p => p.saved.map (fun t => (t.ctx.asid, t.ctx.seg)))).flatten)

/-- Entries that the home directories hold in all. -/
def State.tracked (s : State) : Nat := (s.segments.map (fun e => e.2.reads.length + e.2.writes.length)).sum

/-- The home directory of granule `g` has no free entry among its 16,384 (R262). -/
def State.dirFull (s : State) (asid : BitVec 16) (g : Nat) : Bool :=
  decide (16384 ≤ s.tracked) &&
  decide (16384 ≤ (s.segments.map (fun e =>
    ((e.2.reads.filter (fun k => Config.homeDir e.1 k.1 == Config.homeDir asid g)).length +
     (e.2.writes.filter (fun k => Config.homeDir e.1 k.1 == Config.homeDir asid g && !(fget false e.2.reads k.1))).length))).sum)

/-- Bit of a signature that a granule sets: directory * 2048 + bit. -/
def sigOf (asid : BitVec 16) (g : Nat) : Nat := Config.homeDir asid g * 2048 + Config.sigBit asid g

/-- Directory `d` has found no free entry for an access of the segment: its further accesses there go to the signatures (R262). -/
def Segment.overflowed (seg : Segment) (d : Nat) : Bool := (seg.sigR ++ seg.sigW).any (fun e => e.1 / 2048 == d)

/-- Granule `g` enters the access set, as an entry or, once its directory has no free entry, in the signature (R257, R262). -/
def State.track (s : State) (asid : BitVec 16) (seg : Segment) (g : Nat) (write : Bool) : Segment :=
  if seg.overflowed (Config.homeDir asid g) || (!(fget false seg.reads g || fget false seg.writes g) && s.dirFull asid g) then
    if write then { seg with sigW := fset false (sigOf asid g) true seg.sigW, spilled := fset false g true seg.spilled }
    else { seg with sigR := fset false (sigOf asid g) true seg.sigR, spilledR := fset false g true seg.spilledR }
  else if write then { seg with writes := fset false g true seg.writes }
  else { seg with reads := fset false g true seg.reads }

/-- Granules the version holds (R258): the write set, spilled granules and private ones. -/
def Segment.lines (seg : Segment) : Nat :=
  seg.writes.length + (seg.spilled.filter (fun e => !(fget false seg.writes e.1))).length + seg.priv.length

def Segment.holdsLine (seg : Segment) (g : Nat) : Bool :=
  fget false seg.writes g || fget false seg.spilled g || fget false seg.priv g

/-- Granule `g` was read or written by the segment. -/
def Segment.touches (seg : Segment) (g : Nat) : Bool :=
  fget false seg.reads g || fget false seg.writes g || fget false seg.spilled g || fget false seg.spilledR g || fget false seg.priv g ||
    fget false seg.privR g

/-- The granules of a segment's access set, tracked by an entry or by a signature (R257, R262). -/
def Segment.accessed (seg : Segment) : FMap Bool := seg.reads ++ seg.writes ++ seg.spilled ++ seg.spilledR

/-- The segment has accesses in a signature. -/
def Segment.signed (seg : Segment) : Bool := !(seg.sigR.isEmpty && seg.sigW.isEmpty)

/-! Doom (R261, R262). -/

/-- Doom of a segment by a write of granule `g`. -/
def Segment.doomBy (asid : BitVec 16) (g : Nat) (seg : Segment) : Segment :=
  if fget false seg.reads g || fget false seg.writes g then
    { seg with doom := some (match seg.doom with
        | none => BitVec.ofNat 64 (g * 32)
        | some d => BitVec.ofNat 64 (Nat.min d.toNat (g * 32))) }
  else if (!seg.sigR.isEmpty || !seg.sigW.isEmpty) &&
      (fget false seg.sigR (sigOf asid g) || fget false seg.sigW (sigOf asid g)) then { seg with doomSig := true }
  else seg

/-- Doom of a segment by the commit of another that had read granule `g`. -/
def Segment.doomByRead (asid : BitVec 16) (g : Nat) (seg : Segment) : Segment :=
  if fget false seg.writes g then
    { seg with doom := some (match seg.doom with
        | none => BitVec.ofNat 64 (g * 32)
        | some d => BitVec.ofNat 64 (Nat.min d.toNat (g * 32))) }
  else if !seg.sigW.isEmpty && fget false seg.sigW (sigOf asid g) then { seg with doomSig := true }
  else seg

/-- Doom of a segment by the signatures of a committing one: a bit of the committed writes among the segment's granules, or a bit
of the committed accesses among its writes. -/
def Segment.doomBySig (asid : BitVec 16) (t : Segment) (seg : Segment) : Segment :=
  if (!t.sigW.isEmpty && (seg.reads.any (fun e => fget false t.sigW (sigOf asid e.1)) ||
        seg.writes.any (fun e => fget false t.sigW (sigOf asid e.1)) ||
        t.sigW.any (fun e => fget false seg.sigR e.1 || fget false seg.sigW e.1))) ||
     (!t.sigR.isEmpty && (seg.writes.any (fun e => fget false t.sigR (sigOf asid e.1)) ||
        t.sigR.any (fun e => fget false seg.sigW e.1))) then { seg with doomSig := true }
  else seg

/-- A slot's segment is doomed (R261). -/
def Slot.doomed (sl : Slot) : Bool := sl.seg.doom.isSome || sl.seg.doomSig

/-- Apply a doom test to every open segment of address space (part, asid) but the one of slot `except`. -/
def State.doomAll (s : State) (part : Nat) (asid : BitVec 16) (except : Option Nat) (f : Segment → Segment) : State :=
  { s with
    slots := s.slots.map (fun e =>
      if e.2.occupied && e.2.asid == asid && e.2.part == part && some e.1 != except then
        (e.1, { e.2 with seg := f e.2.seg }) else e),
    parts := s.parts.map (fun p => { p with saved := p.saved.map (fun t =>
      if t.ctx.asid == asid && t.ctx.part == part then { t with ctx := { t.ctx with seg := f t.ctx.seg } } else t) }) }

/-- A committed write of virtual granules (part, asid, g) dooms the segments that touched them. -/
def State.doomGranules (s : State) (part : Nat) (asid : BitVec 16) (except : Option Nat) (gs : List Nat) : State :=
  s.doomAll part asid except (fun seg => gs.foldl (fun r g => r.doomBy asid g) seg)

/-- The mappings that walks have loaded of physical granule `p`: partition, ASID, virtual granule. -/
def State.aliases (s : State) (p : Nat) : List (Nat × Nat × Nat) :=
  (fget [] s.rmap (p / 2048)).map (fun m => (m.1, m.2.1, m.2.2.1 * 2048 + p % 2048))

/-- The granules at which a write of physical granule `p` is tested against a segment: those of its access set that translate to `p`,
and, where it has signatures, every mapping of `p` in its address space (R261, R262). -/
def State.granulesAt (s : State) (part : Nat) (asid : BitVec 16) (seg : Segment) (p : Nat) : List Nat :=
  (seg.accessed.map (fun e => e.1)).filter (fun g =>
    match s.walk part asid.toNat (g * 32) with
    | .ok x => x.pa / 32 == p
    | .error _ => false) ++
  (if seg.signed then ((s.aliases p).filter (fun m => m.1 == part && m.2.1 == asid.toNat)).map (fun m => m.2.2) else [])

/-- A committed write of physical granules (a host write, a reflected store) dooms the segments that touched them. -/
def State.doomPhys (s : State) (ps : List Nat) : State :=
  let hit (sl : Slot) : Segment :=
    ps.foldl (fun r p => (s.granulesAt sl.part sl.asid sl.seg p).foldl (fun r g => r.doomBy sl.asid g) r) sl.seg
  { s with
    slots := s.slots.map (fun e => if e.2.occupied then (e.1, { e.2 with seg := hit e.2 }) else e),
    parts := s.parts.map (fun p => { p with saved := p.saved.map (fun t => { t with ctx := { t.ctx with seg := hit t.ctx } }) }) }

/-! Committed writes of bytes (R260). -/

/-- A granule of the `n` bytes at `pa` is marked poisoned (R295). -/
def State.poisoned (s : State) (pa n : Nat) : Bool :=
  s.poison.any (fun e => decide (pa / 32 ≤ e.1) && decide (e.1 * 32 < pa + n))

/-- The line of a committed write becomes dirty in the cache of `holder`; memory keeps what it held (R268). -/
def State.markDirty (s : State) (g holder : Nat) (task : Word) : State :=
  let w := (holder, s.commits, task)
  match fget none s.dirty g with
  | some d => { s with dirty := fset none g (some { d with holder := holder, wrote := w :: d.wrote }) s.dirty }
  | none =>
    { s with dirty := fset none g (some { holder := holder, stale := BitVec.ofNat 256 (s.rd (g * 32) 32), first := s.commits, wrote := [w] }) s.dirty }

/-- Write a granule's dirty copy back to its memory (R268, R96). -/
def State.writeBack (s : State) (g : Nat) : State := { s with dirty := fset none g none s.dirty }

/-! Copies in the caches (R279, R280). -/

/-- The sets of a cache without the lines that `p` names; a set that holds none is not listed. -/
def dropLines {α : Type} (p : α → Bool) (m : FMap (List α)) : FMap (List α) :=
  (m.map (fun e => (e.1, e.2.filter (fun l => !(p l))))).filter (fun e => !e.2.isEmpty)

/-- A superblock without the lines for which `p` holds. -/
def Super.without (p : Nat → Bool) (b : Super) : Super := { b with lines := b.lines.filter (fun e => !(p (b.block * 4 + e.1))) }

/-- The stall-cache sets whose key is in `ks`, without the granules for which `p` holds at the superblocks that `q` names. -/
def dropGranules (ks : Nat → Bool) (q : Super → Bool) (p : Nat → Bool) (m : FMap (List Super)) : FMap (List Super) :=
  dropLines (fun b => b.lines.isEmpty) (m.map (fun e => if ks e.1 then (e.1, e.2.map (fun b => if q b then b.without p else b)) else e))

/-- Every copy of the granules of one address space for which `p` holds leaves every L1 and stall cache. -/
def State.uncache (s : State) (part asid : Nat) (p : Nat → Bool) : State :=
  { s with
    l1 := dropLines (fun l => l.part == part && l.asid == asid && p l.granule) s.l1
    caches := dropGranules (fun _ => true) (fun b => b.part == part && b.asid == asid) p s.caches }

/-- Every cached copy of physical granule `g` is invalidated, under each mapping of it (R100, R101, R271). -/
def State.uncachePhys (s : State) (g : Nat) : State :=
  if s.l1.isEmpty && s.caches.isEmpty then s
  else (s.aliases g).foldl (fun t m => t.uncache m.1 m.2.1 (fun k => k == m.2.2)) s

/-- Masked write of up to 32 bytes of one granule: byte i of `v` where bit i of `mask` is set. -/
def wrMask (m : FMap Byte) (a : Nat) : Nat → Nat → Nat → FMap Byte
  | 0, _, _ => m
  | n + 1, v, k => wrMask (if k % 2 == 1 then fset 0 a (BitVec.ofNat 8 v) m else m) (a + 1) n (v / 256) (k / 2)

/-- A page change that R274 calls a revocation, between the old and the new walk of a mapping. -/
def revokes (old new : Except (BitVec 8) Xlat) : Bool :=
  match old, new with
  | .ok x, .ok y =>
    (x.rdok && !y.rdok) || (x.wr && !y.wr) || (x.ex && !y.ex) || (!x.priv && y.priv) || x.ty != y.ty || x.pa != y.pa
  | .ok _, .error _ => true
  | .error _, _ => false

/-- Every mapping the walks have loaded, with its frame. -/
def State.mappings (s : State) : List (Nat × Nat × Nat × Nat) :=
  (s.rmap.map (fun e => e.2.map (fun m => match m with | (p, a, vp, _) => (e.1, p, a, vp)))).flatten

/-- Revoke a page: its dirty lines are written back, every cached copy is invalidated, and it counts as a committed write of each of its
granules (R261, R262, R274). -/
def State.revoke (s : State) (frame part asid vp : Nat) : State :=
  let a := BitVec.ofNat 16 asid
  let s1 := { s with dirty := s.dirty.filter (fun e => e.1 / 2048 != frame) }
  (s1.uncache part asid (fun g => g / 2048 == vp)).doomAll part a none (fun seg =>
    (if seg.signed then (List.range 2048).map (fun i => vp * 2048 + i)
     else (seg.accessed.map (fun e => e.1)).filter (fun g => g / 2048 == vp)).foldl (fun r g => r.doomBy a g) seg)

/-- What a committed write to table pages changes for the TLBs: the mappings it revokes are revoked, and mappings that no
longer stand are dropped (R274). `old` is the machine before the write. -/
def State.tlbUpdate (old s : State) : State :=
  let s1 := old.mappings.foldl (fun t m => match m with
    | (f, p, a, vp) => if revokes (old.walk p a (vp * 0x10000)) (s.walk p a (vp * 0x10000)) then t.revoke f p a vp else t) s
  { s1 with rmap := (s1.rmap.map (fun e => (e.1, e.2.filter (fun m => match m with
    | (p, a, vp, _) => (match s1.walk p a (vp * 0x10000) with
      | .ok x => x.pa / 0x10000 == e.1
      | .error _ => false))))).filter (fun e => !e.2.isEmpty) }

/-- The granule lies in a page that a walk has read as a table (R274). -/
def State.inTable (s : State) (g : Nat) : Bool := fget false s.tables (g / 1024)

/-- The address is the first byte of an entry of a receive directory (R368). -/
def State.inRxdir (s : State) (a : Nat) : Bool :=
  s.parts.any (fun p => p.cfg.rxlen != 0 && decide (p.cfg.rxdir.toNat ≤ a) && decide (a < p.cfg.rxdir.toNat + 16 * p.cfg.rxlen))

/-- A committed write of 0 to STAT of a receive directory entry clears its SENDER, which the next store applied sets (R368, R393). -/
def State.clearSender (s : State) (entry stat : Nat) : State :=
  if stat = 0 && s.inRxdir entry then (s.rawWrite entry 4 0).modDev (fun d => { d with senders := fset false entry false d.senders }) else s

/-- One committed write of masked bytes of physical granule `g`: the bytes, the dirty line in the cache of `holder`, and the
poison mark, which a write of all 32 bytes clears (R295). A write to removed CXL memory is dropped (R299). -/
def State.commitGranule (s : State) (g v mask holder : Nat) (task : Word) : State :=
  if s.deepGone (g * 32) then s
  else
    let s1 := (s.uncachePhys g).markDirty g holder task
    let s2 := { s1 with mem := wrMask s1.mem (g * 32) 32 v mask }
    let s3 := if mask % 2 ^ 32 == 2 ^ 32 - 1 then { s2 with poison := fset false g false s2.poison } else s2
    let s4 := if bit mask 4 then s3.clearSender (g * 32) (bits v 39 32) else s3
    if bit mask 20 then s4.clearSender (g * 32 + 16) (bits v 167 160) else s4

/-- The granules that `n` bytes at `pa` lie in, and those of which they are all 32 bytes. -/
def granulesOf (pa n : Nat) : List Nat := (List.range ((pa + n - 1) / 32 - pa / 32 + 1)).map (fun i => pa / 32 + i)
def wholeGranules (pa n : Nat) : List Nat := (granulesOf pa n).filter (fun g => decide (pa ≤ g * 32) && decide (g * 32 + 32 ≤ pa + n))

/-- A committed write of `n` bytes of `v` at `pa`, outside any segment. It is written to memory directly through the caches, so that
no dirty line and no other cached copy is left, and it clears the poison of each granule that it fills (R295). -/
def State.commitRaw (s : State) (pa n v : Nat) : State :=
  if s.deepGone pa then s
  else
    let gs := granulesOf pa n
    let s0 := gs.foldl State.uncachePhys s
    let s1 := { (s0.rawWrite pa n v) with
      commits := s.commits + 1
      dirty := gs.foldl (fun d g => fset none g none d) s.dirty
      poison := (wholeGranules pa n).foldl (fun m g => fset false g false m) s.poison }
    if gs.any s.inTable then s.tlbUpdate s1 else s1

/-- The same by software (AMO, CAS, bank operation, completion word). -/
def State.commitBytes (s : State) (pa n v : Nat) : State :=
  let e := pa / 16 * 16
  let s1 := s.commitRaw pa n v
  if pa ≤ e + 4 && decide (e + 4 < pa + n) then s1.clearSender e (bits v (8 * (e + 4 - pa) + 7) (8 * (e + 4 - pa))) else s1

/-- The same by the device, at a physical address: it dooms the segments that touched the granules (R260, R261). -/
def State.commitDevice (s : State) (pa n v : Nat) : State :=
  (s.commitRaw pa n v).doomPhys (granulesOf pa n)

/-! Pages that are being exchanged, and the checkpoint: committed writes wait (R287, R417). -/

def State.exchanging (s : State) (frame : Nat) : Bool :=
  (List.range 4).any (fun q => match (s.quad q).exch with
    | some e => e.a == frame || e.b == frame
    | none => false)

/-- A committed write to physical address `pa` must wait. -/
def State.writeWaits (s : State) (pa : Nat) : Bool := s.dev.ckBusy || s.exchanging (pa / 0x10000)

end Sys2Proof.Machine
end

