-- ==== Sys2Proof/Machine/Real.lean ====
section
/-! DEFINITION. The number formats and the one rounding step (R116 to R128): the value of a code, Round of an exact value into a
format, and the flags it sets. An exact value is a sign, a magnitude m and an exponent e, standing for ± m × 2^e; `more` says
that the magnitude lies strictly between m and m + 1, which is how the functions that are not rational deliver their values. -/

namespace Sys2Proof.Machine

inductive Num where
  | nan (signalling : Bool)
  | inf (neg : Bool)
  | fin (neg : Bool) (m : Nat) (e : Int) (more : Bool)
  deriving DecidableEq, Repr

/-- Tags of R18 by code. -/
def tI32 : Nat := 1
def tN32 : Nat := 2
def tF32 : Nat := 3
def tF16 : Nat := 4
def tB16 : Nat := 5
def tI16 : Nat := 6
def tF8 : Nat := 7
def tI8 : Nat := 8
def tF4 : Nat := 9
def tI4 : Nat := 10
def tC2 : Nat := 11
def tX8 : Nat := 12

/-- Bits of an element (R18 Table 3). -/
def elemBits (tag : Nat) : Nat :=
  match tag with
  | 1 | 2 | 3 => 32
  | 4 | 5 | 6 | 11 => 16
  | 7 | 8 | 12 => 8
  | 9 | 10 => 4
  | _ => 32

/-- Elements per lane (R18 Table 3). -/
def elemsPerLane (tag : Nat) : Nat := 32 / elemBits tag

def isIntTag (tag : Nat) : Bool := tag == 1 || tag == 2 || tag == 6 || tag == 8 || tag == 10
def isFloatTag (tag : Nat) : Bool := tag == 3 || tag == 4 || tag == 5 || tag == 7 || tag == 9

/-- Fraction bits, bias, code of the largest finite magnitude, sign bit's place, and whether ∞ exists (R117 Table 2). -/
structure FFmt where
  frac : Nat
  bias : Nat
  top : Nat
  sign : Nat
  hasInf : Bool
  canon : Nat

def ffmt (tag : Nat) : FFmt :=
  match tag with
  | 4 => ⟨10, 15, 0x7BFF, 15, true, 0x7E00⟩
  | 5 => ⟨7, 127, 0x7F7F, 15, true, 0x7FC0⟩
  | 7 => ⟨3, 7, 0x7E, 7, false, 0x7F⟩
  | 9 => ⟨1, 1, 0x7, 3, false, 0⟩
  | _ => ⟨23, 127, 0x7F7FFFFF, 31, true, 0x7FC00000⟩

/-- Code of ∞ without its sign. -/
def FFmt.infCode (f : FFmt) : Nat := f.top + 1

/-- Exponent of the spacing of the subnormals. -/
def FFmt.emin (f : FFmt) : Int := 1 - (f.bias : Int) - (f.frac : Int)

/-- Signed value of an `n`-bit code. -/
def sval (n x : Nat) : Int := if x % 2 ^ n < 2 ^ (n - 1) then (x % 2 ^ n : Nat) else ((x % 2 ^ n : Nat) : Int) - (2 ^ n : Nat)

/-- Limits of an integer format (R116 Table 1). -/
def intMin (tag : Nat) : Int := if tag == 2 then 0 else -((2 ^ (elemBits tag - 1) : Nat) : Int)
def intMax (tag : Nat) : Int := if tag == 2 then 2 ^ 32 - 1 else ((2 ^ (elemBits tag - 1) : Nat) : Int) - 1

def Num.ofInt (v : Int) : Num := .fin (decide (v < 0)) v.natAbs 0 false

/-- Value of a floating code (R117). -/
def decodeFloat (tag x : Nat) : Num :=
  let f := ffmt tag
  let neg := bit x f.sign
  let mag := x % 2 ^ f.sign
  if mag > f.top then
    (if tag == 7 then .nan false
     else if mag == f.infCode then .inf neg
     else .nan (!(bit mag (f.frac - 1))))
  else
    let e := mag / 2 ^ f.frac
    let fr := mag % 2 ^ f.frac
    if e = 0 then .fin neg fr f.emin false else .fin neg (2 ^ f.frac + fr) (f.emin + (e : Int) - 1) false

/-- Value of an element of a tag; N32 is unsigned (R116). -/
def decodeElem (tag x : Nat) : Num :=
  if isFloatTag tag then decodeFloat tag x
  else if tag == 2 then .fin false (x % 2 ^ 32) 0 false
  else Num.ofInt (sval (elemBits tag) x)

/-! Rounding (R119, R120). -/

/-- Next of the stochastic generator (R120). -/
def rngNext (s : BitVec 32) : BitVec 32 := if s.getLsbD 0 then (s >>> 1) ^^^ 0x80200003#32 else s >>> 1

/-- Modes of R119 Table 3. -/
abbrev RMode := BitVec 3

/-- Does Round take the neighbour of larger magnitude? The discarded part is `rem` of `2^sh`, plus a little when `more`. -/
def roundsUp (mode : RMode) (neg odd : Bool) (rem sh : Nat) (more : Bool) (rng : BitVec 32) : Bool :=
  let inexact := rem != 0 || more
  if mode = 0 then
    (if sh = 0 then false
     else decide (rem > 2 ^ (sh - 1)) || (rem == 2 ^ (sh - 1) && (more || odd)))
  else if mode = 1 then false
  else if mode = 2 then neg && inexact
  else if mode = 3 then !neg && inexact
  else inexact && decide (rem * 2 ^ 24 / 2 ^ sh > rng.toNat / 2 ^ 8)

/-- What Round delivers: the element's bits, its flags, the generator, and whether it saturated or was flushed to zero. -/
structure Rounded where
  bits : Nat
  flags : FlagSet := 0
  rng : BitVec 32 := 0
  sat : Bool := false
  flushed : Bool := false
  deriving DecidableEq, Repr

/-- The generator after a rounding decision: it steps in stochastic mode when the value is not exact (R120). A value that the format's
precision holds exactly and that saturates or overflows takes no decision and no step: the model's choice (notes/assumptions/64.md). -/
def rngAfter (mode : RMode) (inexact : Bool) (rng : BitVec 32) : BitVec 32 :=
  if mode = 4 && inexact then rngNext rng else rng

/-- The magnitude ± m × 2^e in units of 2^q: quotient, remainder and the width of the remainder. -/
def splitAt (m : Nat) (e q : Int) : Nat × Nat × Nat :=
  if q ≤ e then (m * 2 ^ (e - q).toNat, 0, 0)
  else (m / 2 ^ (q - e).toNat, m % 2 ^ (q - e).toNat, (q - e).toNat)

/-- SAT hint: none, wrap or saturate (R56). -/
inductive SatMode where
  | default
  | wrap
  | sat
  deriving DecidableEq, Repr

/-- Round into a floating format (R119, R121, R122). -/
def roundFloat (tag : Nat) (mode : RMode) (sm : SatMode) (rng : BitVec 32) (x : Num) : Rounded :=
  let f := ffmt tag
  match x with
  | .nan _ => { bits := f.canon, flags := if tag == 9 then fNV else 0, rng := rng }
  | .inf neg =>
    let sb := neg.toNat * 2 ^ f.sign
    if f.hasInf then { bits := sb + f.infCode, rng := rng } else { bits := sb + f.top, flags := fSA, rng := rng, sat := true }
  | .fin neg m e more =>
    let sb := neg.toNat * 2 ^ f.sign
    if m = 0 && !more then { bits := sb, rng := rng }
    else
      let q := max f.emin (e + ((Nat.log2 m + 1 : Nat) : Int) - ((f.frac + 1 : Nat) : Int))
      let (lo, rem, sh) := splitAt m e q
      let inexact := rem != 0 || more
      let v := lo + (roundsUp mode neg (lo % 2 == 1) rem sh more rng).toNat
      let code := (q - f.emin).toNat * 2 ^ f.frac + v
      let rng' := rngAfter mode inexact rng
      if code > f.top then
        let away := mode = 0 || mode = 4 || (mode = 3 && !neg) || (mode = 2 && neg)
        if !f.hasInf || sm = .sat then { bits := sb + f.top, flags := fOF ||| fNX ||| fSA, rng := rng', sat := true }
        else { bits := sb + (if away then f.infCode else f.top), flags := fOF ||| fNX, rng := rng' }
      else
        { bits := sb + code
          flags := (if inexact then fNX else 0) ||| (if inexact && decide (code < 2 ^ f.frac) then fUF else 0)
            ||| (if code = 0 then fFZ else 0)
          rng := rng'
          flushed := code == 0 }

/-- The integer nearest a value by the mode (R119), whether it was inexact, and the generator. -/
def roundInt (mode : RMode) (rng : BitVec 32) (neg : Bool) (m : Nat) (e : Int) (more : Bool) : Int × Bool × BitVec 32 :=
  let (lo, rem, sh) := splitAt m e 0
  let inexact := rem != 0 || more
  let v := lo + (roundsUp mode neg (lo % 2 == 1) rem sh more rng).toNat
  ((if neg then -(v : Int) else v), inexact, rngAfter mode inexact rng)

/-- Low bits of an integer. -/
def lowBits (n : Nat) (v : Int) : Nat := (v % ((2 ^ n : Nat) : Int)).toNat

/-- Round into an integer format (R119, R121, R123). -/
def roundToInt (tag : Nat) (mode : RMode) (sm : SatMode) (rng : BitVec 32) (x : Num) : Rounded :=
  let n := elemBits tag
  match x with
  | .nan _ => { bits := 0, flags := fNV, rng := rng }
  | .inf neg => { bits := lowBits n (if neg then intMin tag else intMax tag), flags := fSA, rng := rng, sat := true }
  | .fin neg m e more =>
    let (v, inexact, rng') := roundInt mode rng neg m e more
    let nx : FlagSet := if inexact then fNX else 0
    if v < intMin tag ∨ v > intMax tag then
      (if sm = .wrap then { bits := lowBits n v, flags := nx, rng := rng' }
       else { bits := lowBits n (if v < 0 then intMin tag else intMax tag), flags := fSA ||| fNX, rng := rng', sat := true })
    else { bits := lowBits n v, flags := nx, rng := rng', flushed := v == 0 && (m != 0 || more) }

/-- Round into the format of a tag (R119 to R123). -/
def roundTo (tag : Nat) (mode : RMode) (sm : SatMode) (rng : BitVec 32) (x : Num) : Rounded :=
  if isFloatTag tag then roundFloat tag mode sm rng x else roundToInt tag mode sm rng x

/-! Exact arithmetic on values. -/

def Num.isNan : Num → Bool
  | .nan _ => true
  | _ => false

def Num.isSnan : Num → Bool
  | .nan s => s
  | _ => false

def Num.isZero : Num → Bool
  | .fin _ m _ more => m == 0 && !more
  | _ => false

def Num.neg : Num → Num
  | .nan s => .nan s
  | .inf n => .inf (!n)
  | .fin n m e k => .fin (!n) m e k

/-- The signed integer ± m × 2^(e - q), for q ≤ e. -/
def scaled (neg : Bool) (m : Nat) (e q : Int) : Int :=
  let v : Int := ((m * 2 ^ (e - q).toNat : Nat) : Int)
  if neg then -v else v

/-- Sign of an exact zero sum: + unless the mode is down or both terms are −0 (R140). -/
def zeroSign (mode : RMode) (a b : Bool) (bothZero : Bool) : Bool := (bothZero && a && b) || mode == 2

/-- x + y exactly, with the flags of invalid operations (R118, R140). -/
def Num.add (mode : RMode) (x y : Num) : Num × FlagSet :=
  let nv : FlagSet := if x.isSnan || y.isSnan then fNV else 0
  match x, y with
  | .nan _, _ => (.nan false, nv)
  | _, .nan _ => (.nan false, nv)
  | .inf a, .inf b => if a == b then (.inf a, 0) else (.nan false, fNV)
  | .inf a, _ => (.inf a, 0)
  | _, .inf b => (.inf b, 0)
  | .fin a m e _, .fin b n g _ =>
    let q := min e g
    let v := scaled a m e q + scaled b n g q
    if v = 0 then (.fin (zeroSign mode a b (m == 0 && n == 0)) 0 0 false, 0)
    else (.fin (decide (v < 0)) v.natAbs q false, 0)

/-- x − y exactly: its zero is + unless the mode is down, whatever the signs of x and y (R140). -/
def Num.sub (mode : RMode) (x y : Num) : Num × FlagSet :=
  let r := x.add mode y.neg
  if r.1.isZero then (.fin (mode == 2) 0 0 false, r.2) else r

/-- x × y exactly (R140). -/
def Num.mul (x y : Num) : Num × FlagSet :=
  let nv : FlagSet := if x.isSnan || y.isSnan then fNV else 0
  match x, y with
  | .nan _, _ => (.nan false, nv)
  | _, .nan _ => (.nan false, nv)
  | .inf a, .inf b => (.inf (xor a b), 0)
  | .inf a, .fin b n _ _ => if n = 0 then (.nan false, fNV) else (.inf (xor a b), 0)
  | .fin a m _ _, .inf b => if m = 0 then (.nan false, fNV) else (.inf (xor a b), 0)
  | .fin a m e _, .fin b n g _ => (.fin (xor a b) (m * n) (e + g) false, 0)

/-- x × y + z with one rounding (R142). -/
def Num.fma (mode : RMode) (x y z : Num) : Num × FlagSet :=
  let (p, f1) := x.mul y
  let (r, f2) := p.add mode z
  (r, f1 ||| f2)

/-- Comparison of values: less, equal or greater; none when unordered. −0 equals +0 (R145). -/
def Num.cmp (x y : Num) : Option Ordering :=
  match x, y with
  | .nan _, _ => none
  | _, .nan _ => none
  | .inf a, .inf b => some (if a == b then .eq else if a then .lt else .gt)
  | .inf a, _ => some (if a then .lt else .gt)
  | _, .inf b => some (if b then .gt else .lt)
  | .fin a m e _, .fin b n g _ =>
    let q := min e g
    some (compare (scaled a m e q) (scaled b n g q))

/-- Floor of log2 of ± m × 2^e, m ≠ 0. -/
def floorLog2 (m : Nat) (e : Int) : Int := (Nat.log2 m : Int) + e

/-- Flags of a NaN input that is signalling (R118). -/
def snanFlag (xs : List Num) : FlagSet := if xs.any Num.isSnan then fNV else 0

/-! Block scales (R124 to R126). -/

/-- An element times its X8 scale; code 0xFF is the NaN scale (R125). -/
def scaleElem (scale : Nat) (x : Num) : Num :=
  if scale % 256 = 0xFF then .nan false
  else match x with
    | .fin n m e k => .fin n m (e + ((scale % 256 : Nat) : Int) - 127) k
    | y => y

/-- NV of an element dequantised under the NaN scale (R125). -/
def scaleFlag (scale : Nat) : FlagSet := if scale % 256 = 0xFF then fNV else 0

/-- EM of R126. -/
def emOf (tag : Nat) : Int :=
  match tag with
  | 7 => 8
  | 8 => 6
  | _ => 2

/-- The larger magnitude of two finite values, as mantissa and exponent. -/
def maxMag (a b : Nat × Int) : Nat × Int :=
  let q := min a.2 b.2
  if a.1 * 2 ^ (a.2 - q).toNat < b.1 * 2 ^ (b.2 - q).toNat then b else a

/-- Scale code that a block of source values takes (R126). The rule gives no amax of a block without a finite element, such as one of infinities
only: the model's choice is amax 0, so scale 127 (notes/assumptions/75.md). -/
def blockScale (tag : Nat) (xs : List Num) : Nat :=
  if xs.any Num.isNan then 0xFF
  else
    let a := xs.foldl (fun r x => match x with | .fin _ m e _ => maxMag r (m, e) | _ => r) (0, 0)
    if a.1 = 0 then 127 else (min 254 (max 1 (floorLog2 a.1 a.2 - emOf tag + 127))).toNat

/-- Elements of one block, quantised: codes, flags, generator, counts of saturated and flushed elements (R126). -/
def quantElems (tag : Nat) (mode : RMode) (sm : SatMode) (scale : Nat) :
    List Num → BitVec 32 → List Nat × FlagSet × BitVec 32 × Nat × Nat
  | [], rng => ([], 0, rng, 0, 0)
  | x :: xs, rng =>
    let r := roundTo tag mode sm rng (match x with
      | .fin n m e k => .fin n m (e + 127 - (scale : Int)) k
      | y => y)
    let (cs, fl, rng', ns, nf) := quantElems tag mode sm scale xs r.rng
    (r.bits :: cs, r.flags ||| fl, rng', ns + r.sat.toNat, nf + r.flushed.toNat)

/-- One block of R126: scale code, element codes, flags, generator, counts. A NaN block writes zeros and sets NV. -/
def quantBlock (tag : Nat) (mode : RMode) (sm : SatMode) (xs : List Num) (rng : BitVec 32) :
    Nat × List Nat × FlagSet × BitVec 32 × Nat × Nat :=
  let sc := blockScale tag xs
  if sc = 0xFF then (sc, xs.map (fun _ => 0), fNV, rng, 0, 0)
  else
    let (cs, fl, rng', ns, nf) := quantElems tag mode sm sc xs rng
    (sc, cs, fl, rng', ns, nf)

/-! The C2 codebook (R127, R128). -/

/-- Vectors of `n` coordinates, each in half units of parity `par`, whose squares (in quarter units) sum to `norm`, in
lexicographic order. -/
def e8Vecs (par : Nat) : Nat → Nat → List (List Nat)
  | 0, norm => if norm = 0 then [[]] else []
  | n + 1, norm =>
    ((List.range 16).filter (fun c => c % 2 == par && decide (c * c ≤ norm))).flatMap
      (fun c => (e8Vecs par n (norm - c * c)).map (fun v => c :: v))

/-- Lexicographic order on coordinate lists. -/
def lexLt : List Nat → List Nat → Bool
  | a :: as, b :: bs => decide (a < b) || (a == b && lexLt as bs)
  | _, _ => false

/-- Merge of two lists in lexicographic order, on fuel. -/
def lexMerge : Nat → List (List Nat) → List (List Nat) → List (List Nat)
  | 0, xs, ys => xs ++ ys
  | _ + 1, [], ys => ys
  | _ + 1, xs, [] => xs
  | k + 1, x :: xs, y :: ys => if lexLt y x then y :: lexMerge k (x :: xs) ys else x :: lexMerge k xs (y :: ys)

/-- E8 points with nonnegative coordinates of squared norm `k`, coordinates in half units, in order. -/
def e8Shell (k : Nat) : List (List Nat) :=
  let evens := (e8Vecs 0 8 (4 * k)).filter (fun v => v.sum % 4 == 0)
  let odds := (e8Vecs 1 8 (4 * k)).filter (fun v => v.sum % 4 == 0)
  lexMerge (evens.length + odds.length) evens odds

/-- Entry `b` of the base table, searched shell by shell (norms 0, 2, 4, ...). -/
def e8Entry : Nat → Nat → Nat → List Nat
  | 0, _, _ => []
  | fuel + 1, k, b =>
    let sh := e8Shell k
    if b < sh.length then sh.getD b [] else e8Entry fuel (k + 2) (b - sh.length)

/-- Sign word of a C2 index (R128). -/
def c2Signs (s : Nat) : Nat :=
  let b (i : Nat) : Nat := s / 2 ^ i % 2
  s % 16 + (b 0 + b 1 + b 2) % 2 * 16 + (b 0 + b 1 + b 3) % 2 * 32 + (b 0 + b 2 + b 3) % 2 * 64 + (b 1 + b 2 + b 3) % 2 * 128

/-- The eight weights of a C2 index, as exact values (R128). -/
def c2Weights (v : Nat) : List Num :=
  let h := c2Signs (v % 16)
  (e8Entry 16 0 (v / 16 % 4096)).mapIdx (fun j c => if c = 0 then .fin false 0 0 false else .fin (bit h j) c (-1) false)

end Sys2Proof.Machine
end

