-- ==== Sys2Proof/Machine/Elementary.lean ====
section
/-! DEFINITION. The functions of R162 and R163 as exact values: each answers the floor of the magnitude in some unit and says that
the true value lies strictly above it, so that Round delivers the correctly rounded result in every mode. -/

namespace Sys2Proof.Machine

/-- Integer square root, by bits from bit `k` down. -/
def isqrtFrom (n : Nat) : Nat → Nat → Nat
  | 0, r => if (r + 1) * (r + 1) ≤ n then r + 1 else r
  | k + 1, r =>
    let t := r + 2 ^ (k + 1)
    isqrtFrom n k (if t * t ≤ n then t else r)

/-- Floor of the square root. -/
def isqrt (n : Nat) : Nat := isqrtFrom n (Nat.log2 n / 2 + 1) 0

/-- Ceiling of the square root. -/
def isqrtUp (n : Nat) : Nat := let r := isqrt n; if r * r = n then r else r + 1

/-- Exact quotient of 1 by m × 2^e: floor with 80 bits to spare, and whether it is inexact. -/
def recipNum (neg : Bool) (m : Nat) (e : Int) : Num :=
  let k := Nat.log2 m + 1 + 80
  .fin neg (2 ^ k / m) (-e - k) (decide (2 ^ k % m ≠ 0))

/-- 1/√(m × 2^e): floor of √(2^(2k) / m'), with m' the mantissa at an even exponent. -/
def rsqrtNum (m : Nat) (e : Int) : Num :=
  let m' := if e % 2 = 0 then m else 2 * m
  let e' := if e % 2 = 0 then e else e - 1
  let k := Nat.log2 m' + 82
  let q := 2 ^ (2 * k) / m'
  let r := isqrt q
  .fin false r (-(e' / 2) - k) (decide (r * r * m' ≠ 2 ^ (2 * k)))

/-! 2^f for a fraction f = j / 2^t, in units of 2^-p, as a lower and an upper bound. -/

/-- Bounds of the product of the factors 2^(2^-i) at the one bits of `j`, from the highest bit down; `lo` and `hi` are bounds of
2^(2^-(i-1)), of which the next factor is the root. -/
def exp2Bounds (p : Nat) (j : Nat) : Nat → Nat → Nat → Nat → Nat → Nat × Nat
  | 0, _, _, a, b => (a, b)
  | t + 1, lo, hi, a, b =>
    let l := isqrt (lo * 2 ^ p)
    let h := isqrtUp (hi * 2 ^ p)
    if bit j t then exp2Bounds p j t l h (a * l / 2 ^ p) ((b * h + 2 ^ p - 1) / 2 ^ p)
    else exp2Bounds p j t l h a b

/-- Floor of 2^(j / 2^t) × 2^n, for 0 < j < 2^t, from bounds of precision p; with `fuel` more precise tries while they differ. -/
def exp2Floor (n j t : Nat) : Nat → Nat → Nat
  | 0, p => (exp2Bounds p j t (2 ^ (p + 1)) (2 ^ (p + 1)) (2 ^ p) (2 ^ p)).1 / 2 ^ (p - n)
  | fuel + 1, p =>
    let (a, b) := exp2Bounds p j t (2 ^ (p + 1)) (2 ^ (p + 1)) (2 ^ p) (2 ^ p)
    if a / 2 ^ (p - n) = b / 2 ^ (p - n) then a / 2 ^ (p - n) else exp2Floor n j t fuel (2 * p)

/-- 2^a for finite a; magnitudes of 2^12 and more lie beyond every format, and are taken as ±2^12. -/
def exp2Num (neg : Bool) (m : Nat) (e : Int) : Num :=
  if m = 0 then .fin false 1 0 false
  else if floorLog2 m e ≥ 12 then .fin false 1 (if neg then -4096 else 4096) false
  else
    let t := (-e).toNat
    let v := scaled neg m e (min e 0)
    let whole := v / ((2 ^ t : Nat) : Int)
    let j := (v % ((2 ^ t : Nat) : Int)).toNat
    if j = 0 then .fin false 1 whole false else .fin false (exp2Floor 80 j t 3 400) (whole - 80) true

/-- Bits of log2 of y / 2^p in [1, 2), `n` of them, from bounds of y: the integer floor(log2 × 2^n), when the bounds agree. -/
def log2Bits (p : Nat) : Nat → Nat → Nat → Nat → Option Nat
  | 0, _, _, r => some r
  | n + 1, lo, hi, r =>
    let l := lo * lo / 2 ^ p
    let h := (hi * hi + 2 ^ p - 1) / 2 ^ p
    if 2 ^ (p + 1) ≤ l then log2Bits p n (l / 2) ((h + 1) / 2) (2 * r + 1)
    else if h < 2 ^ (p + 1) then log2Bits p n l h (2 * r)
    else none

/-- Floor of log2(m / 2^b) × 2^n for 2^b < m < 2^(b+1), with `fuel` more precise tries. -/
def log2Floor (n m b : Nat) : Nat → Nat → Nat
  | 0, _ => 0
  | fuel + 1, p => match log2Bits p n (m * 2 ^ (p - b)) (m * 2 ^ (p - b)) 0 with
    | some r => r
    | none => log2Floor n m b fuel (2 * p)

/-- log2 of m × 2^e, m ≠ 0. -/
def log2Num (m : Nat) (e : Int) : Num :=
  let b := Nat.log2 m
  let whole := e + (b : Int)
  if m = 2 ^ b then Num.ofInt whole
  else
    let f := log2Floor 120 m b 4 400
    let t := whole * ((2 ^ 120 : Nat) : Int) + (f : Int)
    if t ≥ 0 then .fin false t.toNat (-120) true else .fin true (t.natAbs - 1) (-120) true

/-- VRCP, VRSQ, VEX2, VLG2 by number, with the special cases of R163: the exact value and the flags of the input. -/
def elementary (op : Nat) (x : Num) : Num × FlagSet :=
  match x with
  | .nan sn => (.nan false, if sn then fNV else 0)
  | .inf neg =>
    match op with
    | 0 => (.fin neg 0 0 false, 0)
    | 1 => if neg then (.nan false, fNV) else (.fin false 0 0 false, 0)
    | 2 => if neg then (.fin false 0 0 false, 0) else (.inf false, 0)
    | _ => if neg then (.nan false, fNV) else (.inf false, 0)
  | .fin neg m e _ =>
    match op with
    | 0 => if m = 0 then (.inf neg, fDZ) else (recipNum neg m e, 0)
    | 1 => if m = 0 then (.inf neg, fDZ) else if neg then (.nan false, fNV) else (rsqrtNum m e, 0)
    | 2 => (exp2Num neg m e, 0)
    | _ => if m = 0 then (.inf true, fDZ) else if neg then (.nan false, fNV) else (log2Num m e, 0)

end Sys2Proof.Machine
end

