-- ==== Sys2Proof/Machine/Trig.lean ====
section
/-! DEFINITION. The exact functions behind the mesh and the decomposition engine: π, sine, cosine and arctangent in fixed point, with
errors far below any rounding that follows, and the binary32 operations of R353 built on Round (R119). -/

namespace Sys2Proof.Machine

/-- Arctangent of x / 2^p for small x by its series, `n` terms from the odd number `k`; `t` is the power x^k / 2^p. -/
def atanSeries (p : Nat) (x2 : Int) : Nat → Nat → Int → Int
  | 0, _, _ => 0
  | n + 1, k, t => t / (k : Int) - atanSeries p x2 n (k + 2) (t * x2 / ((2 ^ p : Nat) : Int))

def atanSmall (p : Nat) (x : Int) : Int := atanSeries p (x * x / ((2 ^ p : Nat) : Int)) (p / 4 + 2) 1 x

/-- π in units of 2^-p, by Machin's formula. -/
def piFix (p : Nat) : Int :=
  let q := p + 40
  let one : Int := ((2 ^ q : Nat) : Int)
  (16 * atanSmall q (one / 5) - 4 * atanSmall q (one / 239)) / ((2 ^ 40 : Nat) : Int)

/-- Sine series from the term `t` of degree `k`; x2 is the square, all in units of 2^-p. -/
def sinSeries (p : Nat) (x2 : Int) : Nat → Nat → Int → Int
  | 0, _, _ => 0
  | n + 1, k, t => t - sinSeries p x2 n (k + 2) (t * x2 / ((2 ^ p : Nat) : Int) / ((((k + 1) * (k + 2) : Nat)) : Int))

/-- Sine and cosine of x / 2^p, for |x| up to a few turns. -/
def sinFix (p : Nat) (x : Int) : Int := sinSeries p (x * x / ((2 ^ p : Nat) : Int)) (p / 4 + 12) 1 x
def cosFix (p : Nat) (x : Int) : Int := sinSeries p (x * x / ((2 ^ p : Nat) : Int)) (p / 4 + 12) 0 ((2 ^ p : Nat) : Int)

/-- Arctangent of y / x for 0 ≤ y ≤ x, x > 0, in units of 2^-p: three halvings of the angle, then the series. -/
def atanHalve (p : Nat) : Nat → Int → Int
  | 0, t => atanSmall p t
  | n + 1, t =>
    let one : Int := ((2 ^ p : Nat) : Int)
    let r : Int := ((isqrt (one * one + t * t).toNat : Nat) : Int)
    2 * atanHalve p n (t * one / (one + r))

/-- Angle of the point (x, y) with |x| and |y| given as natural numbers, in the first quadrant. -/
def atanQuad (p y x : Nat) : Int :=
  if y ≤ x then atanHalve p 3 ((y * 2 ^ p / x : Nat) : Int)
  else piFix p / 2 - atanHalve p 3 ((x * 2 ^ p / y : Nat) : Int)

/-! Binary32 values as their codes (R353): one rounding to nearest, ties to even, for each operation. -/

abbrev F32 := Nat

def f32Of (x : Num) : F32 := (roundTo tF32 0 .default 1 x).bits
def f32Val (a : F32) : Num := decodeFloat tF32 a

def f32Add (a b : F32) : F32 := f32Of ((f32Val a).add 0 (f32Val b)).1
def f32Neg (a : F32) : F32 := if a / 2 ^ 31 % 2 = 1 then a - 2 ^ 31 else a + 2 ^ 31
def f32Sub (a b : F32) : F32 := f32Add a (f32Neg b)
def f32Mul (a b : F32) : F32 := f32Of ((f32Val a).mul (f32Val b)).1

/-- Exact quotient of values, to 80 bits beyond the binary point and a sticky bit. -/
def Num.div (x y : Num) : Num :=
  match x, y with
  | .nan _, _ => .nan false
  | _, .nan _ => .nan false
  | .inf _, .inf _ => .nan false
  | .inf a, .fin b _ _ _ => .inf (xor a b)
  | .fin a _ _ _, .inf b => .fin (xor a b) 0 0 false
  | .fin a m e _, .fin b n g _ =>
    if n = 0 then (if m = 0 then .nan false else .inf (xor a b))
    else
      let k := Nat.log2 n + 81
      .fin (xor a b) (m * 2 ^ k / n) (e - g - k) (decide (m * 2 ^ k % n ≠ 0))

/-- Exact square root of a value, to 80 bits and a sticky bit. -/
def Num.root (x : Num) : Num :=
  match x with
  | .nan _ => .nan false
  | .inf neg => if neg then .nan false else .inf false
  | .fin neg m e _ =>
    if m = 0 then .fin neg 0 0 false
    else if neg then .nan false
    else
      let m' := (if e % 2 = 0 then m else 2 * m) * 2 ^ 160
      let e' := if e % 2 = 0 then e else e - 1
      let r := isqrt m'
      .fin false r (e' / 2 - 80) (decide (r * r ≠ m'))

def f32Div (a b : F32) : F32 := f32Of ((f32Val a).div (f32Val b))
def f32Sqrt (a : F32) : F32 := f32Of (f32Val a).root

/-- A fixed-point value with more below it. -/
def fixNum (p : Nat) (v : Int) : Num := .fin (decide (v < 0)) v.natAbs (-(p : Int)) true

/-- Value of a finite code in units of 2^-p, for p of at least 149. -/
def f32Fix (p : Nat) (a : F32) : Int :=
  match f32Val a with
  | .fin neg m e _ => scaled neg m e (-(p : Int))
  | _ => 0

def f32Zero (a : F32) : Bool := a % 2 ^ 31 == 0
def f32Lt0 (a : F32) : Bool := bit a 31 && !(f32Zero a)

/-- Sin and Cos of R353. -/
def f32Sin (v : F32) : F32 := if f32Zero v then v else f32Of (fixNum 400 (sinFix 400 (f32Fix 400 v)))
def f32Cos (v : F32) : F32 := if f32Zero v then 0x3F800000 else f32Of (fixNum 400 (cosFix 400 (f32Fix 400 v)))

/-- Atan2(y, x) of R353, for finite operands. -/
def f32Atan2 (y x : F32) : F32 :=
  if f32Zero y && !(bit x 31) then y
  else
    let p := 640
    let a := atanQuad p (f32Fix 149 y).natAbs (f32Fix 149 x).natAbs
    let b := if bit x 31 then piFix p - a else a
    f32Of (fixNum p (if bit y 31 then -b else b))

/-- Turn(v) of R354: v × 65,536 / (2π) to the nearest whole number, modulo 65,536. -/
def turnOf (v : F32) : Nat :=
  let d := 2 * piFix 640
  ((2 * (f32Fix 640 v) * 65536 + d) / (2 * d) % 65536).toNat

end Sys2Proof.Machine
end

