-- ==== Sys2Proof/Machine/Mesh.lean ====
section
/-! DEFINITION. The optical matrix unit's mesh (R350 to R352): the order of its interferometers, the passage of light, and the ideal
reading of a detector. Phase images are read as maps of their bytes (R189). -/

namespace Sys2Proof.Machine

/-- Bytes of a phase image (R189). -/
abbrev Image := FMap Byte

def imageBytes : Nat := 16448

/-- Index of the interferometer of column `c` whose upper mode is `m` (R350). -/
def mziIndex (c m : Nat) : Nat := 63 * (c / 2) + 32 * (c % 2) + m / 2

/-- Upper modes of column `c`, ascending (R350). -/
def columnModes (c : Nat) : List Nat := (List.range (32 - c % 2)).map (fun k => 2 * k + c % 2)

/-- Units of the fixed point in which light is computed: what lies below is part of the analogue error of R352. -/
def lightBits : Nat := 96

/-- An amplitude: real and imaginary part. -/
abbrev Amp := Int × Int

def lightMul (a b : Int) : Int := a * b / ((2 ^ lightBits : Nat) : Int)

/-- Cosine and sine of a fraction of a turn in units of 1 / 65,536. -/
def turnCS (t : Nat) : Int × Int :=
  let x := 2 * piFix lightBits * ((sval 16 t)) / 65536
  (cosFix lightBits x, sinFix lightBits x)

/-- e^(iβ) × a. -/
def Amp.spin (a : Amp) (cs : Int × Int) : Amp :=
  (lightMul a.1 cs.1 - lightMul a.2 cs.2, lightMul a.1 cs.2 + lightMul a.2 cs.1)

def Amp.scale (a : Amp) (k : Int) : Amp := (lightMul a.1 k, lightMul a.2 k)
def Amp.add (a b : Amp) : Amp := (a.1 + b.1, a.2 + b.2)
def Amp.sub (a b : Amp) : Amp := (a.1 - b.1, a.2 - b.2)

/-- T(θ, φ) on its two modes (R351). -/
def mziT (th ph : Nat) (x y : Amp) : Amp × Amp :=
  let r := turnCS th
  let u := if ph = 0 then x else x.spin (turnCS ph)
  (Amp.sub (u.scale r.1) (y.scale r.2), Amp.add (u.scale r.2) (y.scale r.1))

/-- The transpose of T(θ, φ). -/
def mziTt (th ph : Nat) (x y : Amp) : Amp × Amp :=
  let r := turnCS th
  let u := Amp.add (x.scale r.1) (y.scale r.2)
  ((if ph = 0 then u else u.spin (turnCS ph)), Amp.sub (y.scale r.1) (x.scale r.2))

/-- Angles of interferometer `i` of the mesh whose angles start at byte `base` of an image. -/
def imageAngles (im : Image) (base i : Nat) : Nat × Nat := (rdN im (base + 4 * i) 2, rdN im (base + 4 * i + 2) 2)

def modeAt (xs : List Amp) (m : Nat) : Amp := xs.getD m (0, 0)

/-- Light through one column. -/
def columnPass (t : Nat → Nat → Amp → Amp → Amp × Amp) (im : Image) (base c : Nat) (xs : List Amp) : List Amp :=
  (columnModes c).foldl (fun ys m =>
    let (th, ph) := imageAngles im base (mziIndex c m)
    if th = 0 ∧ ph = 0 then ys
    else
      let (a, b) := t th ph (modeAt ys m) (modeAt ys (m + 1))
      (ys.set m a).set (m + 1) b) xs

/-- z = U × Σ × Vᵀ × x: the V mesh from column 63 to 0 by transposes, the attenuators, the U mesh from column 0 to 63 (R351). -/
def meshPass (im : Image) (xs : List Amp) : List Amp :=
  let v := (List.range 64).foldl (fun ys k => columnPass mziTt im 8128 (63 - k) ys) xs
  let a := v.mapIdx (fun j x => ((x.1 * (rdN im (16192 + 2 * j) 2 : Int)) / 0x8000, (x.2 * (rdN im (16192 + 2 * j) 2 : Int)) / 0x8000))
  (List.range 64).foldl (fun ys c => columnPass mziT im 64 c ys) a

/-- Ideal 128 × y × 2^-DG of every output, to the nearest whole number (R352). -/
def idealReadings (im : Image) (dg : Nat) (xs : List Amp) : List Int :=
  (meshPass im xs).mapIdx (fun j z =>
    let t := rdN im (16320 + 2 * j) 2
    let y := if t = 0 then z.1 else (z.spin (turnCS t)).1
    let d : Int := ((2 ^ (lightBits + dg) : Nat) : Int)
    (2 * 128 * y + d) / (2 * d))

/-- A finite element value in units of the light, scaled by 2^-FA (R352). -/
def driveOf (fa : Nat) (x : Num) : Amp :=
  match x with
  | .fin neg m e _ => (scaled neg m (e - (fa : Int) + (lightBits : Int)) (min 0 (e - (fa : Int) + (lightBits : Int))) /
      (if 0 ≤ e - (fa : Int) + (lightBits : Int) then 1 else ((2 ^ (-(e - (fa : Int) + (lightBits : Int))).toNat : Nat) : Int)), 0)
  | _ => (0, 0)

/-- A reading: the ideal one plus the analogue error, clamped (R352). -/
def readingOf (ideal err : Int) : Int := max (-128) (min 127 (ideal + err))

end Sys2Proof.Machine
end

