-- ==== Sys2Proof/WellFormed.lean ====
section
/-! DEFINITION. Which instructions a word can stand for: the limits that the encoding tables set on each field beyond its width
(enumerated codes, selectors, fields that must be zero; R43 to R56), and the limits on what a device step carries. -/

namespace Sys2Proof

/-- The instruction's fields are ones that its encoding admits. -/
def Instr.wf : Instr → Bool
  | .add _ _ _ => true
  | .sub _ _ _ => true
  | .and _ _ _ => true
  | .or _ _ _ => true
  | .xor _ _ _ => true
  | .andn _ _ _ => true
  | .orn _ _ _ => true
  | .shl _ _ _ => true
  | .shr _ _ _ => true
  | .sra _ _ _ => true
  | .rol _ _ _ => true
  | .min _ _ _ => true
  | .max _ _ _ => true
  | .minn _ _ _ => true
  | .maxn _ _ _ => true
  | .slt _ _ _ => true
  | .sltn _ _ _ => true
  | .seq _ _ _ => true
  | .clz _ _ => true
  | .ctz _ _ => true
  | .popc _ _ => true
  | .sext _ _ sz => sz != 3#2
  | .zext _ _ sz => sz != 3#2
  | .bfx _ _ _ => true
  | .bfxs _ _ _ => true
  | .bfi _ _ _ => true
  | .csel _ _ _ => true
  | .lea _ _ _ _ => true
  | .mul _ _ _ => true
  | .mulh _ _ _ => true
  | .mulhn _ _ _ => true
  | .div _ _ _ => true
  | .divn _ _ _ => true
  | .rem _ _ _ => true
  | .remn _ _ _ => true
  | .addi _ _ _ => true
  | .andi _ _ _ => true
  | .ori _ _ _ => true
  | .xori _ _ _ => true
  | .slti _ _ _ => true
  | .sltni _ _ _ => true
  | .shli _ _ _ => true
  | .shri _ _ _ => true
  | .srai _ _ _ => true
  | .lih _ _ _ => true
  | .bEq _ _ _ => true
  | .bNe _ _ _ => true
  | .bLt _ _ _ => true
  | .bGe _ _ _ => true
  | .bLtn _ _ _ => true
  | .bGen _ _ _ => true
  | .j _ => true
  | .jal _ => true
  | .jalr rd _ _ => rd != 0#4
  | .jr _ _ => true
  | .loop _ _ => true
  | .ld _ _ _ ord sp _ => sp != 3#2 && (sp == 0#2 || ord == 0#2)
  | .st _ _ _ ord sp _ => sp != 3#2 && (sp == 0#2 || ord == 0#2)
  | .pf _ _ => true
  | .cfl _ _ => true
  | .cinv _ _ => true
  | .amoAdd _ _ _ _ _ => true
  | .amoAnd _ _ _ _ _ => true
  | .amoOr _ _ _ _ _ => true
  | .amoXor _ _ _ _ _ => true
  | .amoMin _ _ _ _ _ => true
  | .amoMax _ _ _ _ _ => true
  | .amoMinn _ _ _ _ _ => true
  | .amoMaxn _ _ _ _ _ => true
  | .amoSwap _ _ _ _ _ => true
  | .cas _ _ _ _ _ => true
  | .mopRedAdd _ _ _ => true
  | .mopRedAnd _ _ _ => true
  | .mopRedOr _ _ _ => true
  | .mopRedXor _ _ _ => true
  | .mopRedMin _ _ _ => true
  | .mopRedMax _ _ _ => true
  | .mopRedMinn _ _ _ => true
  | .mopRedMaxn _ _ _ => true
  | .mopCas _ _ _ _ => true
  | .mopSac _ _ _ _ => true
  | .gth _ _ _ => true
  | .fence => true
  | .fenceG => true
  | .fenceB => true
  | .commit => true
  | .waita _ _ _ => true
  | .waitany _ _ => true
  | .refl _ => true
  | .vadd vd va vb _ => decide (vd.toNat ≤ 24) && decide (va.toNat ≤ 24) && decide (vb.toNat ≤ 24)
  | .vsub vd va vb _ => decide (vd.toNat ≤ 24) && decide (va.toNat ≤ 24) && decide (vb.toNat ≤ 24)
  | .vmul vd va vb _ => decide (vd.toNat ≤ 24) && decide (va.toNat ≤ 24) && decide (vb.toNat ≤ 24)
  | .vmin vd va vb _ => decide (vd.toNat ≤ 24) && decide (va.toNat ≤ 24) && decide (vb.toNat ≤ 24)
  | .vmax vd va vb _ => decide (vd.toNat ≤ 24) && decide (va.toNat ≤ 24) && decide (vb.toNat ≤ 24)
  | .vabs vd va _ => decide (vd.toNat ≤ 24) && decide (va.toNat ≤ 24)
  | .vneg vd va _ => decide (vd.toNat ≤ 24) && decide (va.toNat ≤ 24)
  | .vfma vd va vb _ _ => decide (vd.toNat ≤ 24) && decide (va.toNat ≤ 24) && decide (vb.toNat ≤ 24)
  | .vand vd va vb _ => decide (vd.toNat ≤ 24) && decide (va.toNat ≤ 24) && decide (vb.toNat ≤ 24)
  | .vor vd va vb _ => decide (vd.toNat ≤ 24) && decide (va.toNat ≤ 24) && decide (vb.toNat ≤ 24)
  | .vxor vd va vb _ => decide (vd.toNat ≤ 24) && decide (va.toNat ≤ 24) && decide (vb.toNat ≤ 24)
  | .vshl vd va vb _ => decide (vd.toNat ≤ 24) && decide (va.toNat ≤ 24) && decide (vb.toNat ≤ 24)
  | .vshr vd va vb _ => decide (vd.toNat ≤ 24) && decide (va.toNat ≤ 24) && decide (vb.toNat ≤ 24)
  | .vsra vd va vb _ => decide (vd.toNat ≤ 24) && decide (va.toNat ≤ 24) && decide (vb.toNat ≤ 24)
  | .vcmpEq _ va vb _ => decide (va.toNat ≤ 24) && decide (vb.toNat ≤ 24)
  | .vcmpNe _ va vb _ => decide (va.toNat ≤ 24) && decide (vb.toNat ≤ 24)
  | .vcmpLt _ va vb _ => decide (va.toNat ≤ 24) && decide (vb.toNat ≤ 24)
  | .vcmpLe _ va vb _ => decide (va.toNat ≤ 24) && decide (vb.toNat ≤ 24)
  | .vcmpGt _ va vb _ => decide (va.toNat ≤ 24) && decide (vb.toNat ≤ 24)
  | .vcmpGe _ va vb _ => decide (va.toNat ≤ 24) && decide (vb.toNat ≤ 24)
  | .vsel vd va vb _ _ => decide (vd.toNat ≤ 24) && decide (va.toNat ≤ 24) && decide (vb.toNat ≤ 24)
  | .vmov vd va _ => decide (vd.toNat ≤ 24) && decide (va.toNat ≤ 24)
  | .vidx vd _ => decide (vd.toNat ≤ 24)
  | .vbc vd _ _ tg => decide (vd.toNat ≤ 24) && decide (1 ≤ tg.toNat ∧ tg.toNat ≤ 12)
  | .vext _ va _ => decide (va.toNat ≤ 24)
  | .vcvt vd va _ tg => decide (vd.toNat ≤ 24) && decide (va.toNat ≤ 24) && decide (1 ≤ tg.toNat ∧ tg.toNat ≤ 12)
  | .vqnt vd va vb tg => decide (vd.toNat ≤ 24) && decide (va.toNat ≤ 24) && decide (vb.toNat ≤ 24) && decide (7 ≤ tg.toNat ∧ tg.toNat ≤ 10)
  | .vdq vd va vb _ => decide (vd.toNat ≤ 24) && decide (va.toNat ≤ 24) && decide (vb.toNat ≤ 24)
  | .vcbd vd va vb _ => decide (vd.toNat ≤ 24) && decide (va.toNat ≤ 24) && decide (vb.toNat ≤ 24)
  | .vpack vd va vb _ => decide (vd.toNat ≤ 24) && decide (va.toNat ≤ 24) && decide (vb.toNat ≤ 24)
  | .vunpkL vd va _ => decide (vd.toNat ≤ 24) && decide (va.toNat ≤ 24)
  | .vunpkH vd va _ => decide (vd.toNat ≤ 24) && decide (va.toNat ≤ 24)
  | .vredAdd vd va _ => decide (vd.toNat ≤ 24) && decide (va.toNat ≤ 24)
  | .vredMin vd va _ => decide (vd.toNat ≤ 24) && decide (va.toNat ≤ 24)
  | .vredMax vd va _ => decide (vd.toNat ≤ 24) && decide (va.toNat ≤ 24)
  | .vredAnd vd va _ => decide (vd.toNat ≤ 24) && decide (va.toNat ≤ 24)
  | .vredOr vd va _ => decide (vd.toNat ≤ 24) && decide (va.toNat ≤ 24)
  | .vredXor vd va _ => decide (vd.toNat ≤ 24) && decide (va.toNat ≤ 24)
  | .vscanAdd vd va _ => decide (vd.toNat ≤ 24) && decide (va.toNat ≤ 24)
  | .vscanMin vd va _ => decide (vd.toNat ≤ 24) && decide (va.toNat ≤ 24)
  | .vscanMax vd va _ => decide (vd.toNat ≤ 24) && decide (va.toNat ≤ 24)
  | .vscanAnd vd va _ => decide (vd.toNat ≤ 24) && decide (va.toNat ≤ 24)
  | .vscanOr vd va _ => decide (vd.toNat ≤ 24) && decide (va.toNat ≤ 24)
  | .vscanXor vd va _ => decide (vd.toNat ≤ 24) && decide (va.toNat ≤ 24)
  | .vperm vd va vb _ => decide (vd.toNat ≤ 24) && decide (va.toNat ≤ 24) && decide (vb.toNat ≤ 24)
  | .vshf vd va _ _ => decide (vd.toNat ≤ 24) && decide (va.toNat ≤ 24)
  | .vrcp vd va _ => decide (vd.toNat ≤ 24) && decide (va.toNat ≤ 24)
  | .vrsq vd va _ => decide (vd.toNat ≤ 24) && decide (va.toNat ≤ 24)
  | .vex2 vd va _ => decide (vd.toNat ≤ 24) && decide (va.toNat ≤ 24)
  | .vlg2 vd va _ => decide (vd.toNat ≤ 24) && decide (va.toNat ≤ 24)
  | .kand _ _ _ => true
  | .kor _ _ _ => true
  | .kxor _ _ _ => true
  | .knot _ _ => true
  | .kmovMaskToMask _ _ => true
  | .kmovScalarToMask _ _ => true
  | .kmovMaskToScalar _ _ => true
  | .kpop _ _ => true
  | .kff _ _ => true
  | .vld vt _ _ sp _ => decide (vt.toNat ≤ 15) && sp != 3#2
  | .vlds vt _ _ _ sp _ => decide (vt.toNat ≤ 15) && sp != 3#2
  | .vgth vt _ _ _ sp _ => decide (vt.toNat ≤ 15) && sp != 3#2
  | .vst vt _ _ sp _ => decide (vt.toNat ≤ 15) && sp != 3#2
  | .vsts vt _ _ _ sp _ => decide (vt.toNat ≤ 15) && sp != 3#2
  | .vsct vt _ _ _ sp _ => decide (vt.toNat ≤ 15) && sp != 3#2
  | .mxp _ qc _ _ chain => (chain == 1#1 || qc == 0#3)
  | .dec _ _ _ _ wf => decide (wf.toNat ≤ 4)
  | .phld _ _ _ => true
  | .phsw _ => true
  | .phrd _ _ => true
  | .phwr _ _ _ => true
  | .unf _ _ _ _ _ => true
  | .accrd _ _ _ tg => (tg == 1#4 || tg == 3#4 || tg == 4#4 || tg == 5#4)
  | .accclr _ _ => true
  | .accpro _ _ => true
  | .accexp _ _ _ tg => decide (7 ≤ tg.toNat ∧ tg.toNat ≤ 10)
  | .cntrd _ => true
  | .probe _ => true
  | .qcfg _ _ => true
  | .qadvP _ _ => true
  | .qadvC _ _ => true
  | .qstat _ _ => true
  | .qwait _ _ => true
  | .cpy _ _ _ _ att bn => (att == 1#1 || bn == 0#3)
  | .cpyStep _ _ => true
  | .cpyWm _ _ => true
  | .cpySum _ _ => true
  | .cpyStop _ => true
  | .sendReq _ _ _ k att bn => (att == 1#1 || bn == 0#3) && decide (k.toNat ≤ 8)
  | .sendRpy _ _ _ k att bn => (att == 1#1 || bn == 0#3) && decide (k.toNat ≤ 8)
  | .migr _ => true
  | .fork _ _ _ att bn => (att == 1#1 || bn == 0#3)
  | .join _ => true
  | .tend => true
  | .yield => true
  | .spawn _ _ _ => true
  | .srr _ _ => true
  | .srw _ _ => true
  | .trap _ => true
  | .eret => true
  | .bkpt => true
  | .time _ => true
  | .idle => true
  | .limmA _ => true
  | .limmB _ => true
  | .round mode => decide (mode.toNat ≤ 4)
  | .sat _ => true
  | .scope code => decide (code.toNat ≤ 4)
  | .prio => true
  | .cache _ => true
  | .waitn count => count != 0#12
  | .gangBarrierComplete _ _ => true
  | .gangTimeout _ _ => true
  | .mxpSlotComplete _ _ => true
  | .decBlockComplete _ _ => true
  | .omuSettleEnd _ => true
  | .pilot _ _ => true
  | .unfoldSlot _ => true
  | .forwardedReply _ _ _ => true
  | .bankOpApply _ => true
  | .sealedCommit _ _ => true
  | .waitaWake _ _ => true
  | .waitCompletion _ _ => true
  | .idleEnd _ _ => true
  | .boundaryEvent _ _ => true
  | .watchdogExpiry _ _ => true
  | .energyCharge _ _ => true
  | .slotFill _ _ => true
  | .gangStart _ => true
  | .messageInjection _ _ => true
  | .messageArrival _ => true
  | .migrantArrival _ => true
  | .migrantAcceptance _ _ => true
  | .messageRefusal _ => true
  | .copyDescriptor _ _ => true
  | .copyDescriptorComplete _ _ => true
  | .queueRecordFetch _ => true
  | .graphNodeFetch _ => true
  | .nodeComplete _ _ => true
  | .forkNode _ _ => true
  | .copyNode _ _ => true
  | .signalNode _ _ => true
  | .graphNode _ _ => true
  | .dispense _ => true
  | .preemption _ => true
  | .rotationTick _ => true
  | .swapRelease _ => true
  | .operatingPointChange _ => true
  | .pointRaise _ => true
  | .quadrantPowerSample _ _ => true
  | .modulePowerSample _ => true
  | .droopAlarm _ _ => true
  | .stretchEnd _ => true
  | .throttleEnd _ => true
  | .sensorSample _ _ banks => banks.length == 64
  | .refreshRowDue _ _ _ => true
  | .placementHalving => true
  | .pageExchangeStart _ _ => true
  | .pageExchangeCommit _ => true
  | .scoutAccess _ _ _ => true
  | .correctableError _ _ _ => true
  | .uncorrectableError _ => true
  | .selfTestComplete _ _ _ => true
  | .bankLoss _ _ => true
  | .cxlRemoval => true
  | .cxlInsertion => true
  | .lineLoss _ _ => true
  | .lightRecovery _ _ => true
  | .sourceRestored _ => true
  | .storeFlit _ _ _ => true
  | .tagFlit _ _ _ => true
  | .ack _ _ _ _ => true
  | .nak _ _ _ _ => true
  | .rrf _ _ _ => true
  | .lanest _ _ _ => true
  | .applied _ _ _ => true
  | .fail _ _ _ _ _ => true
  | .resync _ _ _ => true
  | .gone _ _ => true
  | .hello _ _ => true
  | .keyx _ _ _ _ => true
  | .pathReestablishment _ _ => true
  | .nakRepeat _ _ => true
  | .ackTimer _ _ => true
  | .groupClose _ _ => true
  | .tagTimeout _ _ => true
  | .storeTimeout _ _ => true
  | .laneRetrain _ _ _ => true
  | .retrainComplete _ _ _ => true
  | .laneWeightStep _ _ => true
  | .deviceGone _ => true
  | .moduleInsertion _ => true
  | .latchRelease => true
  | .coolantOvertemp => true
  | .leak => true
  | .coldReset _ _ rhos _ => rhos.length == 128
  | .resetCold _ _ rhos _ => rhos.length == 128
  | .partitionReset _ => true
  | .checkpointStart => true
  | .checkpointRestore => true
  | .checkpointComplete _ => true
  | .ckstatClear _ => true
  | .mcqdropClear => true
  | .mcqConfigWrite _ _ => true
  | .cxlen _ => true
  | .kill _ _ => true
  | .halt _ _ => true
  | .release _ _ => true
  | .step _ _ => true
  | .debugSave _ _ => true
  | .debugRestore _ _ => true
  | .resume _ _ => true
  | .peqdropClear _ => true
  | .tail _ _ => true
  | .chead _ _ => true
  | .qerrClear _ _ => true
  | .queueConfigWrite _ _ _ => true
  | .registerWrite _ _ _ => true
  | .hostRead _ _ => true
  | .hostWrite _ data => decide (1 ≤ data.length ∧ data.length ≤ 64)
  | .msixUnmask _ _ => true
  | .illegalWord _ _ => true
  | .fetchFault _ => true
  | .probeComplete _ _ _ => true
  | .gatherComplete _ _ => true
  | .laneResync _ _ => true

/-- Is this a step of the device, which has no word? -/
def Instr.isEvent : Instr → Bool
  | .add _ _ _ => false
  | .sub _ _ _ => false
  | .and _ _ _ => false
  | .or _ _ _ => false
  | .xor _ _ _ => false
  | .andn _ _ _ => false
  | .orn _ _ _ => false
  | .shl _ _ _ => false
  | .shr _ _ _ => false
  | .sra _ _ _ => false
  | .rol _ _ _ => false
  | .min _ _ _ => false
  | .max _ _ _ => false
  | .minn _ _ _ => false
  | .maxn _ _ _ => false
  | .slt _ _ _ => false
  | .sltn _ _ _ => false
  | .seq _ _ _ => false
  | .clz _ _ => false
  | .ctz _ _ => false
  | .popc _ _ => false
  | .sext _ _ _ => false
  | .zext _ _ _ => false
  | .bfx _ _ _ => false
  | .bfxs _ _ _ => false
  | .bfi _ _ _ => false
  | .csel _ _ _ => false
  | .lea _ _ _ _ => false
  | .mul _ _ _ => false
  | .mulh _ _ _ => false
  | .mulhn _ _ _ => false
  | .div _ _ _ => false
  | .divn _ _ _ => false
  | .rem _ _ _ => false
  | .remn _ _ _ => false
  | .addi _ _ _ => false
  | .andi _ _ _ => false
  | .ori _ _ _ => false
  | .xori _ _ _ => false
  | .slti _ _ _ => false
  | .sltni _ _ _ => false
  | .shli _ _ _ => false
  | .shri _ _ _ => false
  | .srai _ _ _ => false
  | .lih _ _ _ => false
  | .bEq _ _ _ => false
  | .bNe _ _ _ => false
  | .bLt _ _ _ => false
  | .bGe _ _ _ => false
  | .bLtn _ _ _ => false
  | .bGen _ _ _ => false
  | .j _ => false
  | .jal _ => false
  | .jalr _ _ _ => false
  | .jr _ _ => false
  | .loop _ _ => false
  | .ld _ _ _ _ _ _ => false
  | .st _ _ _ _ _ _ => false
  | .pf _ _ => false
  | .cfl _ _ => false
  | .cinv _ _ => false
  | .amoAdd _ _ _ _ _ => false
  | .amoAnd _ _ _ _ _ => false
  | .amoOr _ _ _ _ _ => false
  | .amoXor _ _ _ _ _ => false
  | .amoMin _ _ _ _ _ => false
  | .amoMax _ _ _ _ _ => false
  | .amoMinn _ _ _ _ _ => false
  | .amoMaxn _ _ _ _ _ => false
  | .amoSwap _ _ _ _ _ => false
  | .cas _ _ _ _ _ => false
  | .mopRedAdd _ _ _ => false
  | .mopRedAnd _ _ _ => false
  | .mopRedOr _ _ _ => false
  | .mopRedXor _ _ _ => false
  | .mopRedMin _ _ _ => false
  | .mopRedMax _ _ _ => false
  | .mopRedMinn _ _ _ => false
  | .mopRedMaxn _ _ _ => false
  | .mopCas _ _ _ _ => false
  | .mopSac _ _ _ _ => false
  | .gth _ _ _ => false
  | .fence => false
  | .fenceG => false
  | .fenceB => false
  | .commit => false
  | .waita _ _ _ => false
  | .waitany _ _ => false
  | .refl _ => false
  | .vadd _ _ _ _ => false
  | .vsub _ _ _ _ => false
  | .vmul _ _ _ _ => false
  | .vmin _ _ _ _ => false
  | .vmax _ _ _ _ => false
  | .vabs _ _ _ => false
  | .vneg _ _ _ => false
  | .vfma _ _ _ _ _ => false
  | .vand _ _ _ _ => false
  | .vor _ _ _ _ => false
  | .vxor _ _ _ _ => false
  | .vshl _ _ _ _ => false
  | .vshr _ _ _ _ => false
  | .vsra _ _ _ _ => false
  | .vcmpEq _ _ _ _ => false
  | .vcmpNe _ _ _ _ => false
  | .vcmpLt _ _ _ _ => false
  | .vcmpLe _ _ _ _ => false
  | .vcmpGt _ _ _ _ => false
  | .vcmpGe _ _ _ _ => false
  | .vsel _ _ _ _ _ => false
  | .vmov _ _ _ => false
  | .vidx _ _ => false
  | .vbc _ _ _ _ => false
  | .vext _ _ _ => false
  | .vcvt _ _ _ _ => false
  | .vqnt _ _ _ _ => false
  | .vdq _ _ _ _ => false
  | .vcbd _ _ _ _ => false
  | .vpack _ _ _ _ => false
  | .vunpkL _ _ _ => false
  | .vunpkH _ _ _ => false
  | .vredAdd _ _ _ => false
  | .vredMin _ _ _ => false
  | .vredMax _ _ _ => false
  | .vredAnd _ _ _ => false
  | .vredOr _ _ _ => false
  | .vredXor _ _ _ => false
  | .vscanAdd _ _ _ => false
  | .vscanMin _ _ _ => false
  | .vscanMax _ _ _ => false
  | .vscanAnd _ _ _ => false
  | .vscanOr _ _ _ => false
  | .vscanXor _ _ _ => false
  | .vperm _ _ _ _ => false
  | .vshf _ _ _ _ => false
  | .vrcp _ _ _ => false
  | .vrsq _ _ _ => false
  | .vex2 _ _ _ => false
  | .vlg2 _ _ _ => false
  | .kand _ _ _ => false
  | .kor _ _ _ => false
  | .kxor _ _ _ => false
  | .knot _ _ => false
  | .kmovMaskToMask _ _ => false
  | .kmovScalarToMask _ _ => false
  | .kmovMaskToScalar _ _ => false
  | .kpop _ _ => false
  | .kff _ _ => false
  | .vld _ _ _ _ _ => false
  | .vlds _ _ _ _ _ _ => false
  | .vgth _ _ _ _ _ _ => false
  | .vst _ _ _ _ _ => false
  | .vsts _ _ _ _ _ _ => false
  | .vsct _ _ _ _ _ _ => false
  | .mxp _ _ _ _ _ => false
  | .dec _ _ _ _ _ => false
  | .phld _ _ _ => false
  | .phsw _ => false
  | .phrd _ _ => false
  | .phwr _ _ _ => false
  | .unf _ _ _ _ _ => false
  | .accrd _ _ _ _ => false
  | .accclr _ _ => false
  | .accpro _ _ => false
  | .accexp _ _ _ _ => false
  | .cntrd _ => false
  | .probe _ => false
  | .qcfg _ _ => false
  | .qadvP _ _ => false
  | .qadvC _ _ => false
  | .qstat _ _ => false
  | .qwait _ _ => false
  | .cpy _ _ _ _ _ _ => false
  | .cpyStep _ _ => false
  | .cpyWm _ _ => false
  | .cpySum _ _ => false
  | .cpyStop _ => false
  | .sendReq _ _ _ _ _ _ => false
  | .sendRpy _ _ _ _ _ _ => false
  | .migr _ => false
  | .fork _ _ _ _ _ => false
  | .join _ => false
  | .tend => false
  | .yield => false
  | .spawn _ _ _ => false
  | .srr _ _ => false
  | .srw _ _ => false
  | .trap _ => false
  | .eret => false
  | .bkpt => false
  | .time _ => false
  | .idle => false
  | .limmA _ => false
  | .limmB _ => false
  | .round _ => false
  | .sat _ => false
  | .scope _ => false
  | .prio => false
  | .cache _ => false
  | .waitn _ => false
  | .gangBarrierComplete _ _ => true
  | .gangTimeout _ _ => true
  | .mxpSlotComplete _ _ => true
  | .decBlockComplete _ _ => true
  | .omuSettleEnd _ => true
  | .pilot _ _ => true
  | .unfoldSlot _ => true
  | .forwardedReply _ _ _ => true
  | .bankOpApply _ => true
  | .sealedCommit _ _ => true
  | .waitaWake _ _ => true
  | .waitCompletion _ _ => true
  | .idleEnd _ _ => true
  | .boundaryEvent _ _ => true
  | .watchdogExpiry _ _ => true
  | .energyCharge _ _ => true
  | .slotFill _ _ => true
  | .gangStart _ => true
  | .messageInjection _ _ => true
  | .messageArrival _ => true
  | .migrantArrival _ => true
  | .migrantAcceptance _ _ => true
  | .messageRefusal _ => true
  | .copyDescriptor _ _ => true
  | .copyDescriptorComplete _ _ => true
  | .queueRecordFetch _ => true
  | .graphNodeFetch _ => true
  | .nodeComplete _ _ => true
  | .forkNode _ _ => true
  | .copyNode _ _ => true
  | .signalNode _ _ => true
  | .graphNode _ _ => true
  | .dispense _ => true
  | .preemption _ => true
  | .rotationTick _ => true
  | .swapRelease _ => true
  | .operatingPointChange _ => true
  | .pointRaise _ => true
  | .quadrantPowerSample _ _ => true
  | .modulePowerSample _ => true
  | .droopAlarm _ _ => true
  | .stretchEnd _ => true
  | .throttleEnd _ => true
  | .sensorSample _ _ _ => true
  | .refreshRowDue _ _ _ => true
  | .placementHalving => true
  | .pageExchangeStart _ _ => true
  | .pageExchangeCommit _ => true
  | .scoutAccess _ _ _ => true
  | .correctableError _ _ _ => true
  | .uncorrectableError _ => true
  | .selfTestComplete _ _ _ => true
  | .bankLoss _ _ => true
  | .cxlRemoval => true
  | .cxlInsertion => true
  | .lineLoss _ _ => true
  | .lightRecovery _ _ => true
  | .sourceRestored _ => true
  | .storeFlit _ _ _ => true
  | .tagFlit _ _ _ => true
  | .ack _ _ _ _ => true
  | .nak _ _ _ _ => true
  | .rrf _ _ _ => true
  | .lanest _ _ _ => true
  | .applied _ _ _ => true
  | .fail _ _ _ _ _ => true
  | .resync _ _ _ => true
  | .gone _ _ => true
  | .hello _ _ => true
  | .keyx _ _ _ _ => true
  | .pathReestablishment _ _ => true
  | .nakRepeat _ _ => true
  | .ackTimer _ _ => true
  | .groupClose _ _ => true
  | .tagTimeout _ _ => true
  | .storeTimeout _ _ => true
  | .laneRetrain _ _ _ => true
  | .retrainComplete _ _ _ => true
  | .laneWeightStep _ _ => true
  | .deviceGone _ => true
  | .moduleInsertion _ => true
  | .latchRelease => true
  | .coolantOvertemp => true
  | .leak => true
  | .coldReset _ _ _ _ => true
  | .resetCold _ _ _ _ => true
  | .partitionReset _ => true
  | .checkpointStart => true
  | .checkpointRestore => true
  | .checkpointComplete _ => true
  | .ckstatClear _ => true
  | .mcqdropClear => true
  | .mcqConfigWrite _ _ => true
  | .cxlen _ => true
  | .kill _ _ => true
  | .halt _ _ => true
  | .release _ _ => true
  | .step _ _ => true
  | .debugSave _ _ => true
  | .debugRestore _ _ => true
  | .resume _ _ => true
  | .peqdropClear _ => true
  | .tail _ _ => true
  | .chead _ _ => true
  | .qerrClear _ _ => true
  | .queueConfigWrite _ _ _ => true
  | .registerWrite _ _ _ => true
  | .hostRead _ _ => true
  | .hostWrite _ _ => true
  | .msixUnmask _ _ => true
  | .illegalWord _ _ => true
  | .fetchFault _ => true
  | .probeComplete _ _ _ => true
  | .gatherComplete _ _ => true
  | .laneResync _ _ => true

end Sys2Proof
end

