-- ==== Sys2Proof/Decode.lean ====
section
/-! DEFINITION. The decoder: every 32-bit word is either one instruction or raises the cause that R45 gives it (checks 1 to 4; the
hint check 5 is made in Machine/Issue.lean, since it depends on the run before the word). After it the encoder, from the same tables. -/

namespace Sys2Proof

/-- The field of `len` bits that begins at bit `lo` of a word. -/
def fld (w : BitVec 32) (lo len : Nat) : BitVec len := w.extractLsb' lo len

/-- The checks of R45 on the fields of one instruction, in their order: enumerated codes (cause 0x02), bits that must be zero
(0x03), vector selectors (0x04). -/
def decLeaf (codes zeros sels : Bool) (i : Instr) : Except (BitVec 8) Instr :=
  if codes = false then .error 0x02#8
  else if zeros = false then .error 0x03#8
  else if sels = false then .error 0x04#8
  else .ok i

/-- Major 0x01 (R48 Table 14). -/
def decAlu (w : BitVec 32) : Except (BitVec 8) Instr :=
  match (fld w 6 8).toNat with
  | 0x00 => decLeaf (true) (fld w 0 6 == 0) (true) (.add (fld w 22 4) (fld w 18 4) (fld w 14 4))
  | 0x01 => decLeaf (true) (fld w 0 6 == 0) (true) (.sub (fld w 22 4) (fld w 18 4) (fld w 14 4))
  | 0x02 => decLeaf (true) (fld w 0 6 == 0) (true) (.and (fld w 22 4) (fld w 18 4) (fld w 14 4))
  | 0x03 => decLeaf (true) (fld w 0 6 == 0) (true) (.or (fld w 22 4) (fld w 18 4) (fld w 14 4))
  | 0x04 => decLeaf (true) (fld w 0 6 == 0) (true) (.xor (fld w 22 4) (fld w 18 4) (fld w 14 4))
  | 0x05 => decLeaf (true) (fld w 0 6 == 0) (true) (.andn (fld w 22 4) (fld w 18 4) (fld w 14 4))
  | 0x06 => decLeaf (true) (fld w 0 6 == 0) (true) (.orn (fld w 22 4) (fld w 18 4) (fld w 14 4))
  | 0x08 => decLeaf (true) (fld w 0 6 == 0) (true) (.shl (fld w 22 4) (fld w 18 4) (fld w 14 4))
  | 0x09 => decLeaf (true) (fld w 0 6 == 0) (true) (.shr (fld w 22 4) (fld w 18 4) (fld w 14 4))
  | 0x0A => decLeaf (true) (fld w 0 6 == 0) (true) (.sra (fld w 22 4) (fld w 18 4) (fld w 14 4))
  | 0x0B => decLeaf (true) (fld w 0 6 == 0) (true) (.rol (fld w 22 4) (fld w 18 4) (fld w 14 4))
  | 0x10 => decLeaf (true) (fld w 0 6 == 0) (true) (.min (fld w 22 4) (fld w 18 4) (fld w 14 4))
  | 0x11 => decLeaf (true) (fld w 0 6 == 0) (true) (.max (fld w 22 4) (fld w 18 4) (fld w 14 4))
  | 0x12 => decLeaf (true) (fld w 0 6 == 0) (true) (.minn (fld w 22 4) (fld w 18 4) (fld w 14 4))
  | 0x13 => decLeaf (true) (fld w 0 6 == 0) (true) (.maxn (fld w 22 4) (fld w 18 4) (fld w 14 4))
  | 0x14 => decLeaf (true) (fld w 0 6 == 0) (true) (.slt (fld w 22 4) (fld w 18 4) (fld w 14 4))
  | 0x15 => decLeaf (true) (fld w 0 6 == 0) (true) (.sltn (fld w 22 4) (fld w 18 4) (fld w 14 4))
  | 0x16 => decLeaf (true) (fld w 0 6 == 0) (true) (.seq (fld w 22 4) (fld w 18 4) (fld w 14 4))
  | 0x18 => decLeaf (true) (fld w 0 6 == 0 && fld w 14 4 == 0) (true) (.clz (fld w 22 4) (fld w 18 4))
  | 0x19 => decLeaf (true) (fld w 0 6 == 0 && fld w 14 4 == 0) (true) (.ctz (fld w 22 4) (fld w 18 4))
  | 0x1A => decLeaf (true) (fld w 0 6 == 0 && fld w 14 4 == 0) (true) (.popc (fld w 22 4) (fld w 18 4))
  | 0x1C => decLeaf (fld w 14 2 != 3#2) (fld w 0 6 == 0 && fld w 16 2 == 0) (true) (.sext (fld w 22 4) (fld w 18 4) (fld w 14 2))
  | 0x1D => decLeaf (fld w 14 2 != 3#2) (fld w 0 6 == 0 && fld w 16 2 == 0) (true) (.zext (fld w 22 4) (fld w 18 4) (fld w 14 2))
  | 0x20 => decLeaf (true) (fld w 0 6 == 0) (true) (.bfx (fld w 22 4) (fld w 18 4) (fld w 14 4))
  | 0x21 => decLeaf (true) (fld w 0 6 == 0) (true) (.bfxs (fld w 22 4) (fld w 18 4) (fld w 14 4))
  | 0x22 => decLeaf (true) (fld w 0 6 == 0) (true) (.bfi (fld w 22 4) (fld w 18 4) (fld w 14 4))
  | 0x28 => decLeaf (true) (fld w 0 6 == 0) (true) (.csel (fld w 22 4) (fld w 18 4) (fld w 14 4))
  | _ => if fld w 8 6 = 0x0C#6 then decLeaf (true) (fld w 0 6 == 0) (true) (.lea (fld w 22 4) (fld w 18 4) (fld w 14 4) (fld w 6 2)) else .error 0x02#8

/-- Major 0x02 (R48 Table 14). -/
def decMul (w : BitVec 32) : Except (BitVec 8) Instr :=
  match (fld w 6 8).toNat with
  | 0x00 => decLeaf (true) (fld w 0 6 == 0) (true) (.mul (fld w 22 4) (fld w 18 4) (fld w 14 4))
  | 0x01 => decLeaf (true) (fld w 0 6 == 0) (true) (.mulh (fld w 22 4) (fld w 18 4) (fld w 14 4))
  | 0x02 => decLeaf (true) (fld w 0 6 == 0) (true) (.mulhn (fld w 22 4) (fld w 18 4) (fld w 14 4))
  | 0x04 => decLeaf (true) (fld w 0 6 == 0) (true) (.div (fld w 22 4) (fld w 18 4) (fld w 14 4))
  | 0x05 => decLeaf (true) (fld w 0 6 == 0) (true) (.divn (fld w 22 4) (fld w 18 4) (fld w 14 4))
  | 0x06 => decLeaf (true) (fld w 0 6 == 0) (true) (.rem (fld w 22 4) (fld w 18 4) (fld w 14 4))
  | 0x07 => decLeaf (true) (fld w 0 6 == 0) (true) (.remn (fld w 22 4) (fld w 18 4) (fld w 14 4))
  | _ => .error 0x02#8

/-- Major 0x0A (R49 Table 15). -/
def decShift (w : BitVec 32) : Except (BitVec 8) Instr :=
  match (fld w 16 2).toNat with
  | 0x00 => decLeaf (true) (fld w 6 10 == 0) (true) (.shli (fld w 22 4) (fld w 18 4) (fld w 0 6))
  | 0x01 => decLeaf (true) (fld w 6 10 == 0) (true) (.shri (fld w 22 4) (fld w 18 4) (fld w 0 6))
  | 0x02 => decLeaf (true) (fld w 6 10 == 0) (true) (.srai (fld w 22 4) (fld w 18 4) (fld w 0 6))
  | 0x03 => decLeaf (true) (true) (true) (.lih (fld w 22 4) (fld w 18 4) (fld w 0 16))
  | _ => .error 0x02#8

/-- Major 0x0C (R49 Table 15). -/
def decBranch (w : BitVec 32) : Except (BitVec 8) Instr :=
  match (fld w 22 4).toNat with
  | 0x00 => decLeaf (true) (true) (true) (.bEq (fld w 18 4) (fld w 14 4) (fld w 0 14))
  | 0x01 => decLeaf (true) (true) (true) (.bNe (fld w 18 4) (fld w 14 4) (fld w 0 14))
  | 0x02 => decLeaf (true) (true) (true) (.bLt (fld w 18 4) (fld w 14 4) (fld w 0 14))
  | 0x03 => decLeaf (true) (true) (true) (.bGe (fld w 18 4) (fld w 14 4) (fld w 0 14))
  | 0x04 => decLeaf (true) (true) (true) (.bLtn (fld w 18 4) (fld w 14 4) (fld w 0 14))
  | 0x05 => decLeaf (true) (true) (true) (.bGen (fld w 18 4) (fld w 14 4) (fld w 0 14))
  | _ => .error 0x02#8

/-- Major 0x0F: JR is the encoding with rd = 0 (R49, R84). -/
def decJalr (w : BitVec 32) : Except (BitVec 8) Instr :=
  if fld w 22 4 = 0#4 then .ok (.jr (fld w 18 4) (fld w 0 18)) else .ok (.jalr (fld w 22 4) (fld w 18 4) (fld w 0 18))

/-- LD: space 3, and an order other than plain in a buffer space, are not accepted (R50, R90). -/
def decLd (w : BitVec 32) : Except (BitVec 8) Instr :=
  decLeaf (fld w 12 2 != 3#2 && (fld w 12 2 == 0#2 || fld w 14 2 == 0#2)) (true) (true) (.ld (fld w 22 4) (fld w 18 4) (fld w 16 2) (fld w 14 2) (fld w 12 2) (fld w 0 12))

/-- ST: space 3, and an order other than plain in a buffer space, are not accepted (R50, R90). -/
def decSt (w : BitVec 32) : Except (BitVec 8) Instr :=
  decLeaf (fld w 12 2 != 3#2 && (fld w 12 2 == 0#2 || fld w 14 2 == 0#2)) (true) (true) (.st (fld w 22 4) (fld w 18 4) (fld w 16 2) (fld w 14 2) (fld w 12 2) (fld w 0 12))

/-- Major 0x13: AMO and CAS (R50 Table 16). -/
def decAmo (w : BitVec 32) : Except (BitVec 8) Instr :=
  match (fld w 6 4).toNat with
  | 0 => decLeaf (fld w 11 1 == 1#1) (fld w 0 6 == 0) (true) (.amoAdd (fld w 22 4) (fld w 18 4) (fld w 14 4) (fld w 12 2) (fld w 10 1))
  | 1 => decLeaf (fld w 11 1 == 1#1) (fld w 0 6 == 0) (true) (.amoAnd (fld w 22 4) (fld w 18 4) (fld w 14 4) (fld w 12 2) (fld w 10 1))
  | 2 => decLeaf (fld w 11 1 == 1#1) (fld w 0 6 == 0) (true) (.amoOr (fld w 22 4) (fld w 18 4) (fld w 14 4) (fld w 12 2) (fld w 10 1))
  | 3 => decLeaf (fld w 11 1 == 1#1) (fld w 0 6 == 0) (true) (.amoXor (fld w 22 4) (fld w 18 4) (fld w 14 4) (fld w 12 2) (fld w 10 1))
  | 4 => decLeaf (fld w 11 1 == 1#1) (fld w 0 6 == 0) (true) (.amoMin (fld w 22 4) (fld w 18 4) (fld w 14 4) (fld w 12 2) (fld w 10 1))
  | 5 => decLeaf (fld w 11 1 == 1#1) (fld w 0 6 == 0) (true) (.amoMax (fld w 22 4) (fld w 18 4) (fld w 14 4) (fld w 12 2) (fld w 10 1))
  | 6 => decLeaf (fld w 11 1 == 1#1) (fld w 0 6 == 0) (true) (.amoMinn (fld w 22 4) (fld w 18 4) (fld w 14 4) (fld w 12 2) (fld w 10 1))
  | 7 => decLeaf (fld w 11 1 == 1#1) (fld w 0 6 == 0) (true) (.amoMaxn (fld w 22 4) (fld w 18 4) (fld w 14 4) (fld w 12 2) (fld w 10 1))
  | 8 => decLeaf (fld w 11 1 == 1#1) (fld w 0 6 == 0) (true) (.amoSwap (fld w 22 4) (fld w 18 4) (fld w 14 4) (fld w 12 2) (fld w 10 1))
  | 9 => decLeaf (fld w 11 1 == 1#1) (fld w 0 6 == 0) (true) (.cas (fld w 22 4) (fld w 18 4) (fld w 14 4) (fld w 12 2) (fld w 10 1))
  | _ => .error 0x02#8

/-- MOP.RED: fn<7:6> = 0 of major 0x14. -/
def decRed (w : BitVec 32) : Except (BitVec 8) Instr :=
  match (fld w 6 4).toNat with
  | 0 => decLeaf (fld w 11 1 == 1#1) (fld w 0 6 == 0 && fld w 22 4 == 0) (true) (.mopRedAdd (fld w 18 4) (fld w 14 4) (fld w 10 1))
  | 1 => decLeaf (fld w 11 1 == 1#1) (fld w 0 6 == 0 && fld w 22 4 == 0) (true) (.mopRedAnd (fld w 18 4) (fld w 14 4) (fld w 10 1))
  | 2 => decLeaf (fld w 11 1 == 1#1) (fld w 0 6 == 0 && fld w 22 4 == 0) (true) (.mopRedOr (fld w 18 4) (fld w 14 4) (fld w 10 1))
  | 3 => decLeaf (fld w 11 1 == 1#1) (fld w 0 6 == 0 && fld w 22 4 == 0) (true) (.mopRedXor (fld w 18 4) (fld w 14 4) (fld w 10 1))
  | 4 => decLeaf (fld w 11 1 == 1#1) (fld w 0 6 == 0 && fld w 22 4 == 0) (true) (.mopRedMin (fld w 18 4) (fld w 14 4) (fld w 10 1))
  | 5 => decLeaf (fld w 11 1 == 1#1) (fld w 0 6 == 0 && fld w 22 4 == 0) (true) (.mopRedMax (fld w 18 4) (fld w 14 4) (fld w 10 1))
  | 6 => decLeaf (fld w 11 1 == 1#1) (fld w 0 6 == 0 && fld w 22 4 == 0) (true) (.mopRedMinn (fld w 18 4) (fld w 14 4) (fld w 10 1))
  | 7 => decLeaf (fld w 11 1 == 1#1) (fld w 0 6 == 0 && fld w 22 4 == 0) (true) (.mopRedMaxn (fld w 18 4) (fld w 14 4) (fld w 10 1))
  | _ => .error 0x02#8

/-- Major 0x14: bank operations and GTH (R50 Table 16). -/
def decMop (w : BitVec 32) : Except (BitVec 8) Instr :=
  match (fld w 12 2).toNat with
  | 0 => decRed w
  | 1 => decLeaf (fld w 11 1 == 1#1) (fld w 0 10 == 0) (true) (.mopCas (fld w 22 4) (fld w 18 4) (fld w 14 4) (fld w 10 1))
  | 2 => decLeaf (fld w 11 1 == 1#1) (fld w 0 10 == 0) (true) (.mopSac (fld w 22 4) (fld w 18 4) (fld w 14 4) (fld w 10 1))
  | _ => decLeaf (true) (fld w 0 12 == 0) (true) (.gth (fld w 22 4) (fld w 18 4) (fld w 14 4))

/-- Major 0x15 (R50 Table 16). -/
def decSync (w : BitVec 32) : Except (BitVec 8) Instr :=
  match (fld w 6 8).toNat with
  | 0x00 => decLeaf (true) (fld w 0 6 == 0 && fld w 14 12 == 0) (true) (.fence)
  | 0x01 => decLeaf (true) (fld w 0 6 == 0 && fld w 14 12 == 0) (true) (.fenceG)
  | 0x02 => decLeaf (true) (fld w 0 6 == 0 && fld w 14 12 == 0) (true) (.fenceB)
  | 0x08 => decLeaf (true) (fld w 0 6 == 0 && fld w 14 12 == 0) (true) (.commit)
  | 0x09 => decLeaf (true) (fld w 0 6 == 0) (true) (.waita (fld w 22 4) (fld w 18 4) (fld w 14 4))
  | 0x0A => decLeaf (true) (fld w 0 6 == 0 && fld w 14 4 == 0) (true) (.waitany (fld w 22 4) (fld w 18 4))
  | 0x0B => decLeaf (true) (fld w 0 6 == 0 && fld w 14 8 == 0) (true) (.refl (fld w 22 4))
  | _ => .error 0x02#8

/-- Major 0x16: the data field selects; only space 0 is accepted (R50). -/
def decCache (w : BitVec 32) : Except (BitVec 8) Instr :=
  match (fld w 22 4).toNat with
  | 0x00 => decLeaf (fld w 12 2 == 0#2) (fld w 14 4 == 0) (true) (.pf (fld w 18 4) (fld w 0 12))
  | 0x01 => decLeaf (fld w 12 2 == 0#2) (fld w 14 4 == 0) (true) (.cfl (fld w 18 4) (fld w 0 12))
  | 0x02 => decLeaf (fld w 12 2 == 0#2) (fld w 14 4 == 0) (true) (.cinv (fld w 18 4) (fld w 0 12))
  | _ => .error 0x02#8

/-- Major 0x18 (R51 Table 17); VFMA is fn 0x20 + n. -/
def decV18 (w : BitVec 32) : Except (BitVec 8) Instr :=
  match (fld w 0 8).toNat with
  | 0x00 => decLeaf (true) (true) (decide ((fld w 21 5).toNat ≤ 24) && decide ((fld w 16 5).toNat ≤ 24) && decide ((fld w 11 5).toNat ≤ 24)) (.vadd (fld w 21 5) (fld w 16 5) (fld w 11 5) (fld w 8 3))
  | 0x01 => decLeaf (true) (true) (decide ((fld w 21 5).toNat ≤ 24) && decide ((fld w 16 5).toNat ≤ 24) && decide ((fld w 11 5).toNat ≤ 24)) (.vsub (fld w 21 5) (fld w 16 5) (fld w 11 5) (fld w 8 3))
  | 0x02 => decLeaf (true) (true) (decide ((fld w 21 5).toNat ≤ 24) && decide ((fld w 16 5).toNat ≤ 24) && decide ((fld w 11 5).toNat ≤ 24)) (.vmul (fld w 21 5) (fld w 16 5) (fld w 11 5) (fld w 8 3))
  | 0x03 => decLeaf (true) (true) (decide ((fld w 21 5).toNat ≤ 24) && decide ((fld w 16 5).toNat ≤ 24) && decide ((fld w 11 5).toNat ≤ 24)) (.vmin (fld w 21 5) (fld w 16 5) (fld w 11 5) (fld w 8 3))
  | 0x04 => decLeaf (true) (true) (decide ((fld w 21 5).toNat ≤ 24) && decide ((fld w 16 5).toNat ≤ 24) && decide ((fld w 11 5).toNat ≤ 24)) (.vmax (fld w 21 5) (fld w 16 5) (fld w 11 5) (fld w 8 3))
  | 0x05 => decLeaf (true) (fld w 11 5 == 0) (decide ((fld w 21 5).toNat ≤ 24) && decide ((fld w 16 5).toNat ≤ 24)) (.vabs (fld w 21 5) (fld w 16 5) (fld w 8 3))
  | 0x06 => decLeaf (true) (fld w 11 5 == 0) (decide ((fld w 21 5).toNat ≤ 24) && decide ((fld w 16 5).toNat ≤ 24)) (.vneg (fld w 21 5) (fld w 16 5) (fld w 8 3))
  | 0x08 => decLeaf (true) (true) (decide ((fld w 21 5).toNat ≤ 24) && decide ((fld w 16 5).toNat ≤ 24) && decide ((fld w 11 5).toNat ≤ 24)) (.vand (fld w 21 5) (fld w 16 5) (fld w 11 5) (fld w 8 3))
  | 0x09 => decLeaf (true) (true) (decide ((fld w 21 5).toNat ≤ 24) && decide ((fld w 16 5).toNat ≤ 24) && decide ((fld w 11 5).toNat ≤ 24)) (.vor (fld w 21 5) (fld w 16 5) (fld w 11 5) (fld w 8 3))
  | 0x0A => decLeaf (true) (true) (decide ((fld w 21 5).toNat ≤ 24) && decide ((fld w 16 5).toNat ≤ 24) && decide ((fld w 11 5).toNat ≤ 24)) (.vxor (fld w 21 5) (fld w 16 5) (fld w 11 5) (fld w 8 3))
  | 0x0C => decLeaf (true) (true) (decide ((fld w 21 5).toNat ≤ 24) && decide ((fld w 16 5).toNat ≤ 24) && decide ((fld w 11 5).toNat ≤ 24)) (.vshl (fld w 21 5) (fld w 16 5) (fld w 11 5) (fld w 8 3))
  | 0x0D => decLeaf (true) (true) (decide ((fld w 21 5).toNat ≤ 24) && decide ((fld w 16 5).toNat ≤ 24) && decide ((fld w 11 5).toNat ≤ 24)) (.vshr (fld w 21 5) (fld w 16 5) (fld w 11 5) (fld w 8 3))
  | 0x0E => decLeaf (true) (true) (decide ((fld w 21 5).toNat ≤ 24) && decide ((fld w 16 5).toNat ≤ 24) && decide ((fld w 11 5).toNat ≤ 24)) (.vsra (fld w 21 5) (fld w 16 5) (fld w 11 5) (fld w 8 3))
  | _ => if fld w 3 5 = 0x04#5 then decLeaf (true) (true) (decide ((fld w 21 5).toNat ≤ 24) && decide ((fld w 16 5).toNat ≤ 24) && decide ((fld w 11 5).toNat ≤ 24)) (.vfma (fld w 21 5) (fld w 16 5) (fld w 11 5) (fld w 8 3) (fld w 0 3)) else .error 0x02#8

/-- Major 0x19 (R51); VSEL is fn 0x08 + n, VBC fn 0x20 + t. -/
def decV19 (w : BitVec 32) : Except (BitVec 8) Instr :=
  match (fld w 0 8).toNat with
  | 0x00 => decLeaf (true) (fld w 24 2 == 0) (decide ((fld w 16 5).toNat ≤ 24) && decide ((fld w 11 5).toNat ≤ 24)) (.vcmpEq (fld w 21 3) (fld w 16 5) (fld w 11 5) (fld w 8 3))
  | 0x01 => decLeaf (true) (fld w 24 2 == 0) (decide ((fld w 16 5).toNat ≤ 24) && decide ((fld w 11 5).toNat ≤ 24)) (.vcmpNe (fld w 21 3) (fld w 16 5) (fld w 11 5) (fld w 8 3))
  | 0x02 => decLeaf (true) (fld w 24 2 == 0) (decide ((fld w 16 5).toNat ≤ 24) && decide ((fld w 11 5).toNat ≤ 24)) (.vcmpLt (fld w 21 3) (fld w 16 5) (fld w 11 5) (fld w 8 3))
  | 0x03 => decLeaf (true) (fld w 24 2 == 0) (decide ((fld w 16 5).toNat ≤ 24) && decide ((fld w 11 5).toNat ≤ 24)) (.vcmpLe (fld w 21 3) (fld w 16 5) (fld w 11 5) (fld w 8 3))
  | 0x04 => decLeaf (true) (fld w 24 2 == 0) (decide ((fld w 16 5).toNat ≤ 24) && decide ((fld w 11 5).toNat ≤ 24)) (.vcmpGt (fld w 21 3) (fld w 16 5) (fld w 11 5) (fld w 8 3))
  | 0x05 => decLeaf (true) (fld w 24 2 == 0) (decide ((fld w 16 5).toNat ≤ 24) && decide ((fld w 11 5).toNat ≤ 24)) (.vcmpGe (fld w 21 3) (fld w 16 5) (fld w 11 5) (fld w 8 3))
  | 0x10 => decLeaf (true) (fld w 11 5 == 0) (decide ((fld w 21 5).toNat ≤ 24) && decide ((fld w 16 5).toNat ≤ 24)) (.vmov (fld w 21 5) (fld w 16 5) (fld w 8 3))
  | 0x18 => decLeaf (true) (fld w 11 10 == 0) (decide ((fld w 21 5).toNat ≤ 24)) (.vidx (fld w 21 5) (fld w 8 3))
  | 0x30 => decLeaf (true) (fld w 8 3 == 0 && fld w 25 1 == 0) (decide ((fld w 16 5).toNat ≤ 24)) (.vext (fld w 21 4) (fld w 16 5) (fld w 11 5))
  | _ => if fld w 3 5 = 0x01#5 then decLeaf (true) (true) (decide ((fld w 21 5).toNat ≤ 24) && decide ((fld w 16 5).toNat ≤ 24) && decide ((fld w 11 5).toNat ≤ 24)) (.vsel (fld w 21 5) (fld w 16 5) (fld w 11 5) (fld w 8 3) (fld w 0 3))
    else if fld w 4 4 = 0x2#4 then decLeaf (decide (1 ≤ (fld w 0 4).toNat ∧ (fld w 0 4).toNat ≤ 12)) (fld w 11 5 == 0 && fld w 20 1 == 0) (decide ((fld w 21 5).toNat ≤ 24)) (.vbc (fld w 21 5) (fld w 16 4) (fld w 8 3) (fld w 0 4))
    else .error 0x02#8

/-- Major 0x1A (R51); VCVT is fn 0x00 + t, VQNT fn 0x10 + t. -/
def decV1a (w : BitVec 32) : Except (BitVec 8) Instr :=
  match (fld w 0 8).toNat with
  | 0x20 => decLeaf (true) (true) (decide ((fld w 21 5).toNat ≤ 24) && decide ((fld w 16 5).toNat ≤ 24) && decide ((fld w 11 5).toNat ≤ 24)) (.vdq (fld w 21 5) (fld w 16 5) (fld w 11 5) (fld w 8 3))
  | 0x28 => decLeaf (true) (true) (decide ((fld w 21 5).toNat ≤ 24) && decide ((fld w 16 5).toNat ≤ 24) && decide ((fld w 11 5).toNat ≤ 24)) (.vcbd (fld w 21 5) (fld w 16 5) (fld w 11 5) (fld w 8 3))
  | 0x30 => decLeaf (true) (true) (decide ((fld w 21 5).toNat ≤ 24) && decide ((fld w 16 5).toNat ≤ 24) && decide ((fld w 11 5).toNat ≤ 24)) (.vpack (fld w 21 5) (fld w 16 5) (fld w 11 5) (fld w 8 3))
  | 0x31 => decLeaf (true) (fld w 11 5 == 0) (decide ((fld w 21 5).toNat ≤ 24) && decide ((fld w 16 5).toNat ≤ 24)) (.vunpkL (fld w 21 5) (fld w 16 5) (fld w 8 3))
  | 0x32 => decLeaf (true) (fld w 11 5 == 0) (decide ((fld w 21 5).toNat ≤ 24) && decide ((fld w 16 5).toNat ≤ 24)) (.vunpkH (fld w 21 5) (fld w 16 5) (fld w 8 3))
  | _ => if fld w 4 4 = 0x0#4 then decLeaf (decide (1 ≤ (fld w 0 4).toNat ∧ (fld w 0 4).toNat ≤ 12)) (fld w 11 5 == 0) (decide ((fld w 21 5).toNat ≤ 24) && decide ((fld w 16 5).toNat ≤ 24)) (.vcvt (fld w 21 5) (fld w 16 5) (fld w 8 3) (fld w 0 4))
    else if fld w 4 4 = 0x1#4 then decLeaf (decide (7 ≤ (fld w 0 4).toNat ∧ (fld w 0 4).toNat ≤ 10)) (fld w 8 3 == 0) (decide ((fld w 21 5).toNat ≤ 24) && decide ((fld w 16 5).toNat ≤ 24) && decide ((fld w 11 5).toNat ≤ 24)) (.vqnt (fld w 21 5) (fld w 16 5) (fld w 11 5) (fld w 0 4))
    else .error 0x02#8

/-- Major 0x1B (R51). -/
def decV1b (w : BitVec 32) : Except (BitVec 8) Instr :=
  match (fld w 0 8).toNat with
  | 0x00 => decLeaf (true) (fld w 11 5 == 0) (decide ((fld w 21 5).toNat ≤ 24) && decide ((fld w 16 5).toNat ≤ 24)) (.vredAdd (fld w 21 5) (fld w 16 5) (fld w 8 3))
  | 0x01 => decLeaf (true) (fld w 11 5 == 0) (decide ((fld w 21 5).toNat ≤ 24) && decide ((fld w 16 5).toNat ≤ 24)) (.vredMin (fld w 21 5) (fld w 16 5) (fld w 8 3))
  | 0x02 => decLeaf (true) (fld w 11 5 == 0) (decide ((fld w 21 5).toNat ≤ 24) && decide ((fld w 16 5).toNat ≤ 24)) (.vredMax (fld w 21 5) (fld w 16 5) (fld w 8 3))
  | 0x03 => decLeaf (true) (fld w 11 5 == 0) (decide ((fld w 21 5).toNat ≤ 24) && decide ((fld w 16 5).toNat ≤ 24)) (.vredAnd (fld w 21 5) (fld w 16 5) (fld w 8 3))
  | 0x04 => decLeaf (true) (fld w 11 5 == 0) (decide ((fld w 21 5).toNat ≤ 24) && decide ((fld w 16 5).toNat ≤ 24)) (.vredOr (fld w 21 5) (fld w 16 5) (fld w 8 3))
  | 0x05 => decLeaf (true) (fld w 11 5 == 0) (decide ((fld w 21 5).toNat ≤ 24) && decide ((fld w 16 5).toNat ≤ 24)) (.vredXor (fld w 21 5) (fld w 16 5) (fld w 8 3))
  | 0x08 => decLeaf (true) (fld w 11 5 == 0) (decide ((fld w 21 5).toNat ≤ 24) && decide ((fld w 16 5).toNat ≤ 24)) (.vscanAdd (fld w 21 5) (fld w 16 5) (fld w 8 3))
  | 0x09 => decLeaf (true) (fld w 11 5 == 0) (decide ((fld w 21 5).toNat ≤ 24) && decide ((fld w 16 5).toNat ≤ 24)) (.vscanMin (fld w 21 5) (fld w 16 5) (fld w 8 3))
  | 0x0A => decLeaf (true) (fld w 11 5 == 0) (decide ((fld w 21 5).toNat ≤ 24) && decide ((fld w 16 5).toNat ≤ 24)) (.vscanMax (fld w 21 5) (fld w 16 5) (fld w 8 3))
  | 0x0B => decLeaf (true) (fld w 11 5 == 0) (decide ((fld w 21 5).toNat ≤ 24) && decide ((fld w 16 5).toNat ≤ 24)) (.vscanAnd (fld w 21 5) (fld w 16 5) (fld w 8 3))
  | 0x0C => decLeaf (true) (fld w 11 5 == 0) (decide ((fld w 21 5).toNat ≤ 24) && decide ((fld w 16 5).toNat ≤ 24)) (.vscanOr (fld w 21 5) (fld w 16 5) (fld w 8 3))
  | 0x0D => decLeaf (true) (fld w 11 5 == 0) (decide ((fld w 21 5).toNat ≤ 24) && decide ((fld w 16 5).toNat ≤ 24)) (.vscanXor (fld w 21 5) (fld w 16 5) (fld w 8 3))
  | 0x10 => decLeaf (true) (true) (decide ((fld w 21 5).toNat ≤ 24) && decide ((fld w 16 5).toNat ≤ 24) && decide ((fld w 11 5).toNat ≤ 24)) (.vperm (fld w 21 5) (fld w 16 5) (fld w 11 5) (fld w 8 3))
  | 0x11 => decLeaf (true) (true) (decide ((fld w 21 5).toNat ≤ 24) && decide ((fld w 16 5).toNat ≤ 24)) (.vshf (fld w 21 5) (fld w 16 5) (fld w 11 5) (fld w 8 3))
  | _ => .error 0x02#8

/-- Major 0x1C (R51). -/
def decV1c (w : BitVec 32) : Except (BitVec 8) Instr :=
  match (fld w 0 8).toNat with
  | 0x00 => decLeaf (true) (fld w 11 5 == 0) (decide ((fld w 21 5).toNat ≤ 24) && decide ((fld w 16 5).toNat ≤ 24)) (.vrcp (fld w 21 5) (fld w 16 5) (fld w 8 3))
  | 0x01 => decLeaf (true) (fld w 11 5 == 0) (decide ((fld w 21 5).toNat ≤ 24) && decide ((fld w 16 5).toNat ≤ 24)) (.vrsq (fld w 21 5) (fld w 16 5) (fld w 8 3))
  | 0x02 => decLeaf (true) (fld w 11 5 == 0) (decide ((fld w 21 5).toNat ≤ 24) && decide ((fld w 16 5).toNat ≤ 24)) (.vex2 (fld w 21 5) (fld w 16 5) (fld w 8 3))
  | 0x03 => decLeaf (true) (fld w 11 5 == 0) (decide ((fld w 21 5).toNat ≤ 24) && decide ((fld w 16 5).toNat ≤ 24)) (.vlg2 (fld w 21 5) (fld w 16 5) (fld w 8 3))
  | _ => .error 0x02#8

/-- Major 0x1F: mask instructions (R51). -/
def decV1f (w : BitVec 32) : Except (BitVec 8) Instr :=
  match (fld w 0 8).toNat with
  | 0x00 => decLeaf (true) (fld w 8 3 == 0 && fld w 14 2 == 0 && fld w 19 2 == 0 && fld w 24 2 == 0) (true) (.kand (fld w 21 3) (fld w 16 3) (fld w 11 3))
  | 0x01 => decLeaf (true) (fld w 8 3 == 0 && fld w 14 2 == 0 && fld w 19 2 == 0 && fld w 24 2 == 0) (true) (.kor (fld w 21 3) (fld w 16 3) (fld w 11 3))
  | 0x02 => decLeaf (true) (fld w 8 3 == 0 && fld w 14 2 == 0 && fld w 19 2 == 0 && fld w 24 2 == 0) (true) (.kxor (fld w 21 3) (fld w 16 3) (fld w 11 3))
  | 0x03 => decLeaf (true) (fld w 8 8 == 0 && fld w 19 2 == 0 && fld w 24 2 == 0) (true) (.knot (fld w 21 3) (fld w 16 3))
  | 0x04 => decLeaf (true) (fld w 8 8 == 0 && fld w 19 2 == 0 && fld w 24 2 == 0) (true) (.kmovMaskToMask (fld w 21 3) (fld w 16 3))
  | 0x05 => decLeaf (true) (fld w 8 8 == 0 && fld w 20 1 == 0 && fld w 24 2 == 0) (true) (.kmovScalarToMask (fld w 21 3) (fld w 16 4))
  | 0x06 => decLeaf (true) (fld w 8 8 == 0 && fld w 19 2 == 0 && fld w 25 1 == 0) (true) (.kmovMaskToScalar (fld w 21 4) (fld w 16 3))
  | 0x08 => decLeaf (true) (fld w 8 8 == 0 && fld w 19 2 == 0 && fld w 25 1 == 0) (true) (.kpop (fld w 21 4) (fld w 16 3))
  | 0x09 => decLeaf (true) (fld w 8 8 == 0 && fld w 19 2 == 0 && fld w 25 1 == 0) (true) (.kff (fld w 21 4) (fld w 16 3))
  | _ => .error 0x02#8

/-- Major 0x1D: mode selects; space 3 is reserved; unit mode has no ix; vt names v0 to v15 (R52, R16). -/
def decVld (w : BitVec 32) : Except (BitVec 8) Instr :=
  match (fld w 8 2).toNat with
  | 0 => decLeaf (fld w 6 2 != 3#2) (fld w 13 4 == 0) (decide ((fld w 21 5).toNat ≤ 15)) (.vld (fld w 21 5) (fld w 17 4) (fld w 10 3) (fld w 6 2) (fld w 0 6))
  | 1 => decLeaf (fld w 6 2 != 3#2) (true) (decide ((fld w 21 5).toNat ≤ 15)) (.vlds (fld w 21 5) (fld w 17 4) (fld w 13 4) (fld w 10 3) (fld w 6 2) (fld w 0 6))
  | 2 => decLeaf (fld w 6 2 != 3#2) (true) (decide ((fld w 21 5).toNat ≤ 15)) (.vgth (fld w 21 5) (fld w 17 4) (fld w 13 4) (fld w 10 3) (fld w 6 2) (fld w 0 6))
  | _ => .error 0x02#8

/-- Major 0x1E: mode selects; space 3 is reserved; unit mode has no ix; vt names v0 to v15 (R52, R16). -/
def decVst (w : BitVec 32) : Except (BitVec 8) Instr :=
  match (fld w 8 2).toNat with
  | 0 => decLeaf (fld w 6 2 != 3#2) (fld w 13 4 == 0) (decide ((fld w 21 5).toNat ≤ 15)) (.vst (fld w 21 5) (fld w 17 4) (fld w 10 3) (fld w 6 2) (fld w 0 6))
  | 1 => decLeaf (fld w 6 2 != 3#2) (true) (decide ((fld w 21 5).toNat ≤ 15)) (.vsts (fld w 21 5) (fld w 17 4) (fld w 13 4) (fld w 10 3) (fld w 6 2) (fld w 0 6))
  | 2 => decLeaf (fld w 6 2 != 3#2) (true) (decide ((fld w 21 5).toNat ≤ 15)) (.vsct (fld w 21 5) (fld w 17 4) (fld w 13 4) (fld w 10 3) (fld w 6 2) (fld w 0 6))
  | _ => .error 0x02#8

/-- Major 0x20: gang matrix instructions (R53 Table 19, flags by their descriptions). -/
def decT20 (w : BitVec 32) : Except (BitVec 8) Instr :=
  match (fld w 8 4).toNat with
  | 0x00 => decLeaf (true) (fld w 1 7 == 0 && (fld w 0 1 == 1#1 || fld w 20 3 == 0#3)) (true) (.mxp (fld w 23 3) (fld w 20 3) (fld w 16 4) (fld w 12 4) (fld w 0 1))
  | 0x01 => decLeaf (decide ((fld w 0 3).toNat ≤ 4)) (fld w 4 4 == 0 && fld w 20 3 == 0) (true) (.dec (fld w 23 3) (fld w 16 4) (fld w 12 4) (fld w 3 1) (fld w 0 3))
  | 0x02 => decLeaf (true) (fld w 1 7 == 0 && fld w 12 4 == 0 && fld w 20 3 == 0) (true) (.phld (fld w 23 3) (fld w 16 4) (fld w 0 1))
  | 0x03 => decLeaf (true) (fld w 1 7 == 0 && fld w 12 14 == 0) (true) (.phsw (fld w 0 1))
  | 0x04 => decLeaf (true) (fld w 0 8 == 0 && fld w 16 4 == 0 && fld w 23 3 == 0) (true) (.phrd (fld w 20 3) (fld w 12 4))
  | 0x05 => decLeaf (true) (fld w 0 8 == 0 && fld w 20 3 == 0) (true) (.phwr (fld w 23 3) (fld w 16 4) (fld w 12 4))
  | 0x06 => decLeaf (true) (fld w 1 7 == 0) (true) (.unf (fld w 23 3) (fld w 20 3) (fld w 16 4) (fld w 12 4) (fld w 0 1))
  | 0x07 => decLeaf ((fld w 0 4 == 1#4 || fld w 0 4 == 3#4 || fld w 0 4 == 4#4 || fld w 0 4 == 5#4)) (fld w 5 3 == 0 && fld w 16 4 == 0 && fld w 23 3 == 0) (true) (.accrd (fld w 20 3) (fld w 12 4) (fld w 4 1) (fld w 0 4))
  | 0x08 => decLeaf (true) (fld w 1 7 == 0 && fld w 16 10 == 0) (true) (.accclr (fld w 12 4) (fld w 0 1))
  | 0x09 => decLeaf (true) (fld w 1 7 == 0 && fld w 16 10 == 0) (true) (.accpro (fld w 12 4) (fld w 0 1))
  | 0x0A => decLeaf (decide (7 ≤ (fld w 0 4).toNat ∧ (fld w 0 4).toNat ≤ 10)) (fld w 5 3 == 0 && fld w 16 4 == 0 && fld w 23 3 == 0) (true) (.accexp (fld w 20 3) (fld w 12 4) (fld w 4 1) (fld w 0 4))
  | 0x0B => decLeaf (true) (fld w 0 8 == 0 && fld w 16 10 == 0) (true) (.cntrd (fld w 12 4))
  | 0x0C => decLeaf (true) (fld w 1 7 == 0 && fld w 12 14 == 0) (true) (.probe (fld w 0 1))
  | _ => .error 0x02#8

/-- Major 0x21: rings (R53). -/
def decT21 (w : BitVec 32) : Except (BitVec 8) Instr :=
  match (fld w 8 4).toNat with
  | 0x00 => decLeaf (true) (fld w 0 8 == 0 && fld w 16 7 == 0) (true) (.qcfg (fld w 23 3) (fld w 12 4))
  | 0x01 => decLeaf (true) (fld w 0 8 == 0 && fld w 12 4 == 0 && fld w 20 3 == 0) (true) (.qadvP (fld w 23 3) (fld w 16 4))
  | 0x02 => decLeaf (true) (fld w 0 8 == 0 && fld w 12 4 == 0 && fld w 20 3 == 0) (true) (.qadvC (fld w 23 3) (fld w 16 4))
  | 0x03 => decLeaf (true) (fld w 0 8 == 0 && fld w 16 7 == 0) (true) (.qstat (fld w 23 3) (fld w 12 4))
  | 0x04 => decLeaf (true) (fld w 0 8 == 0 && fld w 12 4 == 0 && fld w 20 3 == 0) (true) (.qwait (fld w 23 3) (fld w 16 4))
  | _ => .error 0x02#8

/-- Major 0x28: copy commands (R54, R223). -/
def decCpy (w : BitVec 32) : Except (BitVec 8) Instr :=
  match (fld w 4 7).toNat with
  | 0x00 => decLeaf (true) ((fld w 3 1 == 1#1 || fld w 0 3 == 0#3)) (true) (.cpy (fld w 23 3) (fld w 19 4) (fld w 15 4) (fld w 11 4) (fld w 3 1) (fld w 0 3))
  | 0x01 => decLeaf (true) (fld w 0 4 == 0 && fld w 11 4 == 0 && fld w 19 4 == 0) (true) (.cpyStep (fld w 23 3) (fld w 15 4))
  | 0x02 => decLeaf (true) (fld w 0 4 == 0 && fld w 11 4 == 0 && fld w 19 4 == 0) (true) (.cpyWm (fld w 23 3) (fld w 15 4))
  | 0x03 => decLeaf (true) (fld w 0 4 == 0 && fld w 11 8 == 0) (true) (.cpySum (fld w 23 3) (fld w 19 4))
  | 0x04 => decLeaf (true) (fld w 0 4 == 0 && fld w 11 12 == 0) (true) (.cpyStop (fld w 23 3))
  | _ => .error 0x02#8

/-- Major 0x2C: the network field and the payload count select (R54, R226). -/
def decSend (w : BitVec 32) : Except (BitVec 8) Instr :=
  match (fld w 23 3).toNat with
  | 0 => decLeaf (decide ((fld w 4 4).toNat ≤ 8)) (fld w 8 3 == 0 && (fld w 3 1 == 1#1 || fld w 0 3 == 0#3)) (true) (.sendReq (fld w 19 4) (fld w 15 4) (fld w 11 4) (fld w 4 4) (fld w 3 1) (fld w 0 3))
  | 1 => decLeaf (decide ((fld w 4 4).toNat ≤ 8)) (fld w 8 3 == 0 && (fld w 3 1 == 1#1 || fld w 0 3 == 0#3)) (true) (.sendRpy (fld w 19 4) (fld w 15 4) (fld w 11 4) (fld w 4 4) (fld w 3 1) (fld w 0 3))
  | _ => .error 0x02#8

/-- Major 0x2D: tasks (R54). -/
def decTask (w : BitVec 32) : Except (BitVec 8) Instr :=
  match (fld w 4 7).toNat with
  | 0x00 => decLeaf (true) (fld w 0 4 == 0 && fld w 11 4 == 0 && fld w 19 7 == 0) (true) (.migr (fld w 15 4))
  | 0x01 => decLeaf (true) (fld w 23 3 == 0 && (fld w 3 1 == 1#1 || fld w 0 3 == 0#3)) (true) (.fork (fld w 19 4) (fld w 15 4) (fld w 11 4) (fld w 3 1) (fld w 0 3))
  | 0x02 => decLeaf (true) (fld w 0 4 == 0 && fld w 11 4 == 0 && fld w 19 7 == 0) (true) (.join (fld w 15 4))
  | 0x03 => decLeaf (true) (fld w 0 4 == 0 && fld w 11 15 == 0) (true) (.tend)
  | 0x04 => decLeaf (true) (fld w 0 4 == 0 && fld w 11 15 == 0) (true) (.yield)
  | 0x05 => decLeaf (true) (fld w 0 4 == 0 && fld w 23 3 == 0) (true) (.spawn (fld w 19 4) (fld w 15 4) (fld w 11 4))
  | _ => .error 0x02#8

/-- Major 0x30: system registers (R55). -/
def decSysReg (w : BitVec 32) : Except (BitVec 8) Instr :=
  match (fld w 0 6).toNat with
  | 0x00 => decLeaf (true) (fld w 18 4 == 0) (true) (.srr (fld w 22 4) (fld w 6 12))
  | 0x01 => decLeaf (true) (fld w 22 4 == 0) (true) (.srw (fld w 18 4) (fld w 6 12))
  | _ => .error 0x02#8

/-- Major 0x31: system instructions (R55). -/
def decSys (w : BitVec 32) : Except (BitVec 8) Instr :=
  match (fld w 0 6).toNat with
  | 0x00 => decLeaf (true) (fld w 11 15 == 0) (true) (.trap (fld w 6 5))
  | 0x01 => decLeaf (true) (fld w 6 20 == 0) (true) (.eret)
  | 0x02 => decLeaf (true) (fld w 6 20 == 0) (true) (.bkpt)
  | 0x03 => decLeaf (true) (fld w 6 16 == 0) (true) (.time (fld w 22 4))
  | 0x04 => decLeaf (true) (fld w 6 20 == 0) (true) (.idle)
  | _ => .error 0x02#8

/-- Major 0x3F: hints (R56 Table 22). -/
def decHint (w : BitVec 32) : Except (BitVec 8) Instr :=
  match (fld w 22 4).toNat with
  | 0x00 => decLeaf (true) (true) (true) (.limmA (fld w 0 22))
  | 0x01 => decLeaf (true) (true) (true) (.limmB (fld w 0 22))
  | 0x02 => decLeaf (decide ((fld w 0 3).toNat ≤ 4)) (fld w 3 19 == 0) (true) (.round (fld w 0 3))
  | 0x03 => decLeaf (true) (fld w 1 21 == 0) (true) (.sat (fld w 0 1))
  | 0x04 => decLeaf (decide ((fld w 0 3).toNat ≤ 4)) (fld w 3 19 == 0) (true) (.scope (fld w 0 3))
  | 0x05 => decLeaf (true) (fld w 0 22 == 0) (true) (.prio)
  | 0x06 => decLeaf (true) (fld w 2 20 == 0) (true) (.cache (fld w 0 2))
  | 0x07 => decLeaf (fld w 0 12 != 0#12) (fld w 12 10 == 0) (true) (.waitn (fld w 0 12))
  | _ => .error 0x02#8

/-- R45 checks 1 to 4 in their order: the instruction of a word, or the cause that the word raises. -/
def decode (w : BitVec 32) : Except (BitVec 8) Instr :=
  match (fld w 26 6).toNat with
  | 0x01 => decAlu w
  | 0x02 => decMul w
  | 0x04 => decLeaf (true) (true) (true) (.addi (fld w 22 4) (fld w 18 4) (fld w 0 18))
  | 0x05 => decLeaf (true) (true) (true) (.andi (fld w 22 4) (fld w 18 4) (fld w 0 18))
  | 0x06 => decLeaf (true) (true) (true) (.ori (fld w 22 4) (fld w 18 4) (fld w 0 18))
  | 0x07 => decLeaf (true) (true) (true) (.xori (fld w 22 4) (fld w 18 4) (fld w 0 18))
  | 0x08 => decLeaf (true) (true) (true) (.slti (fld w 22 4) (fld w 18 4) (fld w 0 18))
  | 0x09 => decLeaf (true) (true) (true) (.sltni (fld w 22 4) (fld w 18 4) (fld w 0 18))
  | 0x0A => decShift w
  | 0x0C => decBranch w
  | 0x0D => decLeaf (true) (true) (true) (.j (fld w 0 26))
  | 0x0E => decLeaf (true) (true) (true) (.jal (fld w 0 26))
  | 0x0F => decJalr w
  | 0x10 => decLeaf (true) (fld w 14 4 == 0 && fld w 22 4 == 0) (true) (.loop (fld w 18 4) (fld w 0 14))
  | 0x11 => decLd w
  | 0x12 => decSt w
  | 0x13 => decAmo w
  | 0x14 => decMop w
  | 0x15 => decSync w
  | 0x16 => decCache w
  | 0x18 => decV18 w
  | 0x19 => decV19 w
  | 0x1A => decV1a w
  | 0x1B => decV1b w
  | 0x1C => decV1c w
  | 0x1D => decVld w
  | 0x1E => decVst w
  | 0x1F => decV1f w
  | 0x20 => decT20 w
  | 0x21 => decT21 w
  | 0x28 => decCpy w
  | 0x2C => decSend w
  | 0x2D => decTask w
  | 0x30 => decSysReg w
  | 0x31 => decSys w
  | 0x3F => decHint w
  | _ => .error 0x01#8

/-- The word of an instruction, from the encoding tables R44 to R56: its fixed bits and its fields, most significant first. A device step has no word. -/
def encode : Instr → Option (BitVec 32)
  | .add rd ra rb => some (0x1#6 ++ rd ++ ra ++ rb ++ 0x0#8 ++ 0x0#6)
  | .sub rd ra rb => some (0x1#6 ++ rd ++ ra ++ rb ++ 0x1#8 ++ 0x0#6)
  | .and rd ra rb => some (0x1#6 ++ rd ++ ra ++ rb ++ 0x2#8 ++ 0x0#6)
  | .or rd ra rb => some (0x1#6 ++ rd ++ ra ++ rb ++ 0x3#8 ++ 0x0#6)
  | .xor rd ra rb => some (0x1#6 ++ rd ++ ra ++ rb ++ 0x4#8 ++ 0x0#6)
  | .andn rd ra rb => some (0x1#6 ++ rd ++ ra ++ rb ++ 0x5#8 ++ 0x0#6)
  | .orn rd ra rb => some (0x1#6 ++ rd ++ ra ++ rb ++ 0x6#8 ++ 0x0#6)
  | .shl rd ra rb => some (0x1#6 ++ rd ++ ra ++ rb ++ 0x8#8 ++ 0x0#6)
  | .shr rd ra rb => some (0x1#6 ++ rd ++ ra ++ rb ++ 0x9#8 ++ 0x0#6)
  | .sra rd ra rb => some (0x1#6 ++ rd ++ ra ++ rb ++ 0xA#8 ++ 0x0#6)
  | .rol rd ra rb => some (0x1#6 ++ rd ++ ra ++ rb ++ 0xB#8 ++ 0x0#6)
  | .min rd ra rb => some (0x1#6 ++ rd ++ ra ++ rb ++ 0x10#8 ++ 0x0#6)
  | .max rd ra rb => some (0x1#6 ++ rd ++ ra ++ rb ++ 0x11#8 ++ 0x0#6)
  | .minn rd ra rb => some (0x1#6 ++ rd ++ ra ++ rb ++ 0x12#8 ++ 0x0#6)
  | .maxn rd ra rb => some (0x1#6 ++ rd ++ ra ++ rb ++ 0x13#8 ++ 0x0#6)
  | .slt rd ra rb => some (0x1#6 ++ rd ++ ra ++ rb ++ 0x14#8 ++ 0x0#6)
  | .sltn rd ra rb => some (0x1#6 ++ rd ++ ra ++ rb ++ 0x15#8 ++ 0x0#6)
  | .seq rd ra rb => some (0x1#6 ++ rd ++ ra ++ rb ++ 0x16#8 ++ 0x0#6)
  | .clz rd ra => some (0x1#6 ++ rd ++ ra ++ 0x0#4 ++ 0x18#8 ++ 0x0#6)
  | .ctz rd ra => some (0x1#6 ++ rd ++ ra ++ 0x0#4 ++ 0x19#8 ++ 0x0#6)
  | .popc rd ra => some (0x1#6 ++ rd ++ ra ++ 0x0#4 ++ 0x1A#8 ++ 0x0#6)
  | .sext rd ra sz => some (0x1#6 ++ rd ++ ra ++ 0x0#2 ++ sz ++ 0x1C#8 ++ 0x0#6)
  | .zext rd ra sz => some (0x1#6 ++ rd ++ ra ++ 0x0#2 ++ sz ++ 0x1D#8 ++ 0x0#6)
  | .bfx rd ra rb => some (0x1#6 ++ rd ++ ra ++ rb ++ 0x20#8 ++ 0x0#6)
  | .bfxs rd ra rb => some (0x1#6 ++ rd ++ ra ++ rb ++ 0x21#8 ++ 0x0#6)
  | .bfi rd ra rb => some (0x1#6 ++ rd ++ ra ++ rb ++ 0x22#8 ++ 0x0#6)
  | .csel rd ra rb => some (0x1#6 ++ rd ++ ra ++ rb ++ 0x28#8 ++ 0x0#6)
  | .lea rd ra rb sh => some (0x1#6 ++ rd ++ ra ++ rb ++ 0xC#6 ++ sh ++ 0x0#6)
  | .mul rd ra rb => some (0x2#6 ++ rd ++ ra ++ rb ++ 0x0#8 ++ 0x0#6)
  | .mulh rd ra rb => some (0x2#6 ++ rd ++ ra ++ rb ++ 0x1#8 ++ 0x0#6)
  | .mulhn rd ra rb => some (0x2#6 ++ rd ++ ra ++ rb ++ 0x2#8 ++ 0x0#6)
  | .div rd ra rb => some (0x2#6 ++ rd ++ ra ++ rb ++ 0x4#8 ++ 0x0#6)
  | .divn rd ra rb => some (0x2#6 ++ rd ++ ra ++ rb ++ 0x5#8 ++ 0x0#6)
  | .rem rd ra rb => some (0x2#6 ++ rd ++ ra ++ rb ++ 0x6#8 ++ 0x0#6)
  | .remn rd ra rb => some (0x2#6 ++ rd ++ ra ++ rb ++ 0x7#8 ++ 0x0#6)
  | .addi rd ra imm => some (0x4#6 ++ rd ++ ra ++ imm)
  | .andi rd ra imm => some (0x5#6 ++ rd ++ ra ++ imm)
  | .ori rd ra imm => some (0x6#6 ++ rd ++ ra ++ imm)
  | .xori rd ra imm => some (0x7#6 ++ rd ++ ra ++ imm)
  | .slti rd ra imm => some (0x8#6 ++ rd ++ ra ++ imm)
  | .sltni rd ra imm => some (0x9#6 ++ rd ++ ra ++ imm)
  | .shli rd ra n => some (0xA#6 ++ rd ++ ra ++ 0x0#2 ++ 0x0#10 ++ n)
  | .shri rd ra n => some (0xA#6 ++ rd ++ ra ++ 0x1#2 ++ 0x0#10 ++ n)
  | .srai rd ra n => some (0xA#6 ++ rd ++ ra ++ 0x2#2 ++ 0x0#10 ++ n)
  | .lih rd ra imm => some (0xA#6 ++ rd ++ ra ++ 0x3#2 ++ imm)
  | .bEq ra rb off => some (0xC#6 ++ 0x0#4 ++ ra ++ rb ++ off)
  | .bNe ra rb off => some (0xC#6 ++ 0x1#4 ++ ra ++ rb ++ off)
  | .bLt ra rb off => some (0xC#6 ++ 0x2#4 ++ ra ++ rb ++ off)
  | .bGe ra rb off => some (0xC#6 ++ 0x3#4 ++ ra ++ rb ++ off)
  | .bLtn ra rb off => some (0xC#6 ++ 0x4#4 ++ ra ++ rb ++ off)
  | .bGen ra rb off => some (0xC#6 ++ 0x5#4 ++ ra ++ rb ++ off)
  | .j off => some (0xD#6 ++ off)
  | .jal off => some (0xE#6 ++ off)
  | .jalr rd ra imm => some (0xF#6 ++ rd ++ ra ++ imm)
  | .jr ra imm => some (0xF#6 ++ 0x0#4 ++ ra ++ imm)
  | .loop ra off => some (0x10#6 ++ 0x0#4 ++ ra ++ 0x0#4 ++ off)
  | .ld rd ra sz ord sp off => some (0x11#6 ++ rd ++ ra ++ sz ++ ord ++ sp ++ off)
  | .st rd ra sz ord sp off => some (0x12#6 ++ rd ++ ra ++ sz ++ ord ++ sp ++ off)
  | .pf ra off => some (0x16#6 ++ 0x0#4 ++ ra ++ 0x0#4 ++ 0x0#2 ++ off)
  | .cfl ra off => some (0x16#6 ++ 0x1#4 ++ ra ++ 0x0#4 ++ 0x0#2 ++ off)
  | .cinv ra off => some (0x16#6 ++ 0x2#4 ++ ra ++ 0x0#4 ++ 0x0#2 ++ off)
  | .amoAdd rd ra rb ord dw => some (0x13#6 ++ rd ++ ra ++ rb ++ ord ++ 0x1#1 ++ dw ++ 0x0#4 ++ 0x0#6)
  | .amoAnd rd ra rb ord dw => some (0x13#6 ++ rd ++ ra ++ rb ++ ord ++ 0x1#1 ++ dw ++ 0x1#4 ++ 0x0#6)
  | .amoOr rd ra rb ord dw => some (0x13#6 ++ rd ++ ra ++ rb ++ ord ++ 0x1#1 ++ dw ++ 0x2#4 ++ 0x0#6)
  | .amoXor rd ra rb ord dw => some (0x13#6 ++ rd ++ ra ++ rb ++ ord ++ 0x1#1 ++ dw ++ 0x3#4 ++ 0x0#6)
  | .amoMin rd ra rb ord dw => some (0x13#6 ++ rd ++ ra ++ rb ++ ord ++ 0x1#1 ++ dw ++ 0x4#4 ++ 0x0#6)
  | .amoMax rd ra rb ord dw => some (0x13#6 ++ rd ++ ra ++ rb ++ ord ++ 0x1#1 ++ dw ++ 0x5#4 ++ 0x0#6)
  | .amoMinn rd ra rb ord dw => some (0x13#6 ++ rd ++ ra ++ rb ++ ord ++ 0x1#1 ++ dw ++ 0x6#4 ++ 0x0#6)
  | .amoMaxn rd ra rb ord dw => some (0x13#6 ++ rd ++ ra ++ rb ++ ord ++ 0x1#1 ++ dw ++ 0x7#4 ++ 0x0#6)
  | .amoSwap rd ra rb ord dw => some (0x13#6 ++ rd ++ ra ++ rb ++ ord ++ 0x1#1 ++ dw ++ 0x8#4 ++ 0x0#6)
  | .cas rd ra rb ord dw => some (0x13#6 ++ rd ++ ra ++ rb ++ ord ++ 0x1#1 ++ dw ++ 0x9#4 ++ 0x0#6)
  | .mopRedAdd ra rb dw => some (0x14#6 ++ 0x0#4 ++ ra ++ rb ++ 0x0#2 ++ 0x1#1 ++ dw ++ 0x0#4 ++ 0x0#6)
  | .mopRedAnd ra rb dw => some (0x14#6 ++ 0x0#4 ++ ra ++ rb ++ 0x0#2 ++ 0x1#1 ++ dw ++ 0x1#4 ++ 0x0#6)
  | .mopRedOr ra rb dw => some (0x14#6 ++ 0x0#4 ++ ra ++ rb ++ 0x0#2 ++ 0x1#1 ++ dw ++ 0x2#4 ++ 0x0#6)
  | .mopRedXor ra rb dw => some (0x14#6 ++ 0x0#4 ++ ra ++ rb ++ 0x0#2 ++ 0x1#1 ++ dw ++ 0x3#4 ++ 0x0#6)
  | .mopRedMin ra rb dw => some (0x14#6 ++ 0x0#4 ++ ra ++ rb ++ 0x0#2 ++ 0x1#1 ++ dw ++ 0x4#4 ++ 0x0#6)
  | .mopRedMax ra rb dw => some (0x14#6 ++ 0x0#4 ++ ra ++ rb ++ 0x0#2 ++ 0x1#1 ++ dw ++ 0x5#4 ++ 0x0#6)
  | .mopRedMinn ra rb dw => some (0x14#6 ++ 0x0#4 ++ ra ++ rb ++ 0x0#2 ++ 0x1#1 ++ dw ++ 0x6#4 ++ 0x0#6)
  | .mopRedMaxn ra rb dw => some (0x14#6 ++ 0x0#4 ++ ra ++ rb ++ 0x0#2 ++ 0x1#1 ++ dw ++ 0x7#4 ++ 0x0#6)
  | .mopCas rd ra rb dw => some (0x14#6 ++ rd ++ ra ++ rb ++ 0x1#2 ++ 0x1#1 ++ dw ++ 0x0#10)
  | .mopSac rd ra rb dw => some (0x14#6 ++ rd ++ ra ++ rb ++ 0x2#2 ++ 0x1#1 ++ dw ++ 0x0#10)
  | .gth rd ra rb => some (0x14#6 ++ rd ++ ra ++ rb ++ 0x3#2 ++ 0x0#12)
  | .fence => some (0x15#6 ++ 0x0#12 ++ 0x0#8 ++ 0x0#6)
  | .fenceG => some (0x15#6 ++ 0x0#12 ++ 0x1#8 ++ 0x0#6)
  | .fenceB => some (0x15#6 ++ 0x0#12 ++ 0x2#8 ++ 0x0#6)
  | .commit => some (0x15#6 ++ 0x0#12 ++ 0x8#8 ++ 0x0#6)
  | .waita rd ra rb => some (0x15#6 ++ rd ++ ra ++ rb ++ 0x9#8 ++ 0x0#6)
  | .waitany rd ra => some (0x15#6 ++ rd ++ ra ++ 0x0#4 ++ 0xA#8 ++ 0x0#6)
  | .refl rd => some (0x15#6 ++ rd ++ 0x0#8 ++ 0xB#8 ++ 0x0#6)
  | .vadd vd va vb km => some (0x18#6 ++ vd ++ va ++ vb ++ km ++ 0x0#8)
  | .vsub vd va vb km => some (0x18#6 ++ vd ++ va ++ vb ++ km ++ 0x1#8)
  | .vmul vd va vb km => some (0x18#6 ++ vd ++ va ++ vb ++ km ++ 0x2#8)
  | .vmin vd va vb km => some (0x18#6 ++ vd ++ va ++ vb ++ km ++ 0x3#8)
  | .vmax vd va vb km => some (0x18#6 ++ vd ++ va ++ vb ++ km ++ 0x4#8)
  | .vabs vd va km => some (0x18#6 ++ vd ++ va ++ 0x0#5 ++ km ++ 0x5#8)
  | .vneg vd va km => some (0x18#6 ++ vd ++ va ++ 0x0#5 ++ km ++ 0x6#8)
  | .vfma vd va vb km n => some (0x18#6 ++ vd ++ va ++ vb ++ km ++ 0x4#5 ++ n)
  | .vand vd va vb km => some (0x18#6 ++ vd ++ va ++ vb ++ km ++ 0x8#8)
  | .vor vd va vb km => some (0x18#6 ++ vd ++ va ++ vb ++ km ++ 0x9#8)
  | .vxor vd va vb km => some (0x18#6 ++ vd ++ va ++ vb ++ km ++ 0xA#8)
  | .vshl vd va vb km => some (0x18#6 ++ vd ++ va ++ vb ++ km ++ 0xC#8)
  | .vshr vd va vb km => some (0x18#6 ++ vd ++ va ++ vb ++ km ++ 0xD#8)
  | .vsra vd va vb km => some (0x18#6 ++ vd ++ va ++ vb ++ km ++ 0xE#8)
  | .vcmpEq kd va vb km => some (0x19#6 ++ 0x0#2 ++ kd ++ va ++ vb ++ km ++ 0x0#8)
  | .vcmpNe kd va vb km => some (0x19#6 ++ 0x0#2 ++ kd ++ va ++ vb ++ km ++ 0x1#8)
  | .vcmpLt kd va vb km => some (0x19#6 ++ 0x0#2 ++ kd ++ va ++ vb ++ km ++ 0x2#8)
  | .vcmpLe kd va vb km => some (0x19#6 ++ 0x0#2 ++ kd ++ va ++ vb ++ km ++ 0x3#8)
  | .vcmpGt kd va vb km => some (0x19#6 ++ 0x0#2 ++ kd ++ va ++ vb ++ km ++ 0x4#8)
  | .vcmpGe kd va vb km => some (0x19#6 ++ 0x0#2 ++ kd ++ va ++ vb ++ km ++ 0x5#8)
  | .vsel vd va vb km n => some (0x19#6 ++ vd ++ va ++ vb ++ km ++ 0x1#5 ++ n)
  | .vmov vd va km => some (0x19#6 ++ vd ++ va ++ 0x0#5 ++ km ++ 0x10#8)
  | .vidx vd km => some (0x19#6 ++ vd ++ 0x0#10 ++ km ++ 0x18#8)
  | .vbc vd ra km tg => some (0x19#6 ++ vd ++ 0x0#1 ++ ra ++ 0x0#5 ++ km ++ 0x2#4 ++ tg)
  | .vext rd va lane => some (0x19#6 ++ 0x0#1 ++ rd ++ va ++ lane ++ 0x0#3 ++ 0x30#8)
  | .vcvt vd va km tg => some (0x1A#6 ++ vd ++ va ++ 0x0#5 ++ km ++ 0x0#4 ++ tg)
  | .vqnt vd va vb tg => some (0x1A#6 ++ vd ++ va ++ vb ++ 0x0#3 ++ 0x1#4 ++ tg)
  | .vdq vd va vb km => some (0x1A#6 ++ vd ++ va ++ vb ++ km ++ 0x20#8)
  | .vcbd vd va vb km => some (0x1A#6 ++ vd ++ va ++ vb ++ km ++ 0x28#8)
  | .vpack vd va vb km => some (0x1A#6 ++ vd ++ va ++ vb ++ km ++ 0x30#8)
  | .vunpkL vd va km => some (0x1A#6 ++ vd ++ va ++ 0x0#5 ++ km ++ 0x31#8)
  | .vunpkH vd va km => some (0x1A#6 ++ vd ++ va ++ 0x0#5 ++ km ++ 0x32#8)
  | .vredAdd vd va km => some (0x1B#6 ++ vd ++ va ++ 0x0#5 ++ km ++ 0x0#8)
  | .vredMin vd va km => some (0x1B#6 ++ vd ++ va ++ 0x0#5 ++ km ++ 0x1#8)
  | .vredMax vd va km => some (0x1B#6 ++ vd ++ va ++ 0x0#5 ++ km ++ 0x2#8)
  | .vredAnd vd va km => some (0x1B#6 ++ vd ++ va ++ 0x0#5 ++ km ++ 0x3#8)
  | .vredOr vd va km => some (0x1B#6 ++ vd ++ va ++ 0x0#5 ++ km ++ 0x4#8)
  | .vredXor vd va km => some (0x1B#6 ++ vd ++ va ++ 0x0#5 ++ km ++ 0x5#8)
  | .vscanAdd vd va km => some (0x1B#6 ++ vd ++ va ++ 0x0#5 ++ km ++ 0x8#8)
  | .vscanMin vd va km => some (0x1B#6 ++ vd ++ va ++ 0x0#5 ++ km ++ 0x9#8)
  | .vscanMax vd va km => some (0x1B#6 ++ vd ++ va ++ 0x0#5 ++ km ++ 0xA#8)
  | .vscanAnd vd va km => some (0x1B#6 ++ vd ++ va ++ 0x0#5 ++ km ++ 0xB#8)
  | .vscanOr vd va km => some (0x1B#6 ++ vd ++ va ++ 0x0#5 ++ km ++ 0xC#8)
  | .vscanXor vd va km => some (0x1B#6 ++ vd ++ va ++ 0x0#5 ++ km ++ 0xD#8)
  | .vperm vd va vb km => some (0x1B#6 ++ vd ++ va ++ vb ++ km ++ 0x10#8)
  | .vshf vd va n km => some (0x1B#6 ++ vd ++ va ++ n ++ km ++ 0x11#8)
  | .vrcp vd va km => some (0x1C#6 ++ vd ++ va ++ 0x0#5 ++ km ++ 0x0#8)
  | .vrsq vd va km => some (0x1C#6 ++ vd ++ va ++ 0x0#5 ++ km ++ 0x1#8)
  | .vex2 vd va km => some (0x1C#6 ++ vd ++ va ++ 0x0#5 ++ km ++ 0x2#8)
  | .vlg2 vd va km => some (0x1C#6 ++ vd ++ va ++ 0x0#5 ++ km ++ 0x3#8)
  | .kand kd ka kb => some (0x1F#6 ++ 0x0#2 ++ kd ++ 0x0#2 ++ ka ++ 0x0#2 ++ kb ++ 0x0#3 ++ 0x0#8)
  | .kor kd ka kb => some (0x1F#6 ++ 0x0#2 ++ kd ++ 0x0#2 ++ ka ++ 0x0#2 ++ kb ++ 0x0#3 ++ 0x1#8)
  | .kxor kd ka kb => some (0x1F#6 ++ 0x0#2 ++ kd ++ 0x0#2 ++ ka ++ 0x0#2 ++ kb ++ 0x0#3 ++ 0x2#8)
  | .knot kd ka => some (0x1F#6 ++ 0x0#2 ++ kd ++ 0x0#2 ++ ka ++ 0x0#8 ++ 0x3#8)
  | .kmovMaskToMask kd ka => some (0x1F#6 ++ 0x0#2 ++ kd ++ 0x0#2 ++ ka ++ 0x0#8 ++ 0x4#8)
  | .kmovScalarToMask kd ra => some (0x1F#6 ++ 0x0#2 ++ kd ++ 0x0#1 ++ ra ++ 0x0#8 ++ 0x5#8)
  | .kmovMaskToScalar rd ka => some (0x1F#6 ++ 0x0#1 ++ rd ++ 0x0#2 ++ ka ++ 0x0#8 ++ 0x6#8)
  | .kpop rd ka => some (0x1F#6 ++ 0x0#1 ++ rd ++ 0x0#2 ++ ka ++ 0x0#8 ++ 0x8#8)
  | .kff rd ka => some (0x1F#6 ++ 0x0#1 ++ rd ++ 0x0#2 ++ ka ++ 0x0#8 ++ 0x9#8)
  | .vld vt ra km sp off => some (0x1D#6 ++ vt ++ ra ++ 0x0#4 ++ km ++ 0x0#2 ++ sp ++ off)
  | .vlds vt ra ix km sp off => some (0x1D#6 ++ vt ++ ra ++ ix ++ km ++ 0x1#2 ++ sp ++ off)
  | .vgth vt ra ix km sp off => some (0x1D#6 ++ vt ++ ra ++ ix ++ km ++ 0x2#2 ++ sp ++ off)
  | .vst vt ra km sp off => some (0x1E#6 ++ vt ++ ra ++ 0x0#4 ++ km ++ 0x0#2 ++ sp ++ off)
  | .vsts vt ra ix km sp off => some (0x1E#6 ++ vt ++ ra ++ ix ++ km ++ 0x1#2 ++ sp ++ off)
  | .vsct vt ra ix km sp off => some (0x1E#6 ++ vt ++ ra ++ ix ++ km ++ 0x2#2 ++ sp ++ off)
  | .mxp qa qc n rs chain => some (0x20#6 ++ qa ++ qc ++ n ++ rs ++ 0x0#4 ++ 0x0#7 ++ chain)
  | .dec qa n rs toBank wf => some (0x20#6 ++ qa ++ 0x0#3 ++ n ++ rs ++ 0x1#4 ++ 0x0#4 ++ toBank ++ wf)
  | .phld qa n swap => some (0x20#6 ++ qa ++ 0x0#3 ++ n ++ 0x0#4 ++ 0x2#4 ++ 0x0#7 ++ swap)
  | .phsw settle => some (0x20#6 ++ 0x0#14 ++ 0x3#4 ++ 0x0#7 ++ settle)
  | .phrd qc rs => some (0x20#6 ++ 0x0#3 ++ qc ++ 0x0#4 ++ rs ++ 0x4#4 ++ 0x0#8)
  | .phwr qa n rs => some (0x20#6 ++ qa ++ 0x0#3 ++ n ++ rs ++ 0x5#4 ++ 0x0#8)
  | .unf qa qc n rs adv => some (0x20#6 ++ qa ++ qc ++ n ++ rs ++ 0x6#4 ++ 0x0#7 ++ adv)
  | .accrd qc rs clr tg => some (0x20#6 ++ 0x0#3 ++ qc ++ 0x0#4 ++ rs ++ 0x7#4 ++ 0x0#3 ++ clr ++ tg)
  | .accclr rs cntOnly => some (0x20#6 ++ 0x0#10 ++ rs ++ 0x8#4 ++ 0x0#7 ++ cntOnly)
  | .accpro rs rescale => some (0x20#6 ++ 0x0#10 ++ rs ++ 0x9#4 ++ 0x0#7 ++ rescale)
  | .accexp qc rs clr tg => some (0x20#6 ++ 0x0#3 ++ qc ++ 0x0#4 ++ rs ++ 0xA#4 ++ 0x0#3 ++ clr ++ tg)
  | .cntrd rs => some (0x20#6 ++ 0x0#10 ++ rs ++ 0xB#4 ++ 0x0#8)
  | .probe full => some (0x20#6 ++ 0x0#14 ++ 0xC#4 ++ 0x0#7 ++ full)
  | .qcfg qa rs => some (0x21#6 ++ qa ++ 0x0#7 ++ rs ++ 0x0#4 ++ 0x0#8)
  | .qadvP qa n => some (0x21#6 ++ qa ++ 0x0#3 ++ n ++ 0x0#4 ++ 0x1#4 ++ 0x0#8)
  | .qadvC qa n => some (0x21#6 ++ qa ++ 0x0#3 ++ n ++ 0x0#4 ++ 0x2#4 ++ 0x0#8)
  | .qstat qa rs => some (0x21#6 ++ qa ++ 0x0#7 ++ rs ++ 0x3#4 ++ 0x0#8)
  | .qwait qa n => some (0x21#6 ++ qa ++ 0x0#3 ++ n ++ 0x0#4 ++ 0x4#4 ++ 0x0#8)
  | .cpy ch rd ra rb att bn => some (0x28#6 ++ ch ++ rd ++ ra ++ rb ++ 0x0#7 ++ att ++ bn)
  | .cpyStep ch ra => some (0x28#6 ++ ch ++ 0x0#4 ++ ra ++ 0x0#4 ++ 0x1#7 ++ 0x0#4)
  | .cpyWm ch ra => some (0x28#6 ++ ch ++ 0x0#4 ++ ra ++ 0x0#4 ++ 0x2#7 ++ 0x0#4)
  | .cpySum ch rd => some (0x28#6 ++ ch ++ rd ++ 0x0#8 ++ 0x3#7 ++ 0x0#4)
  | .cpyStop ch => some (0x28#6 ++ ch ++ 0x0#12 ++ 0x4#7 ++ 0x0#4)
  | .sendReq rd ra rb k att bn => some (0x2C#6 ++ 0x0#3 ++ rd ++ ra ++ rb ++ 0x0#3 ++ k ++ att ++ bn)
  | .sendRpy rd ra rb k att bn => some (0x2C#6 ++ 0x1#3 ++ rd ++ ra ++ rb ++ 0x0#3 ++ k ++ att ++ bn)
  | .migr ra => some (0x2D#6 ++ 0x0#7 ++ ra ++ 0x0#4 ++ 0x0#7 ++ 0x0#4)
  | .fork rd ra rb att bn => some (0x2D#6 ++ 0x0#3 ++ rd ++ ra ++ rb ++ 0x1#7 ++ att ++ bn)
  | .join ra => some (0x2D#6 ++ 0x0#7 ++ ra ++ 0x0#4 ++ 0x2#7 ++ 0x0#4)
  | .tend => some (0x2D#6 ++ 0x0#15 ++ 0x3#7 ++ 0x0#4)
  | .yield => some (0x2D#6 ++ 0x0#15 ++ 0x4#7 ++ 0x0#4)
  | .spawn rd ra rb => some (0x2D#6 ++ 0x0#3 ++ rd ++ ra ++ rb ++ 0x5#7 ++ 0x0#4)
  | .srr rd sr => some (0x30#6 ++ rd ++ 0x0#4 ++ sr ++ 0x0#6)
  | .srw ra sr => some (0x30#6 ++ 0x0#4 ++ ra ++ sr ++ 0x1#6)
  | .trap n => some (0x31#6 ++ 0x0#15 ++ n ++ 0x0#6)
  | .eret => some (0x31#6 ++ 0x0#20 ++ 0x1#6)
  | .bkpt => some (0x31#6 ++ 0x0#20 ++ 0x2#6)
  | .time rd => some (0x31#6 ++ rd ++ 0x0#16 ++ 0x3#6)
  | .idle => some (0x31#6 ++ 0x0#20 ++ 0x4#6)
  | .limmA payload => some (0x3F#6 ++ 0x0#4 ++ payload)
  | .limmB payload => some (0x3F#6 ++ 0x1#4 ++ payload)
  | .round mode => some (0x3F#6 ++ 0x2#4 ++ 0x0#19 ++ mode)
  | .sat code => some (0x3F#6 ++ 0x3#4 ++ 0x0#21 ++ code)
  | .scope code => some (0x3F#6 ++ 0x4#4 ++ 0x0#19 ++ code)
  | .prio => some (0x3F#6 ++ 0x5#4 ++ 0x0#22)
  | .cache policy => some (0x3F#6 ++ 0x6#4 ++ 0x0#20 ++ policy)
  | .waitn count => some (0x3F#6 ++ 0x7#4 ++ 0x0#10 ++ count)
  | .gangBarrierComplete _ _ => none
  | .gangTimeout _ _ => none
  | .mxpSlotComplete _ _ => none
  | .decBlockComplete _ _ => none
  | .omuSettleEnd _ => none
  | .pilot _ _ => none
  | .unfoldSlot _ => none
  | .forwardedReply _ _ _ => none
  | .bankOpApply _ => none
  | .sealedCommit _ _ => none
  | .waitaWake _ _ => none
  | .waitCompletion _ _ => none
  | .idleEnd _ _ => none
  | .boundaryEvent _ _ => none
  | .watchdogExpiry _ _ => none
  | .energyCharge _ _ => none
  | .slotFill _ _ => none
  | .gangStart _ => none
  | .messageInjection _ _ => none
  | .messageArrival _ => none
  | .migrantArrival _ => none
  | .migrantAcceptance _ _ => none
  | .messageRefusal _ => none
  | .copyDescriptor _ _ => none
  | .copyDescriptorComplete _ _ => none
  | .queueRecordFetch _ => none
  | .graphNodeFetch _ => none
  | .nodeComplete _ _ => none
  | .forkNode _ _ => none
  | .copyNode _ _ => none
  | .signalNode _ _ => none
  | .graphNode _ _ => none
  | .dispense _ => none
  | .preemption _ => none
  | .rotationTick _ => none
  | .swapRelease _ => none
  | .operatingPointChange _ => none
  | .pointRaise _ => none
  | .quadrantPowerSample _ _ => none
  | .modulePowerSample _ => none
  | .droopAlarm _ _ => none
  | .stretchEnd _ => none
  | .throttleEnd _ => none
  | .sensorSample _ _ _ => none
  | .refreshRowDue _ _ _ => none
  | .placementHalving => none
  | .pageExchangeStart _ _ => none
  | .pageExchangeCommit _ => none
  | .scoutAccess _ _ _ => none
  | .correctableError _ _ _ => none
  | .uncorrectableError _ => none
  | .selfTestComplete _ _ _ => none
  | .bankLoss _ _ => none
  | .cxlRemoval => none
  | .cxlInsertion => none
  | .lineLoss _ _ => none
  | .lightRecovery _ _ => none
  | .sourceRestored _ => none
  | .storeFlit _ _ _ => none
  | .tagFlit _ _ _ => none
  | .ack _ _ _ _ => none
  | .nak _ _ _ _ => none
  | .rrf _ _ _ => none
  | .lanest _ _ _ => none
  | .applied _ _ _ => none
  | .fail _ _ _ _ _ => none
  | .resync _ _ _ => none
  | .gone _ _ => none
  | .hello _ _ => none
  | .keyx _ _ _ _ => none
  | .pathReestablishment _ _ => none
  | .nakRepeat _ _ => none
  | .ackTimer _ _ => none
  | .groupClose _ _ => none
  | .tagTimeout _ _ => none
  | .storeTimeout _ _ => none
  | .laneRetrain _ _ _ => none
  | .retrainComplete _ _ _ => none
  | .laneWeightStep _ _ => none
  | .deviceGone _ => none
  | .moduleInsertion _ => none
  | .latchRelease => none
  | .coolantOvertemp => none
  | .leak => none
  | .coldReset _ _ _ _ => none
  | .resetCold _ _ _ _ => none
  | .partitionReset _ => none
  | .checkpointStart => none
  | .checkpointRestore => none
  | .checkpointComplete _ => none
  | .ckstatClear _ => none
  | .mcqdropClear => none
  | .mcqConfigWrite _ _ => none
  | .cxlen _ => none
  | .kill _ _ => none
  | .halt _ _ => none
  | .release _ _ => none
  | .step _ _ => none
  | .debugSave _ _ => none
  | .debugRestore _ _ => none
  | .resume _ _ => none
  | .peqdropClear _ => none
  | .tail _ _ => none
  | .chead _ _ => none
  | .qerrClear _ _ => none
  | .queueConfigWrite _ _ _ => none
  | .registerWrite _ _ _ => none
  | .hostRead _ _ => none
  | .hostWrite _ _ => none
  | .msixUnmask _ _ => none
  | .illegalWord _ _ => none
  | .fetchFault _ => none
  | .probeComplete _ _ _ => none
  | .gatherComplete _ _ => none
  | .laneResync _ _ => none

/-- The instruction that the decoder reads from a word given as a number (R41: one little-endian word of 32 bits). -/
def decodeTableWord (_nbits w : Nat) : Option Instr :=
  match decode (BitVec.ofNat 32 w) with
  | .ok i => some i
  | .error _ => none

end Sys2Proof
end

