-- ==== Sys2Proof/Machine/Cache.lean ====
section
/-! DEFINITION. The caches (R278 to R283): which lines an L1 and a stall cache hold, with the permission bits of their pages; the room that a
line takes and what it displaces; and the checks of a global access (R87), which a hit makes without translation. A cache holds no
data of its own here: every copy of a line holds the latest committed bytes of State.mem, but for what R268 says of private pages. -/

namespace Sys2Proof.Machine

/-! Checks of a global access (R87 Table 2). -/

inductive Access where
  | load
  | store
  | atomic
  | bankop
  | gather
  | wait
  deriving DecidableEq, Repr

def Access.writes : Access → Bool
  | .store | .atomic | .bankop => true
  | .load | .gather | .wait => false

/-- Accesses that go through the tile's L1 and the stall cache; the others are an engine's (R278). -/
def Access.cached : Access → Bool
  | .load | .store | .atomic | .wait => true
  | .bankop | .gather => false

/-! Lines and their permission bits. -/

/-- The RD, WR, EX, PRIV, PVT and TYPE bits of a leaf entry, in place, with bit 0 set: what a line carries (R278). -/
def pageBits (leaf : Nat) : Nat := 1 + bits leaf 5 1 * 2 + bits leaf 15 14 * 2 ^ 14

/-- The translation of a line whose mapping stands in the reverse map, with the permission bits `b` that the line carries (R278). -/
def State.lineXlat (s : State) (part asid va b : Nat) : Option Xlat :=
  (s.loaded part asid va).map (fun x => { x with leaf := b - 1 })

/-- Set of a granule in an L1, and of a superblock in a stall cache: the low bits of its number (notes/assumptions/59.md). -/
def l1Key (pt g : Nat) : Nat := pt * 1024 + g % 1024
def cacheKey (ps block : Nat) : Nat := ps * 2048 + block % 2048

def L1Line.is (part asid g : Nat) (l : L1Line) : Bool := l.part == part && l.asid == asid && l.granule == g
def Super.is (part asid block : Nat) (b : Super) : Bool := b.part == part && b.asid == asid && b.block == block

/-- The page bits of a granule in an L1, if it holds it. -/
def State.l1Bits (s : State) (pt part asid g : Nat) : Option Nat :=
  ((fget [] s.l1 (l1Key pt g)).find? (L1Line.is part asid g)).map (fun l => l.leaf)

/-- The page bits of a committed line in a stall cache, if it holds it. -/
def State.cacheBits (s : State) (ps part asid g : Nat) : Option Nat :=
  match (fget [] s.caches (cacheKey ps (g / 4))).find? (Super.is part asid (g / 4)) with
  | none => none
  | some b => let v := fget 0 b.lines (g % 4); if v = 0 then none else some v

/-- The page bits of the line that an access hits: the slot's own version, which lies in some stall cache (R259), the tile's L1, unless the
access stores (R279), or the stall cache. -/
def State.lineBits (s : State) (pt : Nat) (sl : Slot) (write : Bool) (g : Nat) : Option Nat :=
  match fget none sl.seg.vlines g with
  | some v => some v.leaf
  | none => match (if write then none else s.l1Bits pt sl.part sl.asid.toNat g) with
    | some b => some b
    | none => s.cacheBits (pt / 16) sl.part sl.asid.toNat g

/-- The translation of an access: a hit is checked against the bits of its line, without a walk (R278); a miss, and an engine's access,
walk (R273). -/
def State.resolve (s : State) (pt : Option Nat) (sl : Slot) (acc : Access) (va : Nat) : Except (BitVec 8) (State × Xlat) :=
  match (match pt with
    | some t => if acc.cached then s.lineBits t sl acc.writes (va / 32) else none
    | none => none) with
  | none => s.translate sl.part sl.asid.toNat va true
  | some b => match s.lineXlat sl.part sl.asid.toNat va b with
    | some x => .ok (s, x)
    | none => s.translate sl.part sl.asid.toNat va true

/-- Where a granule of the slot's version lies: by a walk, or, where the walk finds none, by the mapping that its line was filled under. -/
def State.lineAt (s : State) (sl : Slot) (g : Nat) : Option Xlat :=
  match s.walk sl.part sl.asid.toNat (g * 32) with
  | .ok x => some x
  | .error _ => match fget none sl.seg.vlines g with
    | some v => s.lineXlat sl.part sl.asid.toNat (g * 32) v.leaf
    | none => none

/-- Steps 1 to 10 of Table 2 for an access of `sz` bytes at `ea` by the task of a slot, through the caches of tile `pt` if any; the error is
the cause, with EVAL := ea. -/
def State.checkGlobal (s : State) (pt : Option Nat) (sl : Slot) (acc : Access) (ea sz : Nat) : Except (BitVec 8) (State × Xlat) :=
  if ea ≥ 2 ^ 52 then .error 0x21
  else if ea % sz != 0 then .error 0x20
  else match s.resolve pt sl acc ea with
  | .error c => .error c
  | .ok (s1, x) =>
    let w := if x.ty == 1 then s.windowEntry sl.part ea else none
    let lf := match w with | some e => e.lfmt | none => 0
    let lb := match w with | some e => e.lb | none => false
    let loads := acc == .load || acc == .wait
    if x.ty == 1 && w.isNone then .error 0x21
    else if acc == .store && x.ty == 1 && lf != 0 && (decide (sz < localBytes lf) || ea % localBytes lf != 0) then .error 0x20
    else if (acc.writes && !x.wr) || (!(acc == .store) && !x.rdok) || (x.priv && sl.pl == 0) then .error 0x22
    else if (acc == .atomic || acc == .bankop || acc == .gather) && x.ty != 0 then .error 0x23
    else if loads && x.ty == 1 && !lb then .error 0x27
    else if acc == .store && x.ty == 2 then .error 0x28
    else if acc == .bankop && sl.seg.touches (ea / 32) then .error 0x24
    else if acc != .store && s.poisoned x.pa sz && !(loads && inVersion sl.seg.version ea sz) then .error 0x29
    else if acc == .store && !(sl.seg.holdsLine (ea / 32)) && decide (2048 ≤ sl.seg.lines) then .error 0x2B
    else .ok (s1, x)

/-! Placement records. -/

/-- The demand access reaches the controller of its page: the placement record counts it (R285). -/
def State.countAccess (s : State) (pa : Nat) (pstall : Nat) (lines : Nat) : State :=
  let f := pa / 0x10000
  let p := fget {} s.place f
  let own := BitVec.ofNat 7 pstall
  let run := if p.own = own then BitVec.ofNat 4 (Nat.min 15 (p.run.toNat + 1)) else 1
  { s with place := fset {} f { count := BitVec.ofNat 12 (Nat.min 4095 (p.count.toNat + lines)), own := own, run := run } s.place }

/-- Runs of misses that a stall cache keeps; the spec gives no number (notes/assumptions/76.md). -/
def missRuns : Nat := 64

/-- A demand access of the task of a slot misses in the stall cache of `ps`: it continues a run, or begins one (R283). -/
def State.noteMiss (s : State) (ps : Nat) (sl : Slot) (va : Nat) : State :=
  let b := va / 128
  let same (r : MissRun) : Bool := r.part == sl.part && r.asid == sl.asid.toNat && r.pl == sl.pl && (r.block == b || r.block + 1 == b)
  let rs := fget [] s.misses ps
  let r : MissRun := match rs.find? same with
    | some r => { r with block := b, length := if r.block = b then r.length else r.length + 1 }
    | none => { part := sl.part, asid := sl.asid.toNat, pl := sl.pl, block := b }
  { s with misses := fset [] ps ((r :: rs.filter (fun x => !(same x))).take missRuns) s.misses }

/-- A demand access misses in the caches: the controller of its page counts the line that moves, and the stall cache notes the miss. -/
def State.missLine (s : State) (ps : Nat) (sl : Slot) (pa va : Nat) : State := (s.countAccess pa ps 1).noteMiss ps sl va

/-- The access enters the slot's segment: read or write set, or the private granules of a private page (R257, R268). -/
def State.enter (s : State) (sl : Slot) (x : Xlat) (ea : Nat) (write : Bool) : Segment :=
  if x.pvt then
    (if write then { sl.seg with priv := fset false (ea / 32) true sl.seg.priv }
     else { sl.seg with privR := fset false (ea / 32) true sl.seg.privR })
  else s.track sl.asid sl.seg (ea / 32) write

/-! Room in a set (R280, R282). -/

/-- What a set of a stall cache can lose: a superblock of committed lines, or one of a version: task, HOME, segment's superblock. -/
inductive Way where
  | committed (b : Super)
  | version (task : Word) (home : Nat) (block : Nat)
  deriving DecidableEq, Repr

/-- A line of a version has been displaced to the overflow area. -/
def State.spilledOut (s : State) (task : Word) (home g : Nat) : Bool := s.overflow.contains (task, home, g)

/-- Superblocks of a segment's version that lie in a set. -/
def State.versionWays (s : State) (key : Nat) (task : Word) (home : Nat) (seg : Segment) : List Way :=
  (seg.vlines.filter (fun e => (match e.2 with
    | some v => cacheKey v.stall (e.1 / 4) == key
    | none => false) && !(s.spilledOut task home e.1))).foldl (fun (r : List Way) e =>
      if r.contains (.version task home (e.1 / 4)) then r else r ++ [.version task home (e.1 / 4)]) []

/-- Every version superblock in a set, of resident and of switched-out tasks. -/
def State.waysHeld (s : State) (key : Nat) : List Way :=
  s.slots.flatMap (fun e => s.versionWays key e.2.taskid (homeOf e.1) e.2.seg) ++
  s.parts.flatMap (fun p => p.saved.flatMap (fun t => s.versionWays key t.ctx.taskid t.home.toNat t.ctx.seg))

/-- The ways among which replacement chooses: next victims first, else all that are not protected, or all for a line that finds its set's
limit of protected ways reached (R282). -/
def victims (sups : List Super) (vs : List Way) (limit : Bool) : List Way :=
  let n := sups.filter (fun b => b.next && !b.keep)
  if n.isEmpty then ((if limit then sups else sups.filter (fun b => !b.keep)).map Way.committed) ++ vs else n.map Way.committed

/-- A superblock of committed lines leaves its set: its dirty lines held there are written back (R268). -/
def State.evictSuper (s : State) (key : Nat) (b : Super) : State :=
  let s1 := { s with caches := fset [] key ((fget [] s.caches key).filter (fun c => c != b)) s.caches }
  b.lines.foldl (fun t e => match t.walk b.part b.asid ((b.block * 4 + e.1) * 32) with
    | .error _ => t
    | .ok x => match fget none t.dirty (x.pa / 32) with
      | some d => if d.holder == key / 2048 then t.writeBack (x.pa / 32) else t
      | none => t) s1

/-- A way is displaced: committed lines are evicted, those of a version are written, still uncommitted, to the overflow area (R280). -/
def State.displace (s : State) (key : Nat) (w : Way) : State :=
  match w with
  | .committed b => s.evictSuper key b
  | .version task home block => { s with overflow := ((List.range 4).map (fun i => (task, home, block * 4 + i))) ++ s.overflow }

/-- A set with a free way among its 16, where versions hold the ways `vs`: the full set loses the way that replacement, which the spec
leaves open, chooses. -/
def State.makeRoom (s : State) (key : Nat) (limit : Bool) (vs : List Way) : State :=
  let sups := fget [] s.caches key
  if sups.length + vs.length < 16 then s
  else
    let ways := victims sups vs limit
    match ways[Config.victim s.steps key % ways.length]? with
    | some w => s.displace key w
    | none => s

/-! Filling. -/

/-- The set holds as many protected ways as it may. -/
def keepsFull {α : Type} (keep : α → Bool) (n : Nat) (ls : List α) : Bool := decide (n ≤ (ls.filter keep).length)

/-- A committed line enters a stall cache under a policy (R280, R282): `b` are its page bits. A superblock that the set does not hold takes a
way, for which room is made beside the ways `vs` of versions, or, with none, the way that its line already had. -/
def State.enterCache (s : State) (ps part asid g policy b : Nat) (vs : Option (List Way)) : State :=
  let key := cacheKey ps (g / 4)
  let sups := fget [] s.caches key
  let limit := policy == 3 && keepsFull Super.keep 4 sups
  let mark (x : Super) : Super :=
    { x with lines := fset 0 (g % 4) b x.lines, next := policy == 1 || policy == 2, keep := x.keep || (policy == 3 && !limit) }
  if sups.any (Super.is part asid (g / 4)) then
    { s with caches := fset [] key (sups.map (fun x => if x.is part asid (g / 4) then mark x else x)) s.caches }
  else
    let s1 := match vs with
      | some ws => s.makeRoom key limit ws
      | none => s
    { s1 with caches := fset [] key (mark { part := part, asid := asid, block := g / 4 } :: fget [] s1.caches key) s1.caches }

/-- A line that is read or prefetched enters a stall cache. -/
def State.fillCache (s : State) (ps part asid g policy b : Nat) : State :=
  s.enterCache ps part asid g policy b (some (s.waysHeld (cacheKey ps (g / 4))))

/-- A committed line enters an L1 (R279, R282): a full set of 10 ways loses a next victim, or one that replacement chooses. -/
def State.fillL1 (s : State) (pt part asid g policy b : Nat) : State :=
  let key := l1Key pt g
  let ls := (fget [] s.l1 key).filter (fun l => !(l.is part asid g))
  let limit := policy == 3 && keepsFull L1Line.keep 3 ls
  let n := ls.filter (fun l => l.next && !l.keep)
  let ways := if n.isEmpty then (if limit then ls else ls.filter (fun l => !l.keep)) else n
  let rest := if ls.length < 10 then ls else match ways[Config.victim s.steps (key + 2 ^ 20) % ways.length]? with
    | some l => ls.filter (fun m => m != l)
    | none => ls
  let line : L1Line := {
    part := part, asid := asid, granule := g, leaf := b, next := policy == 1 || policy == 2, keep := policy == 3 && !limit }
  { s with l1 := fset [] key (line :: rest) s.l1 }

/-- The tile's L1 loses its copy of a granule. -/
def State.dropL1 (s : State) (pt part asid g : Nat) : State :=
  { s with l1 := fset [] (l1Key pt g) ((fget [] s.l1 (l1Key pt g)).filter (fun l => !(l.is part asid g))) s.l1 }

/-- A line of the slot's version takes its place in the cache of stall `ps`: in the superblock that the version has there, or in a way of its
own, for which room is made (R280). -/
def State.placeLine (s : State) (ps : Nat) (sl : Slot) (home g : Nat) : State :=
  let key := cacheKey ps (g / 4)
  let vs := s.waysHeld key
  let s1 := if vs.contains (.version sl.taskid home (g / 4)) then s else s.makeRoom key false vs
  { s1 with overflow := s1.overflow.filter (fun e => e != (sl.taskid, home, g)) }

/-- A displaced line of the slot's version returns to its stall cache (R280). -/
def State.recallLine (s : State) (sl : Slot) (home g : Nat) : State :=
  if s.spilledOut sl.taskid home g then
    s.placeLine (match fget none sl.seg.vlines g with | some v => v.stall | none => 0) sl home g
  else s

/-- A load, or a prefetch into the tile, of a line of page `x`: served by the slot's version, the L1 or the stall cache, or filled from its
memory, whose controller counts it (R279, R282, R285). A line that is hit keeps its place in replacement, whatever the policy: the model's
choice (notes/assumptions/59.md). -/
def State.loadLine (s : State) (pt home : Nat) (sl : Slot) (x : Xlat) (va policy : Nat) (count : Bool) : State :=
  let g := va / 32
  let asid := sl.asid.toNat
  if (fget none sl.seg.vlines g).isSome then s.recallLine sl home g
  else if (s.l1Bits pt sl.part asid g).isSome then s
  else
    let s1 := if (s.cacheBits (pt / 16) sl.part asid g).isSome then s
      else (if count then s.missLine (pt / 16) sl x.pa va else s).fillCache (pt / 16) sl.part asid g policy (pageBits x.leaf)
    if policy = 2 then s1 else s1.fillL1 pt sl.part asid g policy (pageBits x.leaf)

/-- A store to a line: the slot's version takes it in the stall cache of the tile's stall, where it finds room, and the tile's L1 loses its
copy; a line that the cache did not hold is fetched (R279, R285). -/
def State.storeLine (s : State) (pt home : Nat) (sl : Slot) (x : Xlat) (va : Nat) : State :=
  let g := va / 32
  let asid := sl.asid.toNat
  let s1 := s.dropL1 pt sl.part asid g
  if (fget none sl.seg.vlines g).isSome then s1.recallLine sl home g
  else
    let s2 := if (s1.cacheBits (pt / 16) sl.part asid g).isSome then s1 else s1.missLine (pt / 16) sl x.pa va
    s2.placeLine (pt / 16) sl home g

/-- An AMO or CAS holds its line in the stall cache, and the tile's L1 has no copy (R279, R282 Table 3). -/
def State.atomicLine (s : State) (pt : Nat) (sl : Slot) (x : Xlat) (va policy : Nat) : State :=
  let g := va / 32
  let asid := sl.asid.toNat
  (s.dropL1 pt sl.part asid g).fillCache (pt / 16) sl.part asid g (if policy = 2 then 1 else policy) (pageBits x.leaf)

/-- Version ways in a set, but those of one task, whose version is being committed. -/
def State.waysOfOthers (s : State) (task : Word) (home key : Nat) : List Way :=
  (s.waysHeld key).filter (fun w => match w with
    | .version t h _ => !(t == task && h == home)
    | .committed _ => true)

/-- The line of a committed granule: the stall cache that held the version's line keeps it, under the policy of its latest store, in the way
that it had if it was `placed`; for another room is made (R280). -/
def State.keepLine (s : State) (sl : Slot) (home : Nat) (v : VLine) (g : Nat) (placed : Bool) : State :=
  s.enterCache v.stall sl.part sl.asid.toNat g (if v.policy = 2 then 1 else v.policy) v.leaf
    (if placed then none else some (s.waysOfOthers sl.taskid home (cacheKey v.stall (g / 4))))

/-- An acquire drops the clean copies of shared lines from the acquiring tile's L1 and stall cache (R268). -/
def State.selfInvalidate (s : State) (pt : Nat) : State :=
  let shared (b : Nat) : Bool := !(bit b 5)
  let dirty (b : Super) (i : Nat) : Bool := match s.walk b.part b.asid ((b.block * 4 + i) * 32) with
    | .error _ => false
    | .ok x => match fget none s.dirty (x.pa / 32) with | some d => d.holder == pt / 16 | none => false
  { s with
    l1 := (s.l1.map (fun e => if e.1 / 1024 == pt then (e.1, e.2.filter (fun l => !(shared l.leaf))) else e)).filter (fun e => !e.2.isEmpty)
    caches := dropLines (fun b => b.lines.isEmpty) (s.caches.map (fun e =>
      if e.1 / 2048 == pt / 16 then (e.1, e.2.map (fun b => { b with lines := b.lines.filter (fun l => !(shared l.2) || dirty b l.1) })) else e)) }

end Sys2Proof.Machine
end

