-- ==== Sys2Proof/Machine/Area.lean ====
section
/-! DEFINITION. The save area of a switched-out task (R334, R335): one table of fields, by which a context is written to an area,
read back from it, and updated in it while the task is out (R336). The hardware owns the area, so its writes are raw writes of
memory that leave no dirty line and doom nobody. -/

namespace Sys2Proof.Machine

/-- One field of an area: its offset, its bytes, and its value in a slot. -/
structure AreaField where
  off : Nat
  size : Nat
  get : Slot → Nat
  put : Slot → Nat → Slot

/-- Fields of bytes 0x000 to 0x17F that hold one register each. -/
def areaScalars : List AreaField :=
  [ ⟨0x000, 8, fun l => l.taskid.toNat, fun l v => { l with taskid := BitVec.ofNat 64 v }⟩,
    ⟨0x010, 8, fun l => l.status.toNat, fun l v => { l with status := BitVec.ofNat 64 v &&& statusMask }⟩,
    ⟨0x018, 8, fun l => l.flags.toNat, fun l v => { l with flags := BitVec.ofNat 64 v &&& flagsMask }⟩,
    ⟨0x028, 8, fun l => l.asid.toNat, fun l v => { l with asid := BitVec.ofNat 16 v }⟩,
    ⟨0x030, 8, fun l => l.epc.toNat, fun l v => { l with epc := BitVec.ofNat 64 v }⟩,
    ⟨0x038, 8, fun l => l.ecause.toNat, fun l v => { l with ecause := BitVec.ofNat 8 v }⟩,
    ⟨0x040, 8, fun l => l.eval.toNat, fun l v => { l with eval := BitVec.ofNat 64 v }⟩,
    ⟨0x048, 8, fun l => l.pidx.toNat, fun l v => { l with pidx := BitVec.ofNat 32 v }⟩,
    ⟨0x050, 8, fun l => l.estatus.toNat, fun l v => { l with estatus := BitVec.ofNat 64 v &&& statusMask }⟩,
    ⟨0x058, 8, fun l => l.tvec.toNat, fun l v => { l with tvec := BitVec.ofNat 64 v }⟩,
    ⟨0x060, 8, fun l => l.rngs.toNat, fun l v => { l with rngs := BitVec.ofNat 32 v }⟩,
    ⟨0x068, 8, fun l => l.quota.toNat, fun l v => { l with quota := BitVec.ofNat 48 v }⟩,
    ⟨0x070, 8, fun l => l.wdog.toNat, fun l v => { l with wdog := BitVec.ofNat 48 v }⟩,
    ⟨0x078, 8, fun l => l.gto.toNat, fun l v => { l with gto := BitVec.ofNat 32 v }⟩,
    ⟨0x080, 8, fun l => l.cwm.toNat, fun l v => { l with cwm := BitVec.ofNat 16 v }⟩,
    ⟨0x088, 8, fun l => l.ebcmin.toNat, fun l v => { l with ebcmin := BitVec.ofNat 4 v }⟩,
    ⟨0x090, 8, fun l => l.gmask.toNat + l.arrived.isSome.toNat * 2 ^ 16, fun l v =>
      { l with gmask := BitVec.ofNat 16 v, arrived := if bit v 16 then l.arrived else none }⟩,
    ⟨0x098, 8, fun l => l.debt.toNat, fun l v => { l with debt := BitVec.ofNat 64 v }⟩,
    ⟨0x100, 8, fun l => l.pc.toNat, fun l v => { l with pc := BitVec.ofNat 64 v }⟩ ]

/-- g1 to g15, q0 to q7, b0 to b7. -/
def areaFiles : List AreaField :=
  ((List.range 15).map fun i => (⟨0x108 + 8 * i, 8, fun l => (fget 0 l.g (i + 1)).toNat,
      fun l v => { l with g := fset 0 (i + 1) (BitVec.ofNat 64 v) l.g }⟩ : AreaField)) ++
  ((List.range 8).map fun i => (⟨0x180 + 16 * i, 16, fun l => (l.qr i).toNat, fun l v => l.qw i (BitVec.ofNat 128 v &&& ringMask)⟩ : AreaField)) ++
  ((List.range 8).map fun i => (⟨0x200 + 4 * i, 4, fun l => (l.br i).toNat, fun l v => l.bw i (BitVec.ofNat 32 v &&& barMask)⟩ : AreaField))

/-- A restored register whose saved tag is reserved is VOID with all bits 0 (R21). -/
def restoreTag (x : VReg) (t : Nat) : VReg := if t % 16 ≤ 12 then { x with tag := BitVec.ofNat 4 t } else {}

/-- k1 to k7, the tags and the vector registers, written only when VSAVED is 1. -/
def areaVectors : List AreaField :=
  ((List.range 7).map fun i => (⟨0x220 + 4 * i, 4, fun l => (fget 0 l.k (i + 1)).toNat,
      fun l v => { l with k := fset 0 (i + 1) (BitVec.ofNat 32 v) l.k }⟩ : AreaField)) ++
  ((List.range 25).map fun i => (⟨0x400 + 128 * i, 128, fun l => (l.vr i).lanes.toNat,
      fun l v => l.vw i { l.vr i with lanes := BitVec.ofNat 1024 v }⟩ : AreaField)) ++
  ((List.range 25).map fun i => (⟨0x240 + i, 1, fun l => (l.vr i).tag.toNat, fun l v => l.vw i (restoreTag (l.vr i) v)⟩ : AreaField))

/-- The slot stands at a load that waits for its replies: not in a handler that interrupted it. -/
def Slot.loadWaits (sl : Slot) : Bool := match sl.load with | some p => sl.pc == p.start | none => false

/-- SSTATE (R335): version, VSAVED, GANG, HALTED, WAITLD, SEALED, STOPCAUSE, LOGN, PENDN. -/
def sstateOf (sl : Slot) (halted : Bool) (cause logn pendn : Nat) : Nat :=
  1 + sl.vs.toNat * 2 ^ 8 + sl.gang.toNat * 2 ^ 9 + halted.toNat * 2 ^ 10 + sl.loadWaits.toNat * 2 ^ 11
    + sl.seg.sealedCommit.toNat * 2 ^ 12 + cause % 256 * 2 ^ 16 + logn % 256 * 2 ^ 24 + pendn % 256 * 2 ^ 32

/-- Write the fields of a table. -/
def writeFields (m : FMap Byte) (base : Nat) (sl : Slot) : List AreaField → FMap Byte
  | [] => m
  | f :: fs => writeFields (wrN m (base + f.off) f.size (f.get sl)) base sl fs

/-- Read the fields of a table. -/
def readFields (m : FMap Byte) (base : Nat) (sl : Slot) : List AreaField → Slot
  | [] => sl
  | f :: fs => readFields m base (f.put sl (rdN m (base + f.off) f.size)) fs

/-- A log entry (R335 Table 3): 16 bytes. -/
def logEntry (ty cause lanes value : Nat) : Nat := ty + cause % 256 * 2 ^ 8 + lanes % 2 ^ 32 * 2 ^ 32 + value % 2 ^ 64 * 2 ^ 64

/-- One entry of a waiting load's log as its area holds it: TYPE 1 names its lanes, TYPE 2 gives the data of a scalar load, and a fault its
address. -/
def PendingLoad.entry (p : PendingLoad) (f : BitVec 32 × BitVec 8 × Word) : Nat :=
  let v := if f.2.1 != 0 then f.2.2.toNat else if p.size = 0 then 0 else p.image.toNat
  if p.size = 0 then logEntry 1 f.2.1.toNat f.1.toNat v else logEntry 2 f.2.1.toNat 0 v

/-- Lanes done at issue, without a reply of their own. -/
def PendingLoad.atIssue (p : PendingLoad) : BitVec 32 := p.log.foldl (fun m f => m &&& ~~~f.1) p.done

/-- The log of a waiting load at its switch-out: the lanes done at issue, then one entry for each reply (R336). -/
def PendingLoad.entries (p : PendingLoad) : List Nat :=
  (if p.atIssue = 0 then [] else [p.entry (p.atIssue, 0, 0)]) ++ p.log.map p.entry

/-- A waiting load as its area holds it: the image, and what the log says of its lanes (R337). -/
def PendingLoad.fromLog (p : PendingLoad) (image : Nat) (log : List (Nat × BitVec 8 × BitVec 32 × Word)) : PendingLoad :=
  log.foldl (fun q e => match e with
    | (ty, c, lanes, v) =>
      if ty = 3 then q
      else
        let ls := if ty = 1 then lanes else 1
        { q with
          done := q.done ||| ls
          log := q.log ++ [(ls, c, v)] })
    { p with image := BitVec.ofNat 1024 image, done := 0, log := [] }

/-- Put an entry into the log of an area; false when the log is full (224 entries). -/
def State.logAppend (s : State) (area : Nat) (entry : Nat) : State × Bool :=
  let ss := s.rd (area + 8) 8
  let n := bits ss 31 24
  if n < 224 then
    ((s.rawWrite (area + 0x1200 + 16 * n) 16 entry).rawWrite (area + 8) 8 (ss + 2 ^ 24), true)
  else (s, false)

/-- The context part of an area after a change of the slot it stands for. -/
def State.writeContext (s : State) (area home : Nat) (sl : Slot) : State :=
  let m1 := writeFields s.mem area sl (areaScalars ++ areaFiles)
  let m2 := wrN m1 (area + 0x20) 8 home
  { s with mem := if sl.vs then writeFields m2 area sl areaVectors else m2 }

/-- Switch-out: the whole area, with the pending list as TYPE 3 entries and the pending load's image and log (R336). The vector bytes,
0x220 to 0x107F, are written only when VSAVED is 1 (R335). -/
def State.writeArea (s : State) (area home : Nat) (sl : Slot) (halted : Bool) (cause : Nat) : State :=
  let s1 := { s with mem := wrN (wrN s.mem area 0x220 0) (area + 0x1080) 0xF80 0 }
  let s2 := s1.writeContext area home sl
  let s3 := s2.rawWrite (area + 8) 8 (sstateOf sl halted cause 0 sl.pend.length)
  let s4 := match sl.load with
    | none => s3
    | some p => p.entries.foldl (fun t e => (t.logAppend area e).1) (s3.rawWrite (area + 0x1080) 128 p.image.toNat)
  sl.pend.foldl (fun t e => (t.logAppend area (logEntry 3 e.1.toNat 0 e.2.toNat)).1) s4

/-- The context of an area, over what the caches keep for the task (R337 step 1). The start pointer of WAITANY is 0 after every restore
(R112). -/
def State.readContext (s : State) (area : Nat) (ctx : Slot) : Slot :=
  let sl := readFields s.mem area { ctx with startPtr := 0 } (areaScalars ++ areaFiles)
  if bit (s.rd (area + 8) 8) 8 then readFields s.mem area sl areaVectors else { sl with v := [], k := [] }

/-- The log entries of an area, in order: type, cause, lanes, value. -/
def State.readLog (s : State) (area : Nat) : List (Nat × BitVec 8 × BitVec 32 × Word) :=
  (List.range (bits (s.rd (area + 8) 8) 31 24)).map fun i =>
    let e := s.rd (area + 0x1200 + 16 * i) 16
    (bits e 7 0, BitVec.ofNat 8 (bits e 15 8), BitVec.ofNat 32 (bits e 63 32), BitVec.ofNat 64 (bits e 127 64))

/-- Free areas of a partition's pool, lowest first (R334). -/
def State.freeAreas (s : State) (p : Nat) : List Nat :=
  let pt := s.part p
  ((List.range pt.cfg.salen).map (fun i => pt.cfg.sapool.toNat + 0x2000 * i)).filter (fun a =>
    !(pt.saved.any (fun t => t.area == a ||
      (match t.ext with | some e => decide (e ≤ a) && decide (a < e + 5 * 0x2000) | none => false))))

/-- The lowest run of five free areas, for a gang extension (R334). -/
def findRun5 (free : List Nat) : Option Nat :=
  free.find? (fun a => (List.range 5).all (fun i => free.contains (a + 0x2000 * i)))

end Sys2Proof.Machine
end

