-- ==== Sys2Proof/Machine/Credit.lean ====
section
/-! DEFINITION. What reaches a task from operations that complete later (R25, R34, R35, R328, R336): barrier detaches, credited
flags and errors, and kind A causes, applied to the live slot, to the save area, or to the creator's status once the task has ended. -/

namespace Sys2Proof.Machine

/-- Slot key of a resident task: the slot of tile `home` when it holds the task, else any slot that does. -/
def State.findSlot (s : State) (task : Word) (home : Nat) : Option Nat :=
  match s.slots.find? (fun e => e.2.occupied && e.2.taskid == task && e.1 / 8 == home) with
  | some e => some e.1
  | none => (s.slots.find? (fun e => e.2.occupied && e.2.taskid == task)).map (fun e => e.1)

/-- Partition number of a TASKID (R38). -/
def taskPart (task : Word) : Nat := field task 60 4

/-- A switched-out task: the record of tile `home` when several members share the TASKID. -/
def State.findSaved (s : State) (task : Word) (home : Nat) : Option Saved :=
  let l := ((s.part (taskPart task)).saved).filter (fun t => t.ctx.taskid == task)
  match l.find? (fun t => t.home.toNat == home) with
  | some t => some t
  | none => l.head?

def State.modSaved (s : State) (p area : Nat) (f : Saved → Saved) : State :=
  s.modPart p (fun pt => { pt with saved := pt.saved.map (fun t => if t.area == area then f t else t) })

/-- The migrant context of a task that waits in a mailbox. -/
def Message.carries (m : Message) (task : Word) : Bool :=
  match m.migrant with
  | some c => c.taskid == task
  | none => false

def State.mailed (s : State) (task : Word) : Bool := s.tiles.any (fun e => e.2.mailbox.any (fun m => m.carries task))

/-- A change of a migrant's context in its mailbox. -/
def State.modMailed (s : State) (task : Word) (f : Slot → Slot) : State :=
  { s with tiles := s.tiles.map (fun e => (e.1, { e.2 with mailbox := e.2.mailbox.map (fun m =>
      if m.carries task then { m with migrant := m.migrant.map f } else m) })) }

/-- Apply a change to a task's context: to its slot, to its save area (R336), or to the mailbox entry that holds it (R232). An ended
task has no context. -/
def State.updateTask (s : State) (task : Word) (home : Nat) (f : Slot → Slot) : State :=
  match s.findSlot task home with
  | some k => s.modSlot k f
  | none => match s.findSaved task home with
    | some t =>
      let c := f (s.readContext t.area t.ctx)
      (s.writeContext t.area t.home.toNat c).modSaved (taskPart task) t.area (fun u => { u with ctx := c })
    | none => if s.mailed task then s.modMailed task f else s

/-- The context of a migrant that waits in a mailbox. -/
def State.mailedContext (s : State) (task : Word) : Option Slot :=
  ((s.tiles.flatMap (fun e => e.2.mailbox)).find? (fun m => m.carries task)).bind (fun m => m.migrant)

/-- A task's context: its slot, its save area, or a mailbox. -/
def State.contextOf (s : State) (task : Word) (home : Nat) : Option Slot :=
  match s.findSlot task home with
  | some k => some (s.slot k)
  | none => match s.findSaved task home with
    | some t => some (s.readContext t.area t.ctx)
    | none => s.mailedContext task

/-- The task is resident, switched out, or waiting in a mailbox. -/
def State.alive (s : State) (task : Word) : Bool := (s.findSlot task 0).isSome || (s.findSaved task 0).isSome || s.mailed task

/-! Barriers (R25). -/

def barCount (b : BitVec 32) : Nat := bits b.toNat 15 0
def barErr (b : BitVec 32) : Nat := bits b.toNat 23 16
def barEv (b : BitVec 32) : Bool := bit b.toNat 24
def mkBar (count err : Nat) (ev : Bool) : BitVec 32 :=
  BitVec.ofNat 32 (count % 65536 + err % 256 * 65536 + ev.toNat * 2 ^ 24)

/-- A waiting slot becomes ready. IDLE has retired, so its wait ends here, with the one priority issue that PRIO gives (R56, R113); any other
instruction executes again, and has its grant when it retires. -/
def Slot.wake (sl : Slot) : Slot :=
  match sl.phase with
  | .waiting .idle => { sl with phase := .ready, prio := sl.prioRun, prioRun := false }
  | .waiting _ => { sl with phase := .ready }
  | _ => sl

/-- A slot that is idle continues: an engine has advanced one of its handles, or a barrier has detached (R255). -/
def Slot.stir (sl : Slot) : Slot := if sl.phase == .waiting .idle then sl.wake else sl

/-- Attach adds 1 to COUNT. -/
def Slot.attach (sl : Slot) (i : Nat) : Slot :=
  let b := sl.br i
  sl.bw i (mkBar (barCount b + 1) (barErr b) (barEv b))

/-- Detach subtracts 1 from COUNT; an error cause is kept in ERR with EV only while EV is 0. An idle slot continues (R255). -/
def Slot.detach (sl : Slot) (i : Nat) (cause : BitVec 8) : Slot :=
  let b := sl.br i
  (if cause = 0 || barEv b then sl.bw i (mkBar (barCount b - 1) (barErr b) (barEv b))
   else sl.bw i (mkBar (barCount b - 1) cause.toNat true)).stir

/-! Late credits of ended tasks (R35, R331). -/

/-- A status in the layout of R303 with an error cause recorded as the first failure cause when none is yet. -/
def recordCause (st : Word) (cause : BitVec 8) : Word :=
  if field st 48 8 = 0 then putField st 48 8 cause.toNat else st

/-! What waits at a switch (R28, R323). -/

/-- What comes for stall `ls` waits: the stall is mid-swap, or something that its switch held goes before it. -/
def State.heldUp (s : State) (ls : Nat) (w : HeldBy) : Bool :=
  s.midSwap ls || (match s.held.find? (fun h => h.stall == ls) with
    | some h => h.who != w
    | none => false)

/-- It takes its place at the switch of a stall that is mid-swap, in order of arrival. -/
def State.hold (s : State) (ls : Nat) (w : HeldBy) : State :=
  if s.midSwap ls && !(s.held.contains { stall := ls, who := w }) then { s with held := s.held ++ [{ stall := ls, who := w }] } else s

/-- It has been delivered wherever its turn had come. -/
def State.letGo (s : State) (w : HeldBy) : State :=
  { s with held := s.held.filter (fun h => h.who != w || s.heldUp h.stall w) }

/-- The credits of a cell wait at its switch: of a stall that is mid-swap, or behind what that held. -/
def State.cellHeld (s : State) (id : Nat) : Bool :=
  decide (id < 8192) && (s.midSwap (id / 64) || s.held.any (fun h => h.stall == id / 64))

def State.holdCredit (s : State) (id : Nat) (cause : BitVec 8) (ends : Bool) (key : Option Nat) : State :=
  { s with held := s.held ++ [{ stall := id / 64, who := .credit id cause ends key }] }

/-- A late error cause at a join cell (R331). -/
def State.causeAtCell (s : State) (id : Nat) (cause : BitVec 8) : State :=
  s.setCell id ((s.cell id).map (fun c => if c.cause = 0 then { c with cause := cause } else c))

/-- An error cause reaches the creator's cell, node or completion record; it counts as neither a failure nor a kill. -/
def State.creditEnded (s : State) (task : Word) (cause : BitVec 8) : State :=
  match fget .nobody s.ended task.toNat with
  | .nobody => s
  | .cell id => if s.cellHeld id then s.holdCredit id cause false none else s.causeAtCell id cause
  | .queue q => s.modQueue q (fun u => { u with comps := u.comps.map (fun e => if !e.1 && e.2.1 == task then (e.1, e.2.1, recordCause e.2.2 cause) else e) })
  | .node a v => { s with nodes := s.nodes.map (fun n =>
      if n.asid == a && n.va == v && n.part.toNat == taskPart task && n.state != .done && n.cause == 0 then { n with cause := cause } else n) }

/-- An error credited to a task (R34, R35). -/
def State.creditError (s : State) (task : Word) (home : Nat) (cause : BitVec 8) : State :=
  if s.alive task then s.updateTask task home (fun sl => sl.credit cause) else s.creditEnded task cause

/-- Numeric flags credited to a task; those of an ended task are dropped (R35). -/
def State.creditNumeric (s : State) (task : Word) (home : Nat) (f : FlagSet) : State :=
  if f = 0 then s else s.updateTask task home (fun sl => sl.orFlags f)

/-- A kind A cause joins the pending list; a full list, or a full log of a switched-out task, makes it a credit (R328, R336). -/
def State.deliver (s : State) (task : Word) (home : Nat) (cause : BitVec 8) (eval : Word) : State :=
  match s.findSlot task home with
  | some k => s.modSlot k (fun sl => if sl.pend.length < 8 then { sl with pend := sl.pend ++ [(cause, eval)] } else sl.credit cause)
  | none => match s.findSaved task home with
    | some t =>
      let (s1, ok) := s.logAppend t.area (logEntry 3 cause.toNat 0 eval.toNat)
      if ok then s1 else s.creditError task home cause
    | none =>
      if s.mailed task then
        s.modMailed task (fun sl => if sl.pend.length < 8 then { sl with pend := sl.pend ++ [(cause, eval)] } else sl.credit cause)
      else s.creditEnded task cause

/-- The STATUS bit that makes a cause of kind A/C a trap (R34, R325). -/
def enablesTrap (sl : Slot) (cause : BitVec 8) : Bool :=
  if cause = 0x2A then sl.edl else sl.ewf

/-- An A/C cause: delivered as a trap when enabled, otherwise credited (R34). -/
def State.deliverAC (s : State) (task : Word) (home : Nat) (cause : BitVec 8) (eval : Word) : State :=
  let on := match s.contextOf task home with
    | some l => enablesTrap l cause
    | none => false
  if on then s.deliver task home cause eval else s.creditError task home cause

end Sys2Proof.Machine
end

