-- ==== Sys2Proof/Machine/Flits.lean ====
section
/-! DEFINITION. The flits of a link as they lie on a lane (R378): their 64 bytes, their CRC-32C, and the sealing of store flits
(R381). -/

namespace Sys2Proof.Machine

/-! CRC-32C, as the copy engines (R244) and the links (R378) use it. -/

/-- One byte of CRC-32C, bit by bit. -/
def crcByte (x : BitVec 32) : Nat → BitVec 32
  | 0 => x
  | n + 1 => crcByte (if x.getLsbD 0 then (x >>> 1) ^^^ 0x82F63B78#32 else x >>> 1) n

/-- `f v`, with `v` brought to a numeral first: the kernel then evaluates a long chain of bytes step by step (evaluated_eq). -/
def evaluated {α : Type} (v : BitVec 32) (f : BitVec 32 → α) : α :=
  match v.toNat with
  | 0 => f 0
  | n + 1 => f (BitVec.ofNat 32 (n + 1))

theorem evaluated_eq {α : Type} (v : BitVec 32) (f : BitVec 32 → α) : evaluated v f = f v := by
  unfold evaluated
  split
  · next h => rw [show v = 0 from BitVec.eq_of_toNat_eq h]
  · next n h => rw [show n + 1 = v.toNat from h.symm, BitVec.ofNat_toNat, BitVec.setWidth_eq]

/-- CRC-32C of the low `n` bytes of `x`, byte 0 first, from the running value `c`. -/
def crcBytes (c : BitVec 32) (x : Nat) : Nat → BitVec 32
  | 0 => c
  | n + 1 => evaluated (crcByte (c ^^^ BitVec.ofNat 32 (x % 256)) 8) (fun d => crcBytes d (x / 256) n)

/-- CRC-32C of bytes 0 to 59 of a flit (R378). -/
def flitCrc (x : BitVec 480) : BitVec 32 := ~~~(crcBytes 0xFFFFFFFF x.toNat 60)

/-- A flit: its bytes 0 to 59, and their CRC. -/
def withCrc (x : BitVec 480) : BitVec 512 := flitCrc x ++ x

/-- Bytes 2 to 11: KIND, the byte of CLS and SEAL or of OP, and the two device words (R378 Table 7). -/
def flitHead (kind b3 : BitVec 8) (dst : BitVec 18) (tpart : BitVec 4) (src : BitVec 18) (spart : BitVec 4) : BitVec 80 :=
  (0#10 ++ spart ++ src) ++ (0#10 ++ tpart ++ dst) ++ b3 ++ kind

/-- Bytes 0 to 59 from SEQ, bytes 2 to 11, bytes 12 to 55 and bytes 56 to 59. -/
def flitBody (seq : BitVec 16) (head : BitVec 80) (body : BitVec 352) (last : BitVec 32) : BitVec 480 := last ++ body ++ head ++ seq

/-! Store flits, KIND 1. -/

/-- Byte 3 of a store or tag flit. -/
def classByte (cls : BitVec 3) (sealed' : Bool) : BitVec 8 := BitVec.ofNat 8 (cls.toNat + if sealed' then 8 else 0)

def storeHead (f : Flit) : BitVec 80 := flitHead 1 (classByte f.cls f.sealedStore) f.dst f.tpart f.src f.spart

/-- Bytes 12 to 55 of a store flit: what a seal protects. -/
def storeBody (f : Flit) : BitVec 352 := f.data ++ f.mask ++ f.pad ++ f.lfmt ++ f.off

/-- The 64 bytes of a store flit. -/
def storeWord (f : Flit) : BitVec 512 := withCrc (flitBody f.seq (storeHead f) (storeBody f) f.eseq)

/-- A store flit with other bytes 12 to 55. -/
def withBody (f : Flit) (x : BitVec 352) : Flit :=
  { f with off := x.extractLsb' 0 48, lfmt := x.extractLsb' 48 8, pad := x.extractLsb' 56 8, mask := x.extractLsb' 64 32, data := x.extractLsb' 96 256 }

/-! Tag flits, KIND 2, and control flits, KIND 3. -/

/-- The 64 bytes of a tag flit. -/
def tagWord (t : TagFlit) : BitVec 512 :=
  withCrc (flitBody t.seq (flitHead 2 (classByte t.cls true) t.dst t.tpart t.src t.spart) (0#128 ++ t.tag ++ 0#32 ++ t.n ++ 0#8 ++ 0#48) t.eseq)

/-- DST of a control flit: 0 at hop scope, and of a flooded one. -/
def ctlDst (r : CtlRoute) : BitVec 18 :=
  match r with
  | .ends d _ => d
  | .hop _ _ | .flood _ => 0

/-- The 64 bytes of a control flit from `src`. -/
def ctlWord (src : BitVec 18) (c : CtlFlit) : BitVec 512 :=
  withCrc (flitBody 0 (flitHead 3 (BitVec.ofNat 8 c.op) (ctlDst c.route) 0 src 0) (Config.ctlOperands c.op c.args) c.cid)

/-- The idle flit. -/
def idleWord : BitVec 512 := withCrc 0

/-! What a receiver reads. -/

/-- CLS of a store or tag flit as it lies in the 64 bytes. -/
def wireClass (w : BitVec 512) : BitVec 3 := w.extractLsb' 24 3

def crcGood (w : BitVec 512) : Bool := flitCrc (w.extractLsb' 0 480) == w.extractLsb' 480 32

/-- The store or tag flit that 64 bytes with a good CRC hold. -/
def readFlit (w : BitVec 512) : Option HopItem :=
  let kind := (w.extractLsb' 16 8).toNat
  let seq : BitVec 16 := w.extractLsb' 0 16
  let dst : BitVec 18 := w.extractLsb' 32 18
  let tpart : BitVec 4 := w.extractLsb' 50 4
  let src : BitVec 18 := w.extractLsb' 64 18
  let spart : BitVec 4 := w.extractLsb' 82 4
  let eseq : BitVec 32 := w.extractLsb' 448 32
  if !crcGood w then none
  else if kind = 1 then
    some (.store (withBody
      { seq := seq, cls := wireClass w, sealedStore := w.getLsbD 27, dst := dst, tpart := tpart, src := src, spart := spart, off := 0, lfmt := 0, mask := 0,
        data := 0, eseq := eseq } (w.extractLsb' 96 352)))
  else if kind = 2 then
    some (.tag { seq := seq, cls := wireClass w, dst := dst, tpart := tpart, src := src, spart := spart, n := w.extractLsb' 152 8, tag := w.extractLsb' 192 128,
                 eseq := eseq })
  else none

/-! Items of a hop (R379). -/

def itemPath (i : HopItem) : BitVec 18 × BitVec 3 :=
  match i with
  | .store f => (f.dst, f.cls)
  | .tag t => (t.dst, t.cls)

def itemSrc (i : HopItem) : BitVec 18 :=
  match i with
  | .store f => f.src
  | .tag t => t.src

def itemSeq (i : HopItem) : BitVec 16 :=
  match i with
  | .store f => f.seq
  | .tag t => t.seq

/-- The item with the number that this hop gives it. -/
def numbered (seq : BitVec 16) (i : HopItem) : HopItem :=
  match i with
  | .store f => .store { f with seq := seq }
  | .tag t => .tag { t with seq := seq }

/-- The 64 bytes of an item. -/
def itemWord (i : HopItem) : BitVec 512 :=
  match i with
  | .store f => storeWord f
  | .tag t => tagWord t

/-! Sealing (R381). -/

/-- The nonce of a group: SRC, DST, CLS and the first ESEQ, with zeros above them. -/
def groupNonce (src dst : BitVec 18) (cls : BitVec 3) (first : Nat) : BitVec 96 := 0#25 ++ BitVec.ofNat 32 first ++ cls ++ dst ++ src

/-- Flit `i` of a group sealed, or opened again, with the key stream of AES-256-GCM. -/
def crypt (key : BitVec 256) (nonce : BitVec 96) (i : Nat) (f : Flit) : Flit := withBody f (storeBody f ^^^ Config.gcmStream key nonce i)

/-- The tag of a group of sealed flits: its additional data are bytes 2 to 11 and 56 to 59 of each, and SEQ is in neither part. -/
def groupTag (key : BitVec 256) (nonce : BitVec 96) (fl : List Flit) : BitVec 128 :=
  Config.gcmTag key nonce (fl.map (fun f => f.eseq ++ storeHead f)) (fl.map storeBody)

end Sys2Proof.Machine
end

