-- ==== Sys2Proof/Machine/Windows.lean ====
section
/-! DEFINITION. The sending side of the window unit: link formats (R370), the store flits of a commit (R371), paths (R364, R373,
R374), failures (R376, R382, R390), and the replay stores of the root switch's bundles (R379). -/

namespace Sys2Proof.Machine

/-- Link format as local tag, link tag (R370 Table 4); format 0 is bytes. -/
def linkTags (lfmt : Nat) : Nat × Nat :=
  match lfmt with
  | 1 => (tF32, tF16)
  | 2 => (tF32, tB16)
  | 3 => (tF32, tF8)
  | 4 => (tI32, tI16)
  | 5 => (tI32, tI8)
  | _ => (tF16, tF8)

/-- Wide bytes of one flit's span (R370 Table 4). -/
def spanBytes (lfmt : Nat) : Nat :=
  match lfmt with
  | 0 => 32
  | 3 | 5 => 128
  | _ => 64

/-- One element narrowed for the link: to nearest, ties to even (R370). -/
def narrow (lfmt x : Nat) : Nat × FlagSet :=
  if lfmt = 0 then (x % 256, 0)
  else
    let t := linkTags lfmt
    let r := roundTo t.2 0 .default 1 (decodeElem t.1 x)
    (r.bits, r.flags ||| snanFlag [decodeElem t.1 x])

/-- One link element widened exactly; a NaN widens to the canonical NaN (R370). -/
def widen (lfmt x : Nat) : Nat :=
  if lfmt = 0 then x % 256
  else
    let t := linkTags lfmt
    (roundTo t.1 0 .default 1 (decodeElem t.2 x)).bits

/-- Bytes of one link element. -/
def linkBytes (lfmt : Nat) : Nat := if lfmt = 0 then 1 else elemBits (linkTags lfmt).2 / 8

/-- Class `cls` is sealed for partition `p` (R381). -/
def State.sealedClass (s : State) (p : Nat) (cls : BitVec 3) : Bool := (s.part p).cfg.sealmask.getLsbD cls.toNat

/-- Devices share an enclosure when bits [17:8] agree (R362). -/
def sameEnclosure (a b : BitVec 18) : Bool := a.toNat / 256 == b.toNat / 256

/-! REFL records (R115, R375). -/

def State.reflRec (s : State) (task : Word) : ReflRec := fget {} s.refl task.toNat
def State.modRefl (s : State) (task : Word) (f : ReflRec → ReflRec) : State :=
  { s with refl := fset {} task.toNat (f (s.reflRec task)) s.refl }

/-- A window store fails: counted for REFL, and delivered under R34 (R376). -/
def State.failStore (s : State) (task : Word) (home : Nat) (cause : BitVec 8) (va : Word) : State :=
  (s.modRefl task (fun r => { r with failed := Nat.min 0xFFFF (r.failed + 1), cause := if r.cause = 0 then cause else r.cause })).deliverAC
    task home cause va

/-- An outstanding window store is settled. -/
def State.settle (s : State) (task : Word) : State := s.modRefl task (fun r => { r with outstanding := r.outstanding - 1 })

/-! Bundles (R379, R384). -/

def State.bundle (s : State) (b : Nat) : Bundle := fget {} s.bundles b
def State.modBundle (s : State) (b : Nat) (f : Bundle → Bundle) : State :=
  { s with bundles := fset {} b (f (s.bundle b)) s.bundles }
def Bundle.chan (b : Bundle) (c : Nat) : HopChan := fget {} b.chans c
def Bundle.modChan (b : Bundle) (c : Nat) (f : HopChan → HopChan) : Bundle :=
  { b with chans := fset {} c (f (b.chan c)) b.chans }

/-- Lanes 0 to 7 carry weight 8 and the spare, lane 8, weight 0 (R384). -/
def laneDefault (i : Nat) : Lane := { weight := if i < 8 then 8 else 0 }
def Bundle.lane (b : Bundle) (i : Nat) : Lane := fget (laneDefault i) b.lanes i
def Bundle.modLane (b : Bundle) (i : Nat) (f : Lane → Lane) : Bundle :=
  { b with lanes := fset (laneDefault i) i (f (b.lane i)) b.lanes }

/-! Hops (R379, R384). -/

/-- The lane on which the cumulative weights place `h`; none when every weight is 0. -/
def laneAt (ws : List Nat) (h : Nat) : Option Nat :=
  match ws with
  | [] => none
  | w :: r => if h < w then some 0 else (laneAt r (h - w)).map (· + 1)

/-- The lane of a flit: a hash of channel and SEQ over the cumulative weights (R384). -/
def Bundle.pickLane (b : Bundle) (cls : BitVec 3) (seq : BitVec 16) : Option Nat :=
  let ws := (List.range 9).map (fun i => (b.lane i).weight.toNat)
  laneAt ws (Config.laneHash cls seq % ws.sum)

/-- A flit leaves, numbered for the hop and kept in the replay store. -/
def Bundle.put (b : Bundle) (cls : BitVec 3) (it : HopItem) : Bundle :=
  let n := (b.chan cls.toNat).next
  b.modChan cls.toNat (fun c =>
    { c with next := c.next + 1, replay := c.replay ++ [{ seq := n, item := numbered n it, lane := b.pickLane cls n }] })

/-- Flits that waited leave while the replay store, which holds 4,096, has room. -/
def Bundle.flow (b : Bundle) (cls : BitVec 3) : Nat → Bundle
  | 0 => b
  | n + 1 =>
    let c := b.chan cls.toNat
    match c.queue with
    | [] => b
    | it :: q =>
      if 4096 ≤ c.replay.length then b else ((b.modChan cls.toNat (fun h => { h with queue := q })).put cls it).flow cls n

/-- A flit for the hop: it leaves when those before it have, and there is room. -/
def Bundle.send (b : Bundle) (cls : BitVec 3) (it : HopItem) : Bundle :=
  (b.modChan cls.toNat (fun c => { c with queue := c.queue ++ [it] })).flow cls ((b.chan cls.toNat).queue.length + 1)

def State.hopSend (s : State) (b : Nat) (cls : BitVec 3) (it : HopItem) : State := s.modBundle b (fun x => x.send cls it)

/-- The channel has no room for a flit more. -/
def Bundle.chanFull (b : Bundle) (cls : BitVec 3) : Bool :=
  let c := b.chan cls.toNat
  decide (4096 ≤ c.replay.length + c.queue.length)

/-! Control flits (R378, R383). -/

/-- Two of a list, different ones where it has two. -/
def twoOf (l : List Nat) (h : Nat) : List Nat := ((l.rotateLeft (h % l.length)).take 2)

/-- The root switch's usable up ports (R364, R386). -/
def State.usablePorts (s : State) : List Nat := (List.range 16).filter (fun i => !(s.bundle i).down)

/-- A control flit is sent over two disjoint routes; the list keeps what was sent. -/
def State.ctlSend (s : State) (op : Nat) (route : CtlRoute) (args : List Nat) : State :=
  s.modDev (fun d => { d with ctl := { op := op, route := route, cid := d.cid, args := args } :: d.ctl, cid := d.cid + 1 })

/-- At hop scope: on two lanes of the bundle. -/
def State.ctlHop (s : State) (op b : Nat) (args : List Nat) : State :=
  s.ctlSend op (.hop b (twoOf ((List.range 9).filter (fun i => ((s.bundle b).lane i).weight != 0)) (Config.ctlRoutes s.dev.cid.toNat))) args

/-- End to end: through two up bundles; the device itself is reached with no link. -/
def State.ctlEnds (s : State) (op : Nat) (dst : BitVec 18) (args : List Nat) : State :=
  s.ctlSend op (.ends dst (if dst = s.dev.devno then [] else twoOf s.usablePorts (Config.ctlRoutes s.dev.cid.toNat))) args

/-- Flooded to every device of the pod. -/
def State.ctlFlood (s : State) (op : Nat) (args : List Nat) : State :=
  s.ctlSend op (.flood (twoOf s.usablePorts (Config.ctlRoutes s.dev.cid.toNat))) args

/-! Paths. -/

def State.txPath (s : State) (dst : BitVec 18) (cls : BitVec 3) : Option TxPath :=
  s.tx.find? (fun p => p.dst == dst && p.cls == cls)

/-- Some store of the path is unconfirmed. -/
def TxPath.unconfirmed (p : TxPath) : Bool := p.stores.any (fun w => w.sent)

/-- The up port of a path: the one it keeps while a store is unconfirmed, else that which the hash selects among the usable ones (R364);
one whose route failed is passed over where another leads up (R376). -/
def State.pathPort (s : State) (p : TxPath) : Option Nat :=
  let u := s.usablePorts
  let kept := match p.port with
    | some b => if p.unconfirmed && u.contains b then some b else none
    | none => none
  match kept with
  | some b => some b
  | none =>
    let v := u.filter (fun b => some b != p.avoid)
    let w := if v.isEmpty then u else v
    w[Config.upPort s.dev.devno p.dst p.cls (w.foldl (fun m i => m + 2 ^ i) 0) % w.length]?

def State.modTx (s : State) (dst : BitVec 18) (cls : BitVec 3) (f : TxPath → TxPath) : State :=
  { s with tx := s.tx.map (fun p => if p.dst == dst && p.cls == cls then f p else p) }

/-- The path key between two partitions of two devices: from the handle that this device's record gives for the pair (R374). -/
def State.pathKey (s : State) (own : BitVec 4) (peer : BitVec 4) (salt : BitVec 64 × BitVec 64) (src dst : BitVec 18) (cls : BitVec 3) : BitVec 256 :=
  Config.pathKey ((s.part own.toNat).cfg.keys.getD peer.toNat 0) salt.1 salt.2 src dst cls

/-- A group of sealed flits closes: the tag flit follows them (R381). -/
def State.closeGroup (s : State) (dst : BitVec 18) (cls : BitVec 3) : State :=
  match s.txPath dst cls with
  | none => s
  | some p =>
    if p.group.2 = 0 then s
    else
      let fl := (p.stores.filter (fun w => w.sent && decide (p.group.1 ≤ w.flit.eseq.toNat) &&
        decide (w.flit.eseq.toNat < p.group.1 + p.group.2))).map (fun w => w.flit)
      let s1 := s.modTx dst cls (fun q => { q with group := (0, 0) })
      match fl.head? with
      | none => s1
      | some f0 =>
        let key := s.pathKey f0.spart f0.tpart (p.mine.getD 0, p.peer.getD 0) f0.src dst cls
        let t : TagFlit := {
          seq := 0, cls := cls, dst := dst, tpart := f0.tpart, src := f0.src, spart := f0.spart, n := BitVec.ofNat 8 p.group.2, tag := groupTag key (groupNonce f0.src dst cls p.group.1) fl, eseq := BitVec.ofNat 32 p.group.1 }
        if dst = s.dev.devno then s1
        else match s.pathPort p with
          | some b => s1.hopSend b cls (.tag t)
          | none => s1

/-- The open group is of another target partition than a store: the group closes before it. -/
def TxPath.otherPart (p : TxPath) (w : WStore) : Bool :=
  p.group.2 != 0 && p.stores.any (fun u => u.sent && u.flit.eseq.toNat == p.group.1 && u.flit.tpart != w.flit.tpart)

def State.closeBefore (s : State) (dst : BitVec 18) (cls : BitVec 3) : State :=
  match s.txPath dst cls with
  | some p => (match p.stores.find? (fun w => !w.sent) with
    | some w => if p.otherPart w then s.closeGroup dst cls else s
    | none => s)
  | none => s

/-- The first waiting store of a path is replaced, or taken out. -/
def TxPath.setWaiting (p : TxPath) (w : Option WStore) : TxPath :=
  { p with stores := p.stores.takeWhile (fun u => u.sent) ++ w.toList ++ (p.stores.dropWhile (fun u => u.sent)).drop 1 }

/-- A store leaves with the next ESEQ, sealed with its group where its class is; a group closes at 8 flits and at the end of its segment's
(R373, R381). -/
def State.sendStore (s : State) (p : TxPath) (w : WStore) (port : Option Nat) : State :=
  let g := if w.flit.sealedStore then (if p.group.2 = 0 then (p.next, 1) else (p.group.1, p.group.2 + 1)) else (0, 0)
  let f := { w.flit with eseq := BitVec.ofNat 32 p.next }
  let sf := if f.sealedStore then
      crypt (s.pathKey f.spart f.tpart (p.mine.getD 0, p.peer.getD 0) f.src p.dst p.cls) (groupNonce f.src p.dst p.cls g.1) (g.2 - 1) f
    else f
  let s1 := s.modTx p.dst p.cls (fun q =>
    { (q.setWaiting (some { w with flit := sf, sent := true, sentAt := s.now })) with next := q.next + 1, group := g, port := port })
  let s2 := match port with
    | some b => s1.hopSend b p.cls (.store sf)
    | none => s1
  if g.2 = 8 || (g.2 != 0 && w.last) then s2.closeGroup p.dst p.cls else s2

/-- The first waiting store of an established path leaves. With no usable port it fails with cause 0xA1 (R376). -/
def State.sendOne (s0 : State) (dst : BitVec 18) (cls : BitVec 3) : State :=
  let s : State := s0.closeBefore dst cls
  match s.txPath dst cls with
  | none => s
  | some p =>
    if !p.ready || p.mine.isNone || p.peer.isNone || decide (2 ^ 32 ≤ p.next) then s
    else match p.stores.find? (fun w => !w.sent) with
    | none => s
    | some w =>
      if dst = s.dev.devno then s.sendStore p w none
      else match s.pathPort p with
        | none => ((s.modTx dst cls (fun q => q.setWaiting none)).settle w.task).failStore w.task w.home 0xA1 w.va
        | some b => if (s.bundle b).chanFull cls then s else s.sendStore p w (some b)

/-- Send every store that can leave. -/
def State.sendAll (s : State) (dst : BitVec 18) (cls : BitVec 3) : Nat → State
  | 0 => s
  | n + 1 => (s.sendOne dst cls).sendAll dst cls n

/-- A store flit is handed to its path; a new path is first established (R374). -/
def State.handStore (s : State) (w : WStore) : State :=
  let dst := w.flit.dst
  let cls := w.flit.cls
  let s1 := match s.txPath dst cls with
    | some _ => s
    | none => { s with tx := s.tx ++ [({ dst := dst, cls := cls } : TxPath)] }
  let s2 := (s1.modTx dst cls (fun p => { p with stores := p.stores ++ [w] })).modRefl w.task
    (fun r => { r with outstanding := r.outstanding + 1 })
  s2.sendOne dst cls

/-! The flits of a commit (R371). -/

/-- Bytes a segment committed, by virtual address, as a map. -/
abbrev Bytes := FMap (Option Byte)

/-- A whole local element at `va`, when the segment committed it. -/
def elemAt (b : Bytes) (va n : Nat) : Option Nat := if inVersion b va n then some (rdV b [] va 0 n) else none

/-- Data, mask and flags of the span from `va` on: `k` elements of `lb` local bytes, element `i` first. -/
def spanData (lfmt lb : Nat) (b : Bytes) (va : Nat) : Nat → Nat → Nat × Nat × FlagSet
  | 0, _ => (0, 0, 0)
  | k + 1, i =>
    let (d, m, fl) := spanData lfmt lb b va k (i + 1)
    match elemAt b (va + i * lb) lb with
    | none => (d, m, fl)
    | some x =>
      let r := narrow lfmt x
      (d + r.1 * 2 ^ (8 * linkBytes lfmt * i), m + 2 ^ i, r.2 ||| fl)

/-- The window store of the span that holds `va`: a store flit, or its failure (R371, R367, R382, R390). The entry is the one found in `old`,
the machine before the commit: a change of the table governs later commits. -/
def State.reflectSpan (old s : State) (task : Word) (part home : Nat) (b : Bytes) (va : Nat) : State :=
  match old.windowEntry part va with
  | none => s.failStore task home 0xA1 (BitVec.ofNat 64 va)
  | some e =>
    let w := spanBytes e.lfmt
    let base := va / w * w
    let lb := localBytes e.lfmt
    let (d, m, fl) := spanData e.lfmt lb b base (w / lb) 0
    let sl := s.sealedClass part e.cls
    let s1 := s.creditNumeric task home fl
    if !sl && !(sameEnclosure e.dest s.dev.devno) then s1.failStore task home 0xA3 (BitVec.ofNat 64 va)
    else if fget false s.gone e.dest.toNat then s1.failStore task home 0xA2 (BitVec.ofNat 64 va)
    else
      s1.handStore {
        task := task, home := home, va := BitVec.ofNat 64 va,
        flit := {
          seq := 0, cls := e.cls, sealedStore := sl, dst := e.dest, tpart := e.tpart, src := s.dev.devno,
          spart := BitVec.ofNat 4 part, off := BitVec.ofNat 48 (e.off - (va - base)), lfmt := BitVec.ofNat 8 e.lfmt,
          mask := BitVec.ofNat 32 m, data := BitVec.ofNat 256 d, eseq := 0 } }

/-- The span of an address: an address with no entry counts in spans of 32 bytes. -/
def State.spanOf (s : State) (part va : Nat) : Nat :=
  match s.windowEntry part va with
  | none => va / 32 * 32
  | some e => va / spanBytes e.lfmt * spanBytes e.lfmt

/-- All transmit-window bytes of a commit, in ascending address order: one flit for each span (R371). -/
def State.reflectAll (old s : State) (task : Word) (part home : Nat) (b : Bytes) : State :=
  (b.foldl (fun (r : State × Option Nat) e =>
    let sp := old.spanOf part e.1
    if r.2 = some sp then r else (old.reflectSpan r.1 task part home b e.1, some sp)) (s, none)).1

/-- The segment's flits on a path end: an open sealed group closes, with the last of those that still wait (R381). -/
def State.endGroup (s : State) (p : TxPath) : State :=
  if p.stores.any (fun w => !w.sent) then
    s.modTx p.dst p.cls (fun q => { q with stores := match q.stores.getLast? with
      | some w => q.stores.dropLast ++ [{ w with last := true }]
      | none => [] })
  else s.closeGroup p.dst p.cls

def State.endGroups (s : State) : State := s.tx.foldl (fun t p => t.endGroup p) s

end Sys2Proof.Machine
end

