-- ==== Sys2Proof/Machine/Commit.lean ====
section
/-! DEFINITION. Committing a segment: what it waits for (R101, R114, R287, R417), what it makes visible (R260, R270), whom it
dooms (R261, R262), and acquire and release (R268). -/

namespace Sys2Proof.Machine

/-- A list in order under `le`; elements that are equal keep their places. -/
def insertBy {α : Type} (le : α → α → Bool) (x : α) : List α → List α
  | [] => [x]
  | y :: ys => if le x y then x :: y :: ys else y :: insertBy le x ys
def sortBy {α : Type} (le : α → α → Bool) (xs : List α) : List α := xs.foldr (insertBy le) []

/-- A rising list without its repeats. -/
def dedup : List Nat → List Nat
  | [] => []
  | [a] => [a]
  | a :: b :: l => if a = b then dedup (b :: l) else a :: dedup (b :: l)

/-- Granules of a version, lowest first. -/
def versionGranules (v : FMap (Option Byte)) : List Nat := dedup (v.map (fun e => e.1 / 32))

/-- Bytes of a version from address `a`, and the mask of those it holds. -/
def granuleOf (v : FMap (Option Byte)) (a : Nat) : Nat → Nat × Nat
  | 0 => (0, 0)
  | n + 1 =>
    let r := granuleOf v (a + 1) n
    match fget none v a with
    | none => (256 * r.1, 2 * r.2)
    | some b => (256 * r.1 + b.toNat, 2 * r.2 + 1)

/-- A bank operation issued from this slot's tile by the task, on a granule that `p` names, is still queued (R101). -/
def State.opPending (s : State) (sl : Slot) (home : Nat) (p : Nat → Bool) : Bool :=
  s.bankops.any (fun e => e.2.any (fun o => o.task == sl.taskid && o.slot / 8 == home && p (o.va.toNat / 32)))

/-- The commit of the slot's segment waits: at a checkpoint, a page exchange, or a bank operation on its write set (R114). -/
def State.commitBlocked (s : State) (sl : Slot) (home : Nat) : Bool :=
  !sl.seg.version.isEmpty &&
  (s.dev.ckBusy || s.opPending sl home sl.seg.holdsLine ||
    (versionGranules sl.seg.version).any (fun g => match s.lineAt sl g with
      | some x => s.exchanging (x.pa / 0x10000)
      | none => false))

/-- The line of a version's granule: where it lies, or, for want of a record, in the cache of the stall where the task runs (R259). -/
def State.versionLine (s : State) (sl : Slot) (home g : Nat) (x : Xlat) : VLine :=
  (fget none sl.seg.vlines g).getD { stall := s.physStall (stallOf home), leaf := pageBits x.leaf }

/-- One granule of a version becomes the committed value (R260), in the cache that holds it (R259), or is dropped with cause 0x2A when its
deep memory has gone (R91). A transmit window's granule updates the loop-back image, where its page had one in `old`, the machine before
the commit (R270, R367, R369). -/
def State.publishGranule (old s : State) (sl : Slot) (home : Nat) (g : Nat) : State :=
  match s.lineAt sl g with
  | none => s
  | some x =>
    let d := granuleOf sl.seg.version (g * 32) 32
    let v := s.versionLine sl home g x
    let s1 := s.setDirtyBit x
    let s2 := s1.commitGranule (x.pa / 32) d.1 d.2 v.stall sl.taskid
    if x.ty == 1 then
      match old.windowEntry sl.part (g * 32) with
      | some e => if e.lb then s2 else s1
      | none => s1
    else if s.deepGone x.pa then s.creditError sl.taskid home 0x2A
    else s2

/-- The committed lines of a version stay in the stall caches that held them (R259, R280): those held in their ways, then those that have no
way, displaced or written by an engine. A line of a transmit window without loop-back, or of removed memory, is not kept. -/
def State.keepLines (old s : State) (sl : Slot) (home : Nat) (gs : List Nat) : State :=
  let kept := gs.filter (fun g => match old.lineAt sl g with
    | none => false
    | some x => if x.ty == 1 then (match old.windowEntry sl.part (g * 32) with
        | some e => e.lb
        | none => false) else !(old.deepGone x.pa))
  let placed (g : Nat) : Bool := (fget none sl.seg.vlines g).isSome && !(old.spilledOut sl.taskid home g)
  let put (t : State) (g : Nat) : State := match old.lineAt sl g with
    | some x => t.keepLine sl home (old.versionLine sl home g x) g (placed g)
    | none => t
  (kept.filter (fun g => !(placed g))).foldl put ((kept.filter placed).foldl put s)

/-- A granule of virtual space lies in a page that walks have read as a table. -/
def State.vaInTable (s : State) (sl : Slot) (g : Nat) : Bool :=
  match s.lineAt sl g with
  | some x => s.inTable (x.pa / 32)
  | none => false

/-- The bytes of a version that lie in transmit windows. -/
def State.windowBytes (s : State) (sl : Slot) : Bytes :=
  sl.seg.version.filter (fun e => match s.lineAt sl (e.1 / 32) with
    | some x => x.ty == 1
    | none => false)

/-- Doom of another segment by the commit of segment `t` (R261, R262). -/
def Segment.doomByCommit (asid : BitVec 16) (t seg : Segment) : Segment :=
  let a := t.writes.foldl (fun r e => r.doomBy asid e.1) seg
  let b := t.spilled.foldl (fun r e => r.doomBy asid e.1) a
  let c := t.reads.foldl (fun r e => r.doomByRead asid e.1) b
  Segment.doomBySig asid t c

/-- The commit itself, at one point of the commit order: the version's granules, the store flits of its window bytes, the
revocations it makes, and the segments it dooms (R260, R261, R270, R274). -/
def State.publish (s : State) (sl : Slot) (home : Nat) (except : Option Nat) : State :=
  let gs := versionGranules sl.seg.version
  let s0 := { s with commits := s.commits + 1, overflow := s.overflow.filter (fun e => !(e.1 == sl.taskid && e.2.1 == home)) }
  let s1 := s.keepLines (gs.foldl (fun t g => s.publishGranule t sl home g) s0) sl home gs
  let win := s.windowBytes sl
  let s2 := if win.isEmpty then s1 else (s.reflectAll s1 sl.taskid sl.part home win).endGroups
  let s3 := if gs.any (s.vaInTable sl) then s.tlbUpdate s2 else s2
  s3.doomAll sl.part sl.asid except (Segment.doomByCommit sl.asid sl.seg)

/-- A new segment begins at `start` (R256); STATUS.TBW is cleared (R31). -/
def Slot.newSegment (sl : Slot) (start : Word) (began : Nat) : Slot :=
  let t := sl.clearTbw
  { t with seg := { start := start, image := sl.image, opened := true, began := began } }

/-- The slot's segment commits, and the next one begins at its instruction until retirement moves it on. -/
def State.commitSlot (s : State) (key : Nat) : State :=
  let sl := s.slot key
  let s1 := s.publish sl (homeOf key) (some key)
  s1.modSlot key (fun l => l.newSegment l.unitStart s1.commits)

/-! Acquire and release (R268). -/

/-- The caches that hold dirty lines of a task's commits. -/
def State.holdersOf (s : State) (task : Word) : List Nat :=
  sortBy (fun a b => decide (a ≤ b)) (s.dirty.flatMap (fun e => match e.2 with
    | some d => (d.wrote.filter (fun w => w.2.2 == task)).map (fun w => w.1)
    | none => []))

/-- A release of the granule by a task: of each cache that has held a version of its commits, and of the stall it runs on, its latest, with
the place of the commit. -/
def State.noteRelease (s : State) (stall : Nat) (task : Word) (pa : Nat) : State :=
  let hs := dedup (sortBy (fun a b => decide (a ≤ b)) (stall :: s.holdersOf task))
  let others := (fget [] s.releases (pa / 32)).filter (fun r => !(hs.contains r.1))
  { s with releases := fset [] (pa / 32) (hs.map (fun h => (h, s.commits)) ++ others) s.releases }

/-- The release that the commit of a slot's segment makes at virtual address `ea` (R88). -/
def State.releaseFor (s : State) (l : Slot) (home ea : Nat) : State :=
  match s.walk l.part l.asid.toNat ea with
  | .ok x => s.noteRelease (s.physStall (stallOf home)) l.taskid x.pa
  | .error _ => s

/-- The release of a sealed commit, once that is made (R114). -/
def State.releaseSealed (s : State) (l : Slot) (home : Nat) : State :=
  match l.seg.release with
  | some ea => s.releaseFor l home ea.toNat
  | none => s

/-- The line was committed in a cache up to one of the releases. -/
def Dirty.upTo (d : Dirty) (rs : List (Nat × Nat)) : Bool := d.wrote.any (fun w => rs.any (fun r => w.1 == r.1 && decide (w.2.1 ≤ r.2)))

/-- The acquire that the start of a task, or the end of a wait, makes in a slot: it names no granule (R88, R224). -/
def State.acquireAt (s : State) (key : Nat) : State := s.selfInvalidate (s.physTile (homeOf key))

/-- An acquire of a released granule: every line committed in a releasing cache up to its release is written back, and then the acquiring
tile's L1 and stall cache drop their clean copies of shared lines. -/
def State.acquire (s : State) (key pa : Nat) : State :=
  let rs := fget [] s.releases (pa / 32)
  (if rs.isEmpty then s
   else { s with dirty := s.dirty.filter (fun e => match e.2 with
      | some d => !(d.upTo rs)
      | none => false) }).acquireAt key

end Sys2Proof.Machine
end

