-- ==== Sys2Proof/Machine/Lifecycle.lean ====
section
/-! DEFINITION. How tasks begin and end: interrupts (R413), power event records (R403), completion records (R412), join cells
(R235), the start of a task (R12) and its end (R331), in a slot or switched out. -/

namespace Sys2Proof.Machine

/-! Interrupts (R413). -/

def State.port (s : State) (p : Nat) : Msix := fget {} s.msix p
def State.modPort (s : State) (p : Nat) (f : Msix → Msix) : State := { s with msix := fset {} p (f (s.port p)) s.msix }

/-- A vector is lost while MSI-X is off or the port's link is down, and from number 2,048 on. -/
def State.irqLost (s : State) (port v : Nat) : Bool := decide (2048 ≤ v) || !(s.port port).enabled || s.dev.portDown.getLsbD port

/-- Send vector `v` of a port: held pending while masked. -/
def State.sendIrq (s : State) (port v : Nat) : State :=
  let m := s.port port
  if s.irqLost port v then s
  else if m.masked || fget false m.entryMasked v then s.modPort port (fun u => { u with pending := fset false v true u.pending })
  else s.modDev (fun d => { d with irqs := (port, v) :: d.irqs })

/-- The vectors that a port holds pending and may send are sent, once for each entry. -/
def State.sendPending (s : State) (port : Nat) : State :=
  let m := s.port port
  if m.masked || !m.enabled then s
  else
    let ready := m.pending.filter (fun e => !(fget false m.entryMasked e.1))
    ready.foldl (fun t e => t.sendIrq port e.1) (s.modPort port (fun u => { u with pending := u.pending.filter (fun e => fget false u.entryMasked e.1) }))

/-- The host sets a field of a port's MSI-X capability or table: the mask of an entry, the function mask (2,048), or the enable (2,049). -/
def State.setMsix (s : State) (port field : Nat) (on : Bool) : State :=
  (s.modPort port (fun u =>
    if field < 2048 then { u with entryMasked := fset false field on u.entryMasked }
    else if field = 2048 then { u with masked := on }
    else { u with enabled := on })).sendPending port

/-- What the host sets between two steps: the spec gives it no step of its own (notes/assumptions/77.md). -/
def State.hostMasks (s : State) : State :=
  match Config.msixHost s.steps with
  | some (port, field, on) => if s.dev.portDown == 3 then s else s.setMsix (port % 2) field on
  | none => s

/-- Interrupt port of a partition (R415). -/
def State.portOf (s : State) (p : Nat) : Nat := (s.part p).cfg.port.toNat

/-- A vector that queue `q` causes: QERR[2] when it is lost. -/
def State.queueIrq (s : State) (q p v : Nat) : State :=
  if s.irqLost (s.portOf p) v then s.modQueue q (fun u => { u with qerr := u.qerr ||| 4 }) else s.sendIrq (s.portOf p) v

/-! Power event records (R403). -/

/-- Write one formed record, or discard it when the queue is full; types 7 and 8 send vector 1. -/
def State.peqPut (s : State) (p : Nat) (r : BitVec 128) : State :=
  let pt := s.part p
  if (pt.peqTail - pt.peqHead).toNat = pt.cfg.peqlen then
    s.modPart p (fun u => { u with peqDrop := if u.peqDrop = 0xFFFFFFFF then u.peqDrop else u.peqDrop + 1 })
  else
    let s1 := s.commitDevice (pt.cfg.peqbase.toNat + 16 * (pt.peqTail.toNat % pt.cfg.peqlen)) 16 r.toNat
    let s2 := s1.modPart p (fun u => { u with peqTail := u.peqTail + 1 })
    let ty := bits r.toNat 71 64
    if ty = 7 || ty = 8 then s2.sendIrq (s.portOf p) 1 else s2

/-- A record is formed: while a checkpoint runs its write waits (R417). -/
def State.powerRecord (s : State) (p time ty unit data : Nat) : State :=
  let r := BitVec.ofNat 128 (time % 2 ^ 64 + ty % 256 * 2 ^ 64 + unit % 256 * 2 ^ 72 + data % 2 ^ 48 * 2 ^ 80)
  if s.dev.ckBusy then s.modPart p (fun u => { u with peqWait := u.peqWait ++ [r] }) else s.peqPut p r

/-- The records that waited for a checkpoint. -/
def State.flushPower (s : State) : State :=
  (List.range 16).foldl (fun t p =>
    ((t.part p).peqWait.foldl (fun u r => u.peqPut p r) t).modPart p (fun u => { u with peqWait := [] })) s

/-- Partitions with arcades in a quadrant. -/
def State.partsOfQuad (s : State) (q : Nat) : List Nat :=
  (List.range 16).filter (fun p => (List.range 4).any (fun i => s.ownsArcade p (q * 4 + i)))

/-- A record sent to every partition with arcades in the quadrant. -/
def State.quadRecord (s : State) (q time ty data : Nat) : State :=
  (s.partsOfQuad q).foldl (fun t p => t.powerRecord p time ty q data) s

/-- A record sent to every partition (R403 Table 4). -/
def State.allRecord (s : State) (ty unit data : Nat) : State :=
  (List.range 16).foldl (fun t p => t.powerRecord p s.now ty unit data) s

/-! Work queues (R409, R412). -/

def Queue.qlen (q : Queue) : Nat := 2 ^ (field q.cfg 0 4 + 4)
def Queue.part (q : Queue) : Nat := field q.cfg 4 4
def Queue.pcls (q : Queue) : BitVec 3 := BitVec.ofNat 3 (field q.cfg 8 3)
def Queue.wt (q : Queue) : Nat := field q.cfg 16 8
def Queue.hostq (q : Queue) : Bool := wbit q.cfg 24
def Queue.cie (q : Queue) : Bool := wbit q.cfg 25
def Queue.ivec (q : Queue) : Nat := field q.cfg 32 16
def Queue.en (q : Queue) : Bool := wbit q.cfg 63
def Queue.asid (q : Queue) : BitVec 16 := BitVec.ofNat 16 (field q.qbase 48 16)
def Queue.ring (q : Queue) : Nat := field q.qbase 6 42 * 64
def Queue.cring (q : Queue) : Nat := field q.cbase 4 44 * 16

/-- Write one waiting completion record, when the ring has room and committed writes do not wait; then the interrupt. -/
def State.flushComp (s : State) (q : Nat) : State :=
  let u := s.queue q
  match u.comps with
  | [] => s
  | (node, id, st) :: rest =>
    let a := u.cring + 16 * (u.ctail.toNat % u.qlen)
    if decide (u.qlen ≤ (u.ctail - u.chead).toNat) || s.writeWaits a then s
    else
      let s1 := s.commitDevice a 16 (id.toNat + st.toNat * 2 ^ 64)
      let s2 := s1.modQueue q (fun w => { w with ctail := w.ctail + 1, comps := rest })
      let s3 := if node then s2 else { s2 with ended := fset .nobody id.toNat .nobody s2.ended }
      if u.cie then s3.queueIrq q u.part u.ivec else s3

/-- Write all that can be written. -/
def State.flushComps (s : State) (q : Nat) : Nat → State
  | 0 => s
  | n + 1 => (s.flushComp q).flushComps q n

/-- A completion joins those that wait, in order of completion. -/
def State.complete (s : State) (q : Nat) (node : Bool) (id st : Word) : State :=
  (s.modQueue q (fun u => { u with comps := u.comps ++ [(node, id, st)] })).flushComp q

/-- A status in the layout of R303. -/
def statusWord (done : Bool) (p failed killed cause : Nat) : Word :=
  BitVec.ofNat 64 (p % 65536 + failed % 65536 * 2 ^ 16 + killed % 65536 * 2 ^ 32 + cause % 256 * 2 ^ 48 + done.toNat * 2 ^ 63)

/-- Status of one task that ended with cause `c`, 0 for TEND: a kill is counted and not recorded (R331). -/
def endStatus (c : BitVec 8) : Word :=
  if c = 0 then statusWord true 1 0 0 0
  else if c = 0x86 then statusWord true 1 0 1 0
  else statusWord true 1 1 0 c.toNat

/-! Starting a task (R12). -/

/-- A new TASKID of a partition (R38). -/
def State.newTask (s : State) (p : Nat) : State × Word :=
  (s.modPart p (fun u => { u with serial := u.serial + 1 }),
   BitVec.ofNat 64 (p % 16 * 2 ^ 60 + (s.part p).serial % 2 ^ 60))

/-- RNGS at task start. -/
def seedOf (task : Word) : BitVec 32 :=
  let x := BitVec.setWidth 32 task ^^^ 0x9E3779B9#32
  if x = 0 then 1 else x

/-- Registers g1, g2, … from a list. -/
def argRegs (args : List Word) : FMap Word := fsetL 0 1 args []

/-- A slot as R12 leaves it at task start. -/
def State.freshSlot (s : State) (part : Nat) (pcls : BitVec 3) (asid : BitVec 16) (task entry : Word) (args : List Word)
    (gang msg : Bool) : Slot :=
  let c := (s.part part).cfg
  let g := argRegs args
  { phase := .ready, pc := entry, g := g, status := statusOf part pcls.toNat gang msg false, taskid := task, asid := asid,
    tvec := c.tvec0, rngs := seedOf task, quota := c.quota0, wdog := c.wdog0, gto := c.gto0, ebcmin := c.ebcmin0,
    seg := { start := entry, image := { g := g, rngs := seedOf task }, began := s.commits } }

/-! Join cells (R234, R235). -/

/-- Join status of a cell (R235). -/
def Cell.status (c : Cell) : Word := statusWord false c.total c.failed c.killed c.cause.toNat

def Cell.complete (c : Cell) : Bool := decide (c.total ≤ c.ended)

/-- A cell's status is delivered: it is free, and later credits of its workers are dropped (R331). -/
def State.freeCell (s : State) (id : Nat) : State :=
  let s1 := s.setCell id none
  { s1 with ended := s1.ended.filter (fun e => e.2 != .cell id) }

/-- Put a record at the end of a tile's run queue. -/
def State.enqueue (s : State) (home : Nat) (r : Record) : State := s.modTile home (fun t => { t with runq := t.runq ++ [r] })

/-- A record that was to take a slot waits at the dispenser again: the slot goes to a continuation, or its task is not switched out (R334). A
continuation waits with its cell. -/
def State.returnNext (s : State) (key : Nat) : State :=
  match (s.slot key).next with
  | none => s
  | some r =>
    let t := match r.kind with
      | .cont _ => s
      | _ => s.modPart r.part.toNat (fun p => { p with waiting := p.waiting ++ [r] })
    t.modSlot key (fun l => { l with next := none })

/-- The continuation of a cell starts in a slot, with the status as it then is and with an acquire (R224), and the cell is freed (R235, R331). -/
def State.startCont (s0 : State) (key id : Nat) : State :=
  let s := (s0.returnNext key).acquireAt key
  match s.cell id with
  | none => s
  | some c =>
    let r := s.newTask c.part.toNat
    (r.1.setSlot key { r.1.freshSlot c.part.toNat c.pcls c.asid r.2 c.cont [c.status, c.carg] false false with
      queue := c.queue, demand := c.demand }).freeCell id

/-- A tile's run queue holds its 16 records (R315). -/
def State.runqFull (s : State) (home : Nat) : Bool := decide (16 ≤ (s.tile home).runq.length)

/-- The record of a cell's continuation. -/
def Cell.contRecord (c : Cell) (id now : Nat) : Record :=
  { kind := .cont id, pcls := c.pcls, part := c.part, asid := c.asid, queue := c.queue, demand := c.demand, since := now }

/-- A continuation with no slot joins the run queue of its tile, or waits for room there (R235, R315). -/
def State.queueCont (s : State) (id : Nat) (c : Cell) : State :=
  if s.runqFull c.tile then s.setCell id (some { c with due := true })
  else (s.setCell id (some { c with due := false })).enqueue c.tile (c.contRecord id s.now)

/-- Continuations that waited for room in a tile's run queue join it. -/
def State.takeDueCont (s : State) (home : Nat) : State :=
  s.cells.foldl (fun t e => match t.cell e.1 with
    | some c => if c.due && c.tile == home then t.queueCont e.1 c else t
    | none => t) s

/-- The continuation of a cell: in the slot of the last worker, or in a run queue when it has none (R235). -/
def State.continueCell (s : State) (id : Nat) (c : Cell) (key : Option Nat) : State :=
  match key with
  | some k => s.startCont k id
  | none => s.queueCont id c

/-- The cell completes: the barrier detaches, the continuation starts, the cell is freed (R235). -/
def State.completeCell (s : State) (id : Nat) (c : Cell) (key : Option Nat) : State :=
  let s1 := match c.barrier with
    | none => s
    | some b =>
      if s.alive c.creator then s.updateTask c.creator c.tile (fun l => l.detach b.toNat c.cause)
      else if c.cause = 0 then s else s.creditEnded c.creator c.cause
  if c.cont != 0 then s1.continueCell id c key
  else if c.orphan then s1.freeCell id
  else s1

/-- A worker of a cell ends with cause `c`, 0 for TEND. -/
def State.cellEnd (s : State) (id : Nat) (c : BitVec 8) (key : Option Nat) : State :=
  match s.cell id with
  | none => s
  | some u =>
    let fail := c != 0 && c != 0x86
    let v := { u with
      ended := u.ended + 1
      failed := u.failed + fail.toNat
      killed := u.killed + (c == 0x86).toNat
      cause := if fail && u.cause == 0 then c else u.cause }
    let s1 := s.setCell id (some v)
    if v.complete then s1.completeCell id v key else s1

/-- The workers of a cell whose ends wait at its switch. -/
def State.endsHeld (s : State) (id : Nat) : Nat :=
  (s.held.filter (fun h => match h.who with
    | .credit c _ ends _ => ends && c == id
    | _ => false)).length

/-- The credit of a worker's end reaches its cell, or waits at the switch (R323). The slot of the last worker is then kept for the continuation
that it will start (R235). -/
def State.creditCell (s : State) (id : Nat) (c : BitVec 8) (key : Option Nat) : State :=
  if s.cellHeld id then
    match s.cell id, key with
    | some u, some k =>
      if u.cont != 0 && decide (u.total ≤ u.ended + s.endsHeld id + 1) then
        ((s.returnNext k).modSlot k (fun l => { l with next := some (u.contRecord id s.now) })).holdCredit id c true (some k)
      else s.holdCredit id c true none
    | _, _ => s.holdCredit id c true none
  else s.cellEnd id c key

/-- The slot that a continuation has been promised, unless it has been lost since. -/
def State.keepsFor (s : State) (id k : Nat) : Bool :=
  (s.slot k).phase == .free && (match (s.slot k).next with
    | some r => r.kind == .cont id
    | none => false)

/-- A credit that has waited is delivered. -/
def State.deliverCredit (s : State) (id : Nat) (cause : BitVec 8) (ends : Bool) (key : Option Nat) : State :=
  if !ends then s.causeAtCell id cause
  else match key with
  | some k => if s.keepsFor id k then (s.modSlot k (fun l => { l with next := none })).cellEnd id cause (some k) else s.cellEnd id cause none
  | none => s.cellEnd id cause none

/-- The credits whose turn has come at switches no longer mid-swap, in order of arrival (R323). -/
def State.releaseCredits (s : State) : State :=
  (s.held.foldl (fun (a : State × List Nat) h =>
    match h.who with
    | .credit id c e k =>
      if a.2.contains h.stall || a.1.midSwap h.stall then (a.1, h.stall :: a.2)
      else (({ a.1 with held := a.1.held.erase h } : State).deliverCredit id c e k, a.2)
    | _ => (a.1, h.stall :: a.2)) (s, [])).1

/-! The end of a task (R237, R331). -/

/-- The cells that an ended task created with no continuation: complete ones are freed, the others when they complete (R235). -/
def State.dropCells (s : State) (task : Word) : State :=
  s.cells.foldl (fun t e => match e.2 with
    | some c =>
      if c.creator == task && c.cont == 0 && c.node.isNone then
        (if c.complete then t.freeCell e.1 else t.setCell e.1 (some { c with orphan := true }))
      else t
    | none => t) s

/-- The creator is credited, with the slot the task leaves, if any; later credits go to the same place (R331). -/
def State.creditEnd (s : State) (task : Word) (o : Origin) (c : BitVec 8) (key : Option Nat) : State :=
  let s0 := s.dropCells task
  match o with
  | .nobody => s0
  | .cell id => ({ s0 with ended := fset .nobody task.toNat o s0.ended }).creditCell id c key
  | .queue q => ({ s0 with ended := fset .nobody task.toNat o s0.ended }).complete q false task (endStatus c)
  | .node _ _ => s0

/-- Leases of a task on a tile are returned (R234). -/
def State.freeLeases (s : State) (home : Nat) (task : Word) : State :=
  s.modTile home (fun t => { t with
    abLeases := t.abLeases.filter (fun e => e.1 != task)
    wbLeases := t.wbLeases.filter (fun e => e.1 != task) })

/-- The commands of unfolding units for a task that ends keep its handles, and run on (R201, R331). -/
def State.keepUnfolds (s : State) (l : Slot) : State :=
  let keep (h : Nat) (u : Unfold) : Unfold :=
    if u.task == l.taskid && u.rings.isNone && (!l.gang || h == l.leaseTile) then { u with rings := some (l.qr u.qa.toNat, l.qr u.qc.toNat) } else u
  { s with tiles := s.tiles.map (fun e => (e.1, { e.2 with unfold := e.2.unfold.map (keep e.1) })) }

/-- Keys of the slots that hold members of the gang of slot `key` (R174). -/
def State.gangKeys (s : State) (key : Nat) : List Nat :=
  let me := s.slot key
  if me.gang then
    (slotsOfStall (stallOf (homeOf key))).filter (fun k => (s.slot k).occupied && (s.slot k).gang && (s.slot k).taskid == me.taskid)
  else [key]

/-- Other members of a task's gang remain, in a slot or switched out. -/
def State.othersRemain (s : State) (task : Word) : Bool := s.alive task

/-- A gang's ending under one member's cause is kept with the members that remain. -/
def State.notePeer (s : State) (task : Word) (c : BitVec 8) : State :=
  let f (l : Slot) : Slot := if l.peerEnd = 0 then { l with peerEnd := c } else l
  { s with
    slots := s.slots.map (fun e => if e.2.occupied && e.2.taskid == task then (e.1, f e.2) else e)
    parts := s.parts.map (fun p => { p with saved := p.saved.map (fun t => if t.ctx.taskid == task then { t with ctx := f t.ctx } else t) }) }

/-- The task of slot `key` ends with cause `c`, 0 for TEND: its segment is discarded with the slot, its leases are returned,
and its creator is credited when no other member of its gang remains (R266, R331). -/
def State.finishTask (s : State) (key : Nat) (c : BitVec 8) : State :=
  let sl := s.slot key
  let s1 := (((s.landLate key).setSlot key sl.vacated).keepUnfolds sl).freeLeases sl.leaseTile sl.taskid
  let c' := if c = 0 then sl.peerEnd else c
  if s1.othersRemain sl.taskid then (if c' = 0 then s1 else s1.notePeer sl.taskid c')
  else s1.creditEnd sl.taskid sl.origin c' (some key)

/-- Another area of the same gang, whose record then stands for the members that remain (R338). -/
def State.gangArea (s : State) (p area : Nat) : Option Nat :=
  let l := (s.part p).saved
  match l.find? (fun t => t.area == area) with
  | none => none
  | some t => if t.ctx.gang then (l.find? (fun u => u.area != area && u.ctx.taskid == t.ctx.taskid)).map (fun u => u.area) else none

/-- A change of every tile. -/
def State.mapTiles (s : State) (f : Tile → Tile) : State := { s with tiles := (s.tiles.map (fun e => (e.1, f e.2))).filter (fun e => e.2 != {}) }

/-- Take a switched-out task's record away; its area returns to the pool. -/
def State.dropSaved (s : State) (p area : Nat) : State :=
  let rest (r : Record) : Option Record :=
    if r.kind = .saved area && r.part.toNat == p then (s.gangArea p area).map (fun a => { r with kind := .saved a }) else some r
  let s1 := s.modPart p (fun pt => { pt with saved := pt.saved.filter (fun t => t.area != area) })
  { s1.mapTiles (fun x => { x with runq := x.runq.filterMap rest }) with
    lstalls := s1.lstalls.map (fun e => (e.1, { e.2 with reserved := e.2.reserved.map (fun r => (rest r).getD r) })) }

/-- DBGCTL.ENDH of a partition: a task that would end with cause `c`, other than by TEND or a kill, halts instead (R344). -/
def State.endh (s : State) (p : Nat) (c : BitVec 8) : Bool := c != 0 && c != 0x86 && wbit (s.part p).dbgctl 1

/-- An area's task is halted there: HALTED is set, and it has no record in a run queue (R335, R344). -/
def State.haltArea (s : State) (p area : Nat) : State :=
  let ss := s.rd (area + 8) 8
  let s1 := (s.rawWrite (area + 8) 8 (ss + (if bit ss 10 then 0 else 2 ^ 10))).modSaved p area (fun u =>
    { u with queued := false, ctx := { u.ctx with phase := .halted } })
  s1.mapTiles (fun x => { x with runq := x.runq.filter (fun r => !(r.kind = .saved area && r.part.toNat == p)) })

/-- A switched-out task halts in place of its end, with all members of its gang (R179, R344): ECAUSE and EVAL are set in its own area. -/
def State.haltSaved (s : State) (p : Nat) (t : Saved) (c : BitVec 8) (v : Word) : State :=
  let all := (s.part p).saved.filter (fun u => u.area == t.area || (t.ctx.gang && u.ctx.taskid == t.ctx.taskid))
  let s1 := ((s.rawWrite (t.area + 0x38) 8 c.toNat).rawWrite (t.area + 0x40) 8 v.toNat).modSaved p t.area (fun u =>
    { u with ctx := { u.ctx with ecause := c, eval := v } })
  all.foldl (fun u x => u.haltArea p x.area) s1

/-- The record of a task without a slot has been taken away: its leases are returned, and its creator is credited when no other member of
its gang remains (R331). -/
def State.endAway (s : State) (l : Slot) (c : BitVec 8) : State :=
  let s1 := (s.keepUnfolds l).freeLeases l.leaseTile l.taskid
  let c' := if c = 0 then l.peerEnd else c
  if s1.othersRemain l.taskid then s1.notePeer l.taskid c' else s1.creditEnd l.taskid l.origin c' none

/-- A switched-out task ends without a restore (R343), or halts in place of the end. -/
def State.finishSaved (s : State) (p : Nat) (t : Saved) (c : BitVec 8) (v : Word) : State :=
  if s.endh p c then s.haltSaved p t c v else (s.dropSaved p t.area).endAway t.ctx c

/-- A migrant that waits in a mailbox ends there (R331, R343), or will start halted (R344). -/
def State.finishMailed (s : State) (task : Word) (c : BitVec 8) (v : Word) : State :=
  if s.endh (taskPart task) c then s.modMailed task (fun l => { l with phase := .halted, ecause := c, eval := v })
  else match (s.tiles.flatMap (fun e => e.2.mailbox)).find? (fun m => m.carries task) with
  | none => s
  | some m => (s.mapTiles (fun x => { x with mailbox := x.mailbox.filter (fun y => !(y.carries task)) })).endAway (m.migrant.getD {}) c

/-- The other members of a slot's gang are to halt with it (R179, R344). -/
def State.haltPeers (s : State) (key : Nat) : State :=
  ((s.gangKeys key).filter (fun k => k != key)).foldl (fun t k => t.modSlot k (fun l =>
    if l.stops.contains .halt || l.phase == .halted then l else { l with stops := l.stops ++ [.halt] })) s

/-- Ending a task with cause `c` (R331), or its halt in place of the end while ENDH is 1, with the pc unchanged (R344). -/
def State.endTask (s : State) (key : Nat) (c : BitVec 8) (v : Word) : State :=
  let sl := s.slot key
  if s.endh sl.part c then
    (s.setSlot key { sl with
      phase := .halted
      pc := sl.unitStart
      hints := []
      prio := false
      performing := false
      arrived := if sl.performing then none else sl.arrived
      ecause := c
      eval := v }).haltPeers key
  else s.finishTask key c

end Sys2Proof.Machine
end

