-- ==== Sys2Proof/Machine/Ops.lean ====
section
/-! DEFINITION. What every instruction shares: taking a trap (R326) with the undo of a doomed segment (R263, R264) and the break
of a gang barrier (R176), the return from one (R252), ending, retiring, waiting (R113), and commit-before (R88, R114). -/

namespace Sys2Proof.Machine

/-- What a step answers. -/
abbrev Outcome := Host.Outcome State Fault Refusal

/-- Both ends of an instruction, its completion and its early stop, are next states. -/
def finish : Except State State → Outcome
  | .ok s => .next s
  | .error s => .next s

/-! Small changes of a slot. -/

/-- A step of the debugger ends (R345). -/
def Slot.endUnit (sl : Slot) : Slot :=
  if sl.stepping then { sl with phase := .halted, stepping := false } else sl

/-- What an instruction in progress keeps is dropped. -/
def Slot.calm (sl : Slot) : Slot :=
  { sl with
    hints := []
    arrived := none
    performing := false
    sent := false
    reply := none
    committed := false
    prio := false
    prioRun := false
    age := 0
    seg := { sl.seg with opened := false } }

/-- Undoing the current segment (R264 Table 2): the pc goes to its first instruction. -/
def Slot.undo (sl : Slot) : Slot :=
  let im := sl.seg.image
  let c := sl.calm
  { c with
    g := im.g
    v := im.v
    k := im.k
    flags := putField sl.flags 0 7 (field im.flags 0 7)
    rngs := im.rngs
    pidx := 0
    pc := sl.seg.start
    load := none
    kept := sl.kept.filter (fun p => p.began != sl.seg.began)
    seg := { start := sl.seg.start, image := im, began := sl.seg.began } }

/-- Cause of a doomed segment: 0x40 when an entry dooms it, else 0x41 (R262). -/
def Slot.doomCause (sl : Slot) : BitVec 8 := if sl.seg.doom.isSome then 0x40 else 0x41

/-- EVAL of a doomed segment: the lowest granule address, or 0 (R261, R262). -/
def Slot.doomEval (sl : Slot) : Word := sl.seg.doom.getD 0

/-- The handler can start for exception pc `e` (R326). -/
def Slot.handlerOk (sl : Slot) (e : Word) : Bool :=
  sl.tvec != 0 && legalTarget sl.tvec.toNat && !(decide (1 ≤ sl.pl) && e == sl.tvec)

/-- The slot after trap entry (R326). A segment that the trapping instruction's commit began starts behind it (R264). PIDX stays as it is,
under causes 0x01 to 0x05 too, where R46 gives 0 and R326 and R332 say that the entry does not write it: the model's choice
(notes/assumptions/61.md). A load that waited here is kept for the return (R94). -/
def Slot.trapEntry (sl : Slot) (c : BitVec 8) (e v : Word) : Slot :=
  let t := sl.calm
  let up := if sl.pl = 0 then putField sl.status 0 2 1 else sl.status
  ({ t with
    phase := .ready
    estatus := sl.status
    epc := e
    ecause := c
    eval := v
    status := if c = 0x40 || c = 0x41 then putField up 6 1 0 else up
    gmask := 0
    load := none
    kept := sl.load.toList ++ sl.kept
    seg := if sl.seg.opened then { sl.seg with start := sl.pc + 4, image := sl.image, opened := false } else t.seg
    pc := sl.tvec } : Slot).endUnit

/-! Taking a trap. -/

/-- Trap entry at one slot, or the end of its task when the handler cannot start (R326, R331). -/
def State.enterTrap (s : State) (key : Nat) (c : BitVec 8) (e v : Word) : State :=
  let sl := s.slot key
  if sl.handlerOk e then s.setSlot key (sl.trapEntry c e v)
  else (s.setSlot key { sl.calm with pc := sl.unitStart }).endTask key c v

/-- Trap entry at one slot, in which the undo of a doomed segment takes the place of any other cause (R263). -/
def State.raise (s : State) (key : Nat) (c : BitVec 8) (e v : Word) : State :=
  let sl := s.slot key
  if sl.doomed then
    (s.setSlot key sl.undo).enterTrap key sl.doomCause sl.seg.start sl.doomEval
  else s.enterTrap key c e v

/-- The slot has arrived at its gang's barrier, or performs (R174). -/
def Slot.atBarrier (sl : Slot) : Bool := sl.arrived.isSome

/-- Every other member of the gang that waits or performs takes cause 0x60, and GMASK becomes 0, when a member that has not
arrived, or that performs, leaves with `c` (R176, R178). -/
def State.breakGang (s : State) (key : Nat) (c : BitVec 8) : State :=
  let me := s.slot key
  if me.gang && (!me.atBarrier || me.performing) then
    let v := BitVec.ofNat 64 (c.toNat * 256 + homeOf key % 16)
    ((s.gangKeys key).filter (fun k => k != key)).foldl (fun t k =>
      let sl := t.slot k
      if sl.atBarrier then t.raise k 0x60 sl.pc v else t.setSlot k { sl with gmask := 0 }) s
  else s

/-- No handler can take the cause that slot `key` raises, and its task halts in place of its end (R326, R344). -/
def State.haltsOn (s : State) (key : Nat) (c : BitVec 8) (e : Word) : Bool :=
  let sl := s.slot key
  if sl.doomed then !(sl.undo.handlerOk sl.seg.start) && s.endh sl.part sl.doomCause else !(sl.handlerOk e) && s.endh sl.part c

/-- Taking a trap of cause `c`, exception pc `e` and value `v` at slot `key`; a gang that halts keeps its barrier (R179, R344). -/
def State.trap (s : State) (key : Nat) (c : BitVec 8) (e v : Word) : State :=
  let sl := s.slot key
  (if s.haltsOn key c e then s else s.breakGang key (if sl.doomed then sl.doomCause else c)).raise key c e v

/-- The end of the task of a slot, with the break of its gang's barrier, which a task that halts instead leaves whole (R176, R344). -/
def State.endAt (s : State) (key : Nat) (c : BitVec 8) (v : Word) : State :=
  (if s.endh (s.slot key).part c then s else s.breakGang key c).endTask key c v

/-! Issue counts (R311, R314). -/

def State.chargeQueue (s : State) (q : Option Nat) (n : Nat) : State :=
  match q with
  | some i => s.modQueue i (fun u => { u with deficit := u.deficit - n })
  | none => s

/-- The instruction of slot `key` has issued: DEF of its queue, and its energy units (R311, R402). -/
def State.countIssue (s : State) (key : Nat) : State :=
  (s.chargeQueue (s.slot key).queue 1).modSlot key (fun l => { l with issued := l.issued + 1, units := l.units + 1 })

/-- A precise trap of the instruction that issues, at its own address or that of the first HINT of its run (R59). A cause of kind
E ends the task instead (R325). -/
def State.trapMe (s : State) (c : BitVec 8) (v : Word) : State :=
  if c = 0x2D then (s.countIssue s.cur).endAt s.cur c v
  else (s.countIssue s.cur).trap s.cur c s.me.unitStart v

/-- A trap of a word that is no legal instruction: nothing is counted (R46). -/
def State.trapWord (s : State) (c : BitVec 8) (v : Word) : State := s.trap s.cur c s.me.unitStart v

/-! Retiring and waiting. -/

/-- The instruction has completed and the slot goes on at `pc`; a segment that it began starts there (R256, R264). One that ends a wait here
leaves the slot the grant of its PRIO hint (R56). -/
def Slot.retireAt (sl : Slot) (pc : Word) : Slot :=
  let t := sl.calm
  ({ t with
    phase := .ready
    pc := pc
    prio := sl.prioRun
    seg := if sl.seg.opened then { sl.seg with start := pc, image := sl.image, opened := false } else t.seg } : Slot).endUnit

def State.retireTo (s : State) (pc : Word) : State := (s.countIssue s.cur).modMe (fun l => l.retireAt pc)
def State.retire (s : State) : State := s.retireTo (s.me.pc + 4)

/-- The run holds a PRIO hint, kind 5 (R56). -/
def Slot.hasHint (sl : Slot) (kind : Nat) : Bool := sl.hints.any (fun h => h.1.toNat == kind)

/-- The slot waits at its instruction, which executes again from its first HINT when woken (R59, R113). -/
def Slot.waitAt (sl : Slot) (w : Wait) : Slot :=
  { sl with
    phase := .waiting w
    pc := sl.unitStart
    hints := []
    committed := false
    prio := false
    prioRun := sl.hasHint 5
    seg := { sl.seg with opened := false } }

def State.waitFor (s : State) (w : Wait) : State := s.modMe (fun l => l.waitAt w)

/-- An instruction that continues in sequence: the check of its successor comes before any effect (R80). -/
def sequential (s : State) (body : State → Except State State) : Outcome :=
  if legalTarget (s.me.pc.toNat + 4) then finish (body s) else .next (s.trapMe 0x09 (s.me.pc + 4))

/-- An instruction that changes only its slot and completes. -/
def plain (s : State) (f : Slot → Slot) : Outcome := sequential s (fun t => .ok ((t.setMe (f t.me)).retire))

/-- Transfer of control to `t` after the change `f` of the slot, or cause 0x09 with nothing written (R80). -/
def transfer (s : State) (t : Int) (f : Slot → Slot) : Outcome :=
  if 0 ≤ t ∧ t < 2 ^ 52 ∧ t % 4 = 0 then .next ((s.setMe (f s.me)).retireTo (BitVec.ofInt 64 t))
  else .next (s.trapMe 0x09 (BitVec.ofInt 64 t))

/-! Commit-before (R88, R224, R114). -/

/-- The commit waits: the segment is sealed, and its commit is carried out when the wait ends (R114). -/
def State.sealMe (s : State) : State :=
  s.modMe (fun l => let t := l.waitAt .completion; { t with seg := { t.seg with sealedCommit := true } })

/-- Commit before the instruction's own effect: refused with cause 0x40 or 0x41 when the segment is doomed, sealed when it must
wait, and not made again once it has been (R88, R114). -/
def State.commitBefore (s : State) : Except State State :=
  let sl := s.me
  if sl.committed then .ok (s.setMe { sl with committed := false, seg := { sl.seg with opened := true } })
  else if sl.doomed then .error (s.trapMe sl.doomCause sl.doomEval)
  else if sl.seg.sealedCommit then .error (s.waitFor .completion)
  else if s.commitBlocked sl (homeOf s.cur) then .error s.sealMe
  else .ok (s.commitSlot s.cur)

/-- The new segment begins at the instruction itself: an acquire access or a wait (R264). -/
def State.openHere (s : State) : State :=
  s.modMe (fun l => { l with seg := { l.seg with opened := false, start := l.unitStart, image := l.image } })

/-! Return from a trap (R252). -/

/-- The slot after ERET: pc, PL, RM, EDL and EWF. -/
def Slot.trapReturn (sl : Slot) : Slot :=
  { sl with status :=
      putField (putField (putField sl.status 0 5 (field sl.estatus 0 5)) 16 1 (field sl.estatus 16 1)) 17 1 (field sl.estatus 17 1) }

/-- A return to `pc` takes up the load that a trap interrupted there, if any; those that inner handlers left are dropped, and a return to
PL 0 elsewhere drops all (R94; notes/assumptions/23.md). -/
def Slot.takeUp (sl : Slot) (pc : Word) : Slot :=
  match sl.kept.dropWhile (fun p => p.start != pc) with
  | p :: rest => { sl with load := some p, kept := rest }
  | [] => if sl.pl = 0 then { sl with kept := [] } else sl

/-- The return: cause 0x09 and nothing written when EPC is no legal target. -/
def State.returnTrap (s : State) : State :=
  if legalTarget s.me.epc.toNat then (s.modMe (fun l => l.trapReturn.takeUp l.epc)).retireTo s.me.epc
  else s.trapMe 0x09 s.me.epc

end Sys2Proof.Machine
end

