-- ==== Sys2Proof/Machine/Operands.lean ====
section
/-! DEFINITION. Operand forms: immediates and offsets (R42, R49, R58), effective addresses (R86), typed-buffer addresses (R26, R27),
size codes, and what the hint run gives the hinted instruction (R56 to R58). -/

namespace Sys2Proof.Machine

/-! Immediates. -/

/-- The payload of a hint kind in the run, if the run holds it. -/
def Slot.hint (sl : Slot) (kind : Nat) : Option (BitVec 22) :=
  (sl.hints.find? (fun h => h.1.toNat == kind)).map (fun h => h.2)

/-- The 64-bit immediate of an instruction that takes LIMM hints (R58, R77). -/
def Slot.imm64 (sl : Slot) (imm : BitVec 18) : Word :=
  match sl.hint 0, sl.hint 1 with
  | none, none => imm.signExtend 64
  | a, b =>
    let low := imm.toNat + (match a with | some p => p.toNat | none => 0) * 2 ^ 18
    let high := match b with
      | some p => p.toNat * 2 ^ 40 + (if bit p.toNat 21 then 3 * 2 ^ 62 else 0)
      | none => if bit low 39 then (2 ^ 24 - 1) * 2 ^ 40 else 0
    BitVec.ofNat 64 (low + high)

/-- Branch target pc + 4 × offset, exact (R82, R83). -/
def branchTarget {w : Nat} (pc : Word) (off : BitVec w) : Int := pc.toNat + 4 * off.toInt

/-- Rounding mode: the ROUND hint's, or STATUS.RM (R56). -/
def Slot.roundMode (sl : Slot) : Nat := match sl.hint 2 with | some p => p.toNat % 8 | none => sl.rm.toNat

/-- The SAT hint: none, wrap or saturate (R56). -/
def Slot.satHint (sl : Slot) : Option Bool := (sl.hint 3).map (fun p => p.toNat % 2 == 1)

/-- The SCOPE hint's code (R56). -/
def Slot.scopeHint (sl : Slot) : Option Nat := (sl.hint 4).map (fun p => p.toNat % 8)

/-- The CACHE hint's policy: normal without one (R282). -/
def Slot.cachePolicy (sl : Slot) : Nat := match sl.hint 6 with | some p => p.toNat % 4 | none => 0

/-- The count of a T-format instruction: the WAITN hint's, or the n field (R181). -/
def Slot.count (sl : Slot) (n : BitVec 4) : Nat := match sl.hint 7 with | some p => p.toNat % 4096 | none => n.toNat

/-! Effective addresses (R86). -/

/-- Bytes of a size code. -/
def sizeOf (sz : BitVec 2) : Nat := 2 ^ sz.toNat

/-- LD and ST: a + SignExtend(offset12) × sz. -/
def eaScaled (a : Word) (off : BitVec 12) (sz : Nat) : Word := a + BitVec.ofInt 64 (off.toInt * sz)

/-- PF, CFL, CINV: the 32-byte granule of a + SignExtend(offset12) × 32. -/
def eaGranule (a : Word) (off : BitVec 12) : Word :=
  let e := eaScaled a off 32
  BitVec.ofNat 64 (e.toNat / 32 * 32)

/-- Bytes of the operand of an atomic or bank operation: 4 or 8. -/
def opSize (dw : BitVec 1) : Nat := if dw = 0 then 4 else 8

/-! Typed-buffer addresses (R26, R27). -/

/-- Bytes of AB (space 1) and WB (space 2). -/
def bufBytes (sp : Nat) : Nat := if sp = 1 then 0x40000 else 0x10000

/-- The tile that a TSEL names, as a HOME: the own tile, or a logical tile of the arcade. -/
def tselHome (home tsel : Nat) : Option Nat :=
  if tsel = 0 then some home else if tsel < 128 then none else some (home / 128 * 128 + (tsel - 128))

/-- A tile whose stall is marked dead (R348). -/
def State.tileDead (s : State) (home : Nat) : Bool := (s.lstall (stallOf home)).dead

/-- A typed-buffer address of `n` bytes without the alignment check: tile and offset. -/
def State.bufPlace (s : State) (home sp : Nat) (a : Word) (n : Nat) : Option (Nat × Nat) :=
  match tselHome home (field a 56 8) with
  | none => none
  | some h =>
    if field a 18 38 != 0 || decide (bufBytes sp < field a 0 18 + n) || s.tileDead h then none else some (h, field a 0 18)

/-- The checks of R27 for an access of `sz` bytes; the error is the cause. -/
def State.checkBuffer (s : State) (home sp : Nat) (a : Word) (sz : Nat) : Except (BitVec 8) (Nat × Nat) :=
  match s.bufPlace home sp a sz with
  | none => .error 0x21
  | some (h, o) => if o % sz != 0 then .error 0x20 else .ok (h, o)

/-- The access of the slot that issues, as a switch holds it. -/
def State.myAccess (s : State) : HeldBy := .access s.cur s.me.taskid s.me.unitStart

/-- A named tile's stall is mid-swap, or what it held goes first: the access waits at the switch (R28, R323). -/
def State.bufHeld (s : State) (home : Nat) : Bool := s.heldUp (stallOf home) s.myAccess

/-- The access of the slot that issues waits at the switch, in order of arrival when its stall is mid-swap. -/
def State.holdAccess (s : State) (home : Nat) : State := (s.waitFor .completion).hold (stallOf home) s.myAccess

/-! Typed-buffer contents. -/

/-- A typed-buffer store of the slot that issues: 8 bytes are two words, of which this step may leave one to the slot's next boundary (R92). -/
def State.bufStore (s : State) (home sp off n v : Nat) : State :=
  match (if n = 8 then s.cut else none) with
  | none => s.bufWrite home sp off n v
  | some k =>
    if k % 2 = 0 then (s.bufWrite home sp off 4 v).modMe (fun l => { l with late := some (home, sp, off + 4, v / 2 ^ 32) })
    else (s.bufWrite home sp (off + 4) 4 (v / 2 ^ 32)).modMe (fun l => { l with late := some (home, sp, off, v) })

/-- Buffer address of an offset, as EVAL names it. -/
def bufAddr (a : Word) (off : Nat) : Word := putField a 0 18 off

end Sys2Proof.Machine
end

