-- ==== Sys2Proof/Machine/Flags.lean ====
section
/-! DEFINITION. Scalar results and the one flag scalar code sets (R66 to R79): the integer functions over 64-bit words, shared by the
register and immediate forms, and FLAGS.DZ of a zero divisor (R76). The flags of numeric results come with Machine/Real.lean's
rounding; their sticky OR is Slot.orFlags (R33). -/

namespace Sys2Proof.Machine

/-- SHL, SHR, SRA, ROL by n = 0 to 63 (R69). -/
def shlW (a : Word) (n : Nat) : Word := a <<< n
def shrW (a : Word) (n : Nat) : Word := a >>> n
def sraW (a : Word) (n : Nat) : Word := a.sshiftRight n
def rolW (a : Word) (n : Nat) : Word := if n = 0 then a else (a <<< n) ||| (a >>> (64 - n))

/-- MIN, MAX, MINN, MAXN over words of any width: the first operand on a tie (R69). -/
def minS {w : Nat} (a b : BitVec w) : BitVec w := if a.toInt ≤ b.toInt then a else b
def maxS {w : Nat} (a b : BitVec w) : BitVec w := if b.toInt ≤ a.toInt then a else b
def minU {w : Nat} (a b : BitVec w) : BitVec w := if a.toNat ≤ b.toNat then a else b
def maxU {w : Nat} (a b : BitVec w) : BitVec w := if b.toNat ≤ a.toNat then a else b

/-- A condition as 0 or 1. -/
def ofBool (b : Bool) : Word := if b then 1 else 0

/-- Zero bits above the highest one bit, of `n` bits (R70). -/
def clzN (x : Nat) : Nat → Nat
  | 0 => 0
  | n + 1 => if bit x n then 0 else clzN x n + 1

/-- Zero bits below the lowest one bit, of `n` bits. -/
def ctzN (x : Nat) : Nat → Nat
  | 0 => 0
  | n + 1 => if x % 2 = 1 then 0 else ctzN (x / 2) n + 1

/-- One bits among the lowest `n`. -/
def popN (x : Nat) : Nat → Nat
  | 0 => 0
  | n + 1 => x % 2 + popN (x / 2) n

/-- The low bits of a size code, zero- or sign-extended (R71). -/
def zextW (a : Word) (sz : BitVec 2) : Word := BitVec.ofNat 64 (a.toNat % 2 ^ (8 * sizeOf sz))
def sextN (x n : Nat) : Word := BitVec.ofInt 64 (BitVec.ofNat n x).toInt
def sextW (a : Word) (sz : BitVec 2) : Word := sextN a.toNat (8 * sizeOf sz)

/-- Position and effective width of a field control word (R72). -/
def bfPos (b : Word) : Nat := field b 0 6
def bfWidth (b : Word) : Nat := Nat.min (field b 8 7) (64 - bfPos b)

def bfxW (a b : Word) : Word := if bfWidth b = 0 then 0 else BitVec.ofNat 64 (field a (bfPos b) (bfWidth b))
def bfxsW (a b : Word) : Word := if bfWidth b = 0 then 0 else sextN (field a (bfPos b) (bfWidth b)) (bfWidth b)
def bfiW (old a b : Word) : Word := if bfWidth b = 0 then old else putField old (bfPos b) (bfWidth b) a.toNat

/-- LEA: the scaled index is added within bits [55:0] (R74). -/
def leaW (a b : Word) (sh : BitVec 2) : Word :=
  BitVec.ofNat 64 ((a.toNat % 2 ^ 56 + b.toNat * 2 ^ sh.toNat) % 2 ^ 56 + a.toNat / 2 ^ 56 * 2 ^ 56)

/-- High halves of the product (R75). -/
def mulhW (a b : Word) : Word := BitVec.ofInt 64 ((a.toInt * b.toInt) / 2 ^ 64)
def mulhnW (a b : Word) : Word := BitVec.ofNat 64 (a.toNat * b.toNat / 2 ^ 64)

/-- DIV, DIVN, REM, REMN for b ≠ 0, truncating toward zero, and their results for b = 0 (R76). -/
def divW (a b : Word) : Word := if b = 0 then 0xFFFFFFFFFFFFFFFF else BitVec.ofInt 64 (a.toInt.tdiv b.toInt)
def divnW (a b : Word) : Word := if b = 0 then 0xFFFFFFFFFFFFFFFF else BitVec.ofNat 64 (a.toNat / b.toNat)
def remW (a b : Word) : Word := if b = 0 then a else BitVec.ofInt 64 (a.toInt.tmod b.toInt)
def remnW (a b : Word) : Word := if b = 0 then a else BitVec.ofNat 64 (a.toNat % b.toNat)

/-- FLAGS.DZ of a division by `b` (R76). -/
def divFlags (b : Word) : FlagSet := if b = 0 then fDZ else 0

/-- LIH: bits [63:48] replaced (R79). -/
def lihW (a : Word) (imm : BitVec 16) : Word := putField a 48 16 imm.toNat

/-- Branch conditions (R82 Table 4). -/
def condEq (a b : Word) : Bool := a == b
def condLt (a b : Word) : Bool := decide (a.toInt < b.toInt)
def condLtn (a b : Word) : Bool := decide (a.toNat < b.toNat)

end Sys2Proof.Machine
end

