-- ==== Sys2Proof/Machine/Vector.lean ====
section
/-! DEFINITION. The meanings of majors 0x18 to 0x1C and 0x1F: vector arithmetic, comparison, moves, conversion, quantisation,
reductions, permutes, the elementary functions and mask instructions (R137 to R164). -/

namespace Sys2Proof.Machine

/-! Registers as elements. -/

/-- Element `e` of a register of elements of `w` bits (R18). -/
def VReg.elem (x : VReg) (w e : Nat) : Nat := x.lanes.toNat / 2 ^ (w * e) % 2 ^ w

/-- Lane `i`. -/
def VReg.lane (x : VReg) (i : Nat) : Nat := x.elem 32 i

def VReg.tg (x : VReg) : Nat := x.tag.toNat

/-- Elements of a register of a tag. -/
def elems (tag : Nat) : Nat := 32 * elemsPerLane tag

/-- Value of element `e` under the register's own tag. -/
def VReg.num (x : VReg) (e : Nat) : Num := decodeElem x.tg (x.elem (elemBits x.tg) e)

/-- Elements of `w` bits packed from `f`, `n` of them from number `e`. -/
def packFrom (w : Nat) (f : Nat → Nat) : Nat → Nat → Nat
  | _, 0 => 0
  | e, n + 1 => f e % 2 ^ w + packFrom w f (e + 1) n * 2 ^ w

/-- What an element-wise operation delivers: the register image, the flags and the generator (R137). -/
structure Elems where
  image : Nat
  flags : FlagSet
  rng : BitVec 32
  deriving DecidableEq, Repr

/-- Elements in ascending order; one in a masked-off lane is not computed and consumes no step of RNGS (R120, R137). -/
def elemLoop (w : Nat) (on : Nat → Bool) (f : Nat → BitVec 32 → Rounded) : Nat → Nat → BitVec 32 → Elems
  | _, 0, rng => ⟨0, 0, rng⟩
  | e, n + 1, rng =>
    if on (w * e / 32) then
      let r := f e rng
      let t := elemLoop w on f (e + 1) n r.rng
      ⟨r.bits % 2 ^ w + t.image * 2 ^ w, r.flags ||| t.flags, t.rng⟩
    else
      let t := elemLoop w on f (e + 1) n rng
      ⟨t.image * 2 ^ w, t.flags, t.rng⟩

/-! Tag checks and masked writes (R17, R19, R20). -/

/-- The tags of R140. -/
def arithTag (t : Nat) : Bool := decide (1 ≤ t) && decide (t ≤ 8)

/-- The tags of shifts (R144). -/
def shiftTag (t : Nat) : Bool := t == 1 || t == 2 || t == 6 || t == 8

/-- Cause 0x08 for a VOID source, else 0x07 for a tag that is not accepted (R19). -/
def tagCheck (srcs : List VReg) (ok : Bool) : Except (BitVec 8) Unit :=
  if srcs.any (fun x => x.tag == 0) then .error 0x08 else if ok then .ok () else .error 0x07

/-- Lanes of `new` under the mask, the others from `old` (R20). -/
def mergeLanes (mask : BitVec 32) (old new : Nat) : Nat :=
  packFrom 32 (fun i => (if mask.getLsbD i then new else old) / 2 ^ (32 * i)) 0 32

/-- The destination after a masked write of tag `tag`, or cause 0x07 (R20). -/
def maskedWrite (old : VReg) (tag : Nat) (mask : BitVec 32) (new : Nat) : Except (BitVec 8) VReg :=
  let t := BitVec.ofNat 4 tag
  if mask = 0xFFFFFFFF then .ok { tag := t, lanes := BitVec.ofNat 1024 new }
  else if old.tag = t || old.tag = 0 then
    .ok { tag := t, lanes := BitVec.ofNat 1024 (mergeLanes mask (if old.tag = t then old.lanes.toNat else 0) new) }
  else .error 0x07

/-- Selector of `lt`. -/
def selLt : Nat := 24

/-- A vector destination is written, and `lt` last; STATUS.VS is set (R17, R137). -/
def Slot.putVec (sl : Slot) (vd : BitVec 5) (x : VReg) : Slot := ((sl.vw vd.toNat x).vw selLt x).setVs

/-- A masked vector result. -/
def Slot.vecResult (sl : Slot) (vd : BitVec 5) (km : BitVec 3) (tag new : Nat) : Except (BitVec 8) Slot :=
  (maskedWrite (sl.vr vd.toNat) tag (sl.kr km) new).map (sl.putVec vd)

/-- An instruction word, as EVAL receives it. -/
def wordOf (i : Instr) : Word :=
  match encode i with
  | some w => w.setWidth 64
  | none => 0

/-- A vector instruction: its slot after it, or a precise trap with EVAL the word (R19, R138). -/
def vecRun (i : Instr) (s : State) (body : Slot → Except (BitVec 8) Slot) : Outcome :=
  sequential s (fun t => match body t.me with
    | .error c => .error (t.trapMe c (wordOf i))
    | .ok l => .ok ((t.setMe l).retire))

/-- SAT hint as a mode of Round (R56). -/
def Slot.satMode (sl : Slot) : SatMode :=
  match sl.satHint with
  | none => .default
  | some true => .sat
  | some false => .wrap

def Slot.rmode (sl : Slot) : RMode := BitVec.ofNat 3 sl.roundMode

/-- Element-wise operation into tag `t`: flags are ORed into FLAGS and the generator moves on once it is known that nothing traps. -/
def Slot.elemOp (sl : Slot) (vd : BitVec 5) (km : BitVec 3) (t : Nat) (f : Nat → BitVec 32 → Rounded) : Except (BitVec 8) Slot :=
  let r := elemLoop (elemBits t) (fun i => (sl.kr km).getLsbD i) f 0 (elems t) sl.rngs
  (sl.vecResult vd km t r.image).map (fun l => { l.orFlags r.flags with rngs := r.rng })

/-- One rounding of an exact value with the flags of its operation. -/
def Slot.rnd (sl : Slot) (t : Nat) (x : Num × FlagSet) (rng : BitVec 32) : Rounded :=
  let r := roundTo t sl.rmode sl.satMode rng x.1
  { r with flags := r.flags ||| x.2 }

/-! Element arithmetic (R140 to R142). -/

/-- The lesser or the greater of two values; −0 lies below +0 (R140). -/
def Num.pick (greater : Bool) (x y : Num) : Num × FlagSet :=
  match x.cmp y with
  | none => (.nan false, snanFlag [x, y])
  | some .lt => (if greater then y else x, 0)
  | some .gt => (if greater then x else y, 0)
  | some .eq => match x with
    | .fin true _ _ _ => (if greater then y else x, 0)
    | _ => (if greater then x else y, 0)

def Num.abs : Num → Num × FlagSet
  | .nan s => (.nan false, if s then fNV else 0)
  | .inf _ => (.inf false, 0)
  | .fin _ m e k => (.fin false m e k, 0)

def Num.negate : Num → Num × FlagSet
  | .nan s => (.nan false, if s then fNV else 0)
  | .inf n => (.inf (!n), 0)
  | .fin n m e k => (.fin (!n) m e k, 0)

/-- Two-source arithmetic of equal tags (R140). -/
def vecArith2 (i : Instr) (f : RMode → Num → Num → Num × FlagSet) (vd va vb : BitVec 5) (km : BitVec 3) (s : State) : Outcome :=
  vecRun i s (fun l =>
    let a := l.vr va.toNat
    let b := l.vr vb.toNat
    (tagCheck [a, b] (arithTag a.tg && b.tag == a.tag)).bind (fun _ =>
      l.elemOp vd km a.tg (fun e g => l.rnd a.tg (f l.rmode (a.num e) (b.num e)) g)))

/-- One-source arithmetic over accepted tags, the result in the tag of va. -/
def vecArith1 (i : Instr) (ok : Nat → Bool) (f : Num → Num × FlagSet) (vd va : BitVec 5) (km : BitVec 3) (s : State) : Outcome :=
  vecRun i s (fun l =>
    let a := l.vr va.toNat
    (tagCheck [a] (ok a.tg)).bind (fun _ => l.elemOp vd km a.tg (fun e g => l.rnd a.tg (f (a.num e)) g)))

/-- VFMA: the addend is operand-file register n (R142). -/
def vecFma (i : Instr) (vd va vb : BitVec 5) (km n : BitVec 3) (s : State) : Outcome :=
  vecRun i s (fun l =>
    let a := l.vr va.toNat
    let b := l.vr vb.toNat
    let o := l.vr (16 + n.toNat)
    (tagCheck [a, b, o] (arithTag a.tg && b.tag == a.tag && o.tag == a.tag)).bind (fun _ =>
      l.elemOp vd km a.tg (fun e g => l.rnd a.tg ((a.num e).fma l.rmode (b.num e) (o.num e)) g)))

/-! Bits (R143, R144). -/

/-- A lane-wise bit operation on registers of one tag (R143). -/
def vecBits (i : Instr) (f : BitVec 1024 → BitVec 1024 → BitVec 1024) (vd va vb : BitVec 5) (km : BitVec 3) (s : State) : Outcome :=
  vecRun i s (fun l =>
    let a := l.vr va.toNat
    let b := l.vr vb.toNat
    (tagCheck [a, b] (b.tag == a.tag)).bind (fun _ => l.vecResult vd km a.tg (f a.lanes b.lanes).toNat))

/-- Shift of a `w`-bit element: 0 left, 1 right, 2 right with copies of the top bit (R144). -/
def shiftElem (kind w x n : Nat) : Nat :=
  match kind with
  | 0 => x * 2 ^ n % 2 ^ w
  | 1 => x / 2 ^ n
  | _ => lowBits w (sval w x / ((2 ^ n : Nat) : Int))

/-- VSHL, VSHR, VSRA (R144). -/
def vecShift (i : Instr) (kind : Nat) (vd va vb : BitVec 5) (km : BitVec 3) (s : State) : Outcome :=
  vecRun i s (fun l =>
    let a := l.vr va.toNat
    let b := l.vr vb.toNat
    let w := elemBits a.tg
    (tagCheck [a, b] (shiftTag a.tg && b.tag == a.tag)).bind (fun _ =>
      l.vecResult vd km a.tg (packFrom w (fun e => shiftElem kind w (a.elem w e) (b.elem w e % w)) 0 (elems a.tg))))

/-! Compare, select and moves (R145 to R150). -/

/-- Condition c of R145 on one comparison: EQ, NE, LT, LE, GT, GE. -/
def cmpHolds (c : Nat) (o : Option Ordering) : Bool :=
  match c, o with
  | 0, o => o == some .eq
  | 1, o => o != some .eq
  | 2, o => o == some .lt
  | 3, o => o == some .lt || o == some .eq
  | 4, o => o == some .gt
  | _, o => o == some .gt || o == some .eq

/-- VCMP: a mask bit for each unmasked lane whose elements all hold (R145). -/
def vecCmp (i : Instr) (c : Nat) (kd : BitVec 3) (va vb : BitVec 5) (km : BitVec 3) (s : State) : Outcome :=
  vecRun i s (fun l =>
    let a := l.vr va.toNat
    let b := l.vr vb.toNat
    let m := elemsPerLane a.tg
    let mask := l.kr km
    (tagCheck [a, b] (arithTag a.tg && b.tag == a.tag)).map (fun _ =>
      let bitOf (j : Nat) : Nat :=
        (mask.getLsbD j && (List.range m).all (fun k => cmpHolds c ((a.num (m * j + k)).cmp (b.num (m * j + k))))).toNat
      let sn := (List.range (elems a.tg)).any (fun e => mask.getLsbD (e / m) && ((a.num e).isSnan || (b.num e).isSnan))
      ((l.kw kd (BitVec.ofNat 32 (packFrom 1 bitOf 0 32))).orFlags (if sn then fNV else 0)).setVs))

/-- VSEL: by lane, va where the choice lane is nonzero, else vb (R146). -/
def vecSel (i : Instr) (vd va vb : BitVec 5) (km n : BitVec 3) (s : State) : Outcome :=
  vecRun i s (fun l =>
    let a := l.vr va.toNat
    let b := l.vr vb.toNat
    let o := l.vr (16 + n.toNat)
    (tagCheck [a, b, o] (b.tag == a.tag)).bind (fun _ =>
      l.vecResult vd km a.tg (packFrom 32 (fun j => if o.lane j ≠ 0 then a.lane j else b.lane j) 0 32)))

/-- VMOV (R147). -/
def vecMov (i : Instr) (vd va : BitVec 5) (km : BitVec 3) (s : State) : Outcome :=
  vecRun i s (fun l =>
    let a := l.vr va.toNat
    (tagCheck [a] true).bind (fun _ => l.vecResult vd km a.tg a.lanes.toNat))

/-! Conversion and packing (R151 to R153). -/

/-- Tags with a value: those of the first row of R151 Table 3. -/
def valueTag (t : Nat) : Bool := decide (1 ≤ t) && decide (t ≤ 10)

/-- Does VCVT convert between these tags (R151 Table 3)? -/
def cvtOk (t u : Nat) : Bool :=
  (valueTag t && valueTag u) || (t == 6 && u == 11) || (t == 11 && u == 6) || (t == 8 && u == 12) || (t == 12 && u == 8)

/-- One converted element: a rounding, or a bit copy to or from C2 and X8. -/
def Slot.convert (sl : Slot) (a : VReg) (t e : Nat) (g : BitVec 32) : Rounded :=
  if valueTag a.tg && valueTag t then sl.rnd t (a.num e, snanFlag [a.num e]) g
  else { bits := a.elem (elemBits a.tg) e, rng := g }

/-- VCVT: elements beyond the source's are the all-zero code (R151). -/
def vecCvt (i : Instr) (vd va : BitVec 5) (km : BitVec 3) (tg : BitVec 4) (s : State) : Outcome :=
  vecRun i s (fun l =>
    let a := l.vr va.toNat
    let t := tg.toNat
    (tagCheck [a] (cvtOk a.tg t)).bind (fun _ =>
      l.elemOp vd km t (fun e g => if e < elems a.tg then l.convert a t e g else { bits := 0, rng := g })))

/-- Narrow tag of VPACK, 0 for none (R152 Table 4). -/
def packTag (t : Nat) : Nat :=
  match t with
  | 3 => 4 | 4 => 7 | 5 => 7 | 7 => 9 | 1 => 6 | 6 => 8 | 8 => 10
  | _ => 0

/-- Wide tag of VUNPK, 0 for none (R153 Table 4). -/
def unpackTag (t : Nat) : Nat :=
  match t with
  | 4 => 3 | 5 => 3 | 7 => 4 | 9 => 7 | 6 => 1 | 8 => 6 | 10 => 8
  | _ => 0

/-- VPACK (R152). -/
def vecPack (i : Instr) (vd va vb : BitVec 5) (km : BitVec 3) (s : State) : Outcome :=
  vecRun i s (fun l =>
    let a := l.vr va.toNat
    let b := l.vr vb.toNat
    let m := elems a.tg
    (tagCheck [a, b] (packTag a.tg != 0 && b.tag == a.tag)).bind (fun _ =>
      l.elemOp vd km (packTag a.tg) (fun e g =>
        let x := if e < m then a.num e else b.num (e - m)
        l.rnd (packTag a.tg) (x, snanFlag [x]) g)))

/-- VUNPK.L and VUNPK.H (R153). -/
def vecUnpack (i : Instr) (high : Bool) (vd va : BitVec 5) (km : BitVec 3) (s : State) : Outcome :=
  vecRun i s (fun l =>
    let a := l.vr va.toNat
    let h := elems a.tg / 2
    (tagCheck [a] (unpackTag a.tg != 0)).bind (fun _ =>
      l.elemOp vd km (unpackTag a.tg) (fun e g =>
        let x := a.num (if high then h + e else e)
        l.rnd (unpackTag a.tg) (x, snanFlag [x]) g)))

/-! Quantisation (R154 to R157). -/

/-- Blocks of 32 elements from block `j`, `n` of them: scales, codes, flags, generator, counts (R126). -/
def quantBlocks (t : Nat) (mode : RMode) (sm : SatMode) (a : VReg) :
    Nat → Nat → BitVec 32 → List Nat × List Nat × FlagSet × BitVec 32 × Nat × Nat
  | _, 0, g => ([], [], 0, g, 0, 0)
  | j, n + 1, g =>
    let (sc, cs, fl, g1, ns, nf) := quantBlock t mode sm ((List.range 32).map (fun k => a.num (32 * j + k))) g
    let (scs, css, fls, g2, ns2, nf2) := quantBlocks t mode sm a (j + 1) n g1
    (sc :: scs, cs ++ css, fl ||| fls, g2, ns + ns2, nf + nf2)

/-- VQNT: the register shifts down and the new blocks stand on top; the scale register follows, with its counters (R154, R155). When vd and
vb name one register it keeps the scales, and lt receives the narrow elements all the same, where R17 and R154 leave open which of the two
values of vd it takes: the model's choice (notes/assumptions/65.md). -/
def vecQuant (i : Instr) (vd va vb : BitVec 5) (tg : BitVec 4) (s : State) : Outcome :=
  vecRun i s (fun l =>
    let t := tg.toNat
    let a := l.vr va.toNat
    let d := l.vr vd.toNat
    let b := l.vr vb.toNat
    (tagCheck [a] ((a.tg == 3 || a.tg == 4 || a.tg == 5) && (d.tag == tg || d.tag == 0) && (b.tg == 12 || b.tag == 0))).map (fun _ =>
      let w := elemBits t
      let n := elems t
      let m := elems a.tg
      let nb := m / 32
      let sc := n / 32
      let oldD := if d.tag = tg then d else {}
      let oldB := if b.tg = 12 then b else {}
      let (xs, cs, fl, g, ns, nf) := quantBlocks t l.rmode l.satMode a 0 nb l.rngs
      let newD := packFrom w (fun e => if e + m < n then oldD.elem w (e + m) else cs.getD (e + m - n) 0) 0 n
      let cnt := Nat.min (oldB.lane 31 % 65536 + ns) 0xFFFF + Nat.min (oldB.lane 31 / 65536 + nf) 0xFFFF * 65536
      let newB := packFrom 8 (fun j => if j + nb < sc then oldB.elem 8 (j + nb) else if j < sc then xs.getD (j + nb - sc) 0 else 0) 0 124
        + cnt * 2 ^ 992
      let x : VReg := { tag := tg, lanes := BitVec.ofNat 1024 newD }
      let y : VReg := { tag := 12, lanes := BitVec.ofNat 1024 newB }
      ({ (((l.vw vd.toNat x).vw vb.toNat y).vw selLt x).orFlags fl with rngs := g }).setVs))

/-- VDQ: the top block times its scale, in F32 (R156). -/
def vecDq (i : Instr) (vd va vb : BitVec 5) (km : BitVec 3) (s : State) : Outcome :=
  vecRun i s (fun l =>
    let a := l.vr va.toNat
    let b := l.vr vb.toNat
    let n := elems a.tg
    let sc := b.elem 8 (n / 32 - 1)
    (tagCheck [a, b] (decide (7 ≤ a.tg) && decide (a.tg ≤ 10) && b.tg == 12)).bind (fun _ =>
      l.elemOp vd km 3 (fun e g =>
        let x := a.num (n - 32 + e)
        l.rnd 3 (scaleElem sc x, snanFlag [x] ||| scaleFlag sc) g)))

/-- VCBD: 16 lattice indices to 128 scaled F8 weights (R157). -/
def vecCbd (i : Instr) (vd va vb : BitVec 5) (km : BitVec 3) (s : State) : Outcome :=
  vecRun i s (fun l =>
    let a := l.vr va.toNat
    let b := l.vr vb.toNat
    (tagCheck [a, b] (a.tg == 11 && b.tg == 12)).bind (fun _ =>
      l.elemOp vd km 7 (fun e g =>
        let w := (c2Weights (a.elem 16 (e / 8))).getD (e % 8) (.fin false 0 0 false)
        let sc := b.elem 8 (e / 8 / 4)
        l.rnd 7 (scaleElem sc w, scaleFlag sc) g)))

/-! Reductions and scans (R158, R159). -/

/-- A running reduction of values: its value, none when nothing has taken part, its flags, and the infinities met. -/
structure Running where
  value : Option Num := none
  flags : FlagSet := 0
  pos : Bool := false
  neg : Bool := false
  deriving DecidableEq, Repr

/-- The first value taken, with a NaN in canonical form. -/
def Num.clean : Num → Num
  | .nan _ => .nan false
  | x => x

/-- Running sum: NaN, an infinity, or an exact sum; infinities of both signs set NV, whatever lies between them (R158). The sign of an exact
zero is that of R140 taken pair by pair in element order: the model's choice (notes/assumptions/22.md). -/
def addStep (mode : RMode) (r : Running) (x : Num) : Running :=
  let p := r.pos || (match x with | .inf n => !n | _ => false)
  let q := r.neg || (match x with | .inf n => n | _ => false)
  { value := some (match r.value with | none => x.clean | some v => (v.add mode x).1)
    flags := r.flags ||| snanFlag [x] ||| (if p && q then fNV else 0), pos := p, neg := q }

/-- Running least or greatest. -/
def pickStep (greater : Bool) (r : Running) (x : Num) : Running :=
  match r.value with
  | none => { r with value := some x.clean, flags := snanFlag [x] }
  | some v => let y := v.pick greater x; { r with value := some y.1, flags := r.flags ||| y.2 }

/-- A rounded reduction, the all-zero code when nothing took part. -/
def Slot.redRound (sl : Slot) (t : Nat) (r : Running) (g : BitVec 32) : Rounded :=
  match r.value with
  | none => { bits := 0, rng := g }
  | some x => sl.rnd t (x, r.flags) g

/-- Elements that take part: those of the lanes the mask names. -/
def Slot.takesPart (sl : Slot) (km : BitVec 3) (t e : Nat) : Bool := (sl.kr km).getLsbD (e / elemsPerLane t)

/-- A whole vector destination with flags and generator (R158, R159: every element is written). -/
def Slot.putWhole (sl : Slot) (vd : BitVec 5) (t image : Nat) (fl : FlagSet) (g : BitVec 32) : Slot :=
  let l := (sl.putVec vd { tag := BitVec.ofNat 4 t, lanes := BitVec.ofNat 1024 image }).orFlags fl
  { l with rngs := g }

/-- VRED of values (R158). -/
def vecRed (i : Instr) (step : RMode → Running → Num → Running) (vd va : BitVec 5) (km : BitVec 3)
    (s : State) : Outcome :=
  vecRun i s (fun l =>
    let a := l.vr va.toNat
    (tagCheck [a] (arithTag a.tg)).map (fun _ =>
      let es := (List.range (elems a.tg)).filter (l.takesPart km a.tg)
      let r := l.redRound a.tg (es.foldl (fun r e => step l.rmode r (a.num e)) {}) l.rngs
      l.putWhole vd a.tg (packFrom (elemBits a.tg) (fun _ => r.bits) 0 (elems a.tg)) r.flags r.rng))

/-- VRED of bits (R158). -/
def vecRedBits (i : Instr) (f : Nat → Nat → Nat) (vd va : BitVec 5) (km : BitVec 3) (s : State) : Outcome :=
  vecRun i s (fun l =>
    let a := l.vr va.toNat
    let w := elemBits a.tg
    (tagCheck [a] true).map (fun _ =>
      let r := ((List.range (elems a.tg)).filter (l.takesPart km a.tg)).foldl (fun r e => match r with
        | none => some (a.elem w e)
        | some x => some (f x (a.elem w e))) none
      l.putWhole vd a.tg (packFrom w (fun _ => r.getD 0) 0 (elems a.tg)) 0 l.rngs))

/-- Elements of a scan from element `e`, `n` of them: each running result is rounded once (R159). -/
def Slot.scanLoop (sl : Slot) (step : RMode → Running → Num → Running) (a : VReg) (km : BitVec 3) :
    Nat → Nat → Running → BitVec 32 → Elems
  | _, 0, _, g => ⟨0, 0, g⟩
  | e, n + 1, r, g =>
    let r' := if sl.takesPart km a.tg e then step sl.rmode r (a.num e) else r
    let x := sl.redRound a.tg r' g
    let t := sl.scanLoop step a km (e + 1) n r' x.rng
    ⟨x.bits % 2 ^ elemBits a.tg + t.image * 2 ^ elemBits a.tg, x.flags ||| t.flags, t.rng⟩

/-- VSCAN of values (R159). -/
def vecScan (i : Instr) (step : RMode → Running → Num → Running) (vd va : BitVec 5) (km : BitVec 3)
    (s : State) : Outcome :=
  vecRun i s (fun l =>
    let a := l.vr va.toNat
    (tagCheck [a] (arithTag a.tg)).map (fun _ =>
      let r := l.scanLoop step a km 0 (elems a.tg) {} l.rngs
      l.putWhole vd a.tg r.image r.flags r.rng))

/-- Elements of a bit scan. -/
def Slot.scanBits (sl : Slot) (f : Nat → Nat → Nat) (a : VReg) (km : BitVec 3) : Nat → Nat → Option Nat → Nat
  | _, 0, _ => 0
  | e, n + 1, r =>
    let w := elemBits a.tg
    let r' := if sl.takesPart km a.tg e then some (match r with | none => a.elem w e | some x => f x (a.elem w e)) else r
    r'.getD 0 + sl.scanBits f a km (e + 1) n r' * 2 ^ w

/-- VSCAN of bits (R159). -/
def vecScanBits (i : Instr) (f : Nat → Nat → Nat) (vd va : BitVec 5) (km : BitVec 3) (s : State) : Outcome :=
  vecRun i s (fun l =>
    let a := l.vr va.toNat
    (tagCheck [a] true).map (fun _ => l.putWhole vd a.tg (l.scanBits f a km 0 (elems a.tg) none) 0 l.rngs))

/-! Permutes (R160, R161). -/

/-- VPERM (R160). -/
def vecPerm (i : Instr) (vd va vb : BitVec 5) (km : BitVec 3) (s : State) : Outcome :=
  vecRun i s (fun l =>
    let a := l.vr va.toNat
    let b := l.vr vb.toNat
    (tagCheck [a, b] (b.tg == 1 || b.tg == 2)).bind (fun _ =>
      l.vecResult vd km a.tg (packFrom 32 (fun j => a.lane (b.lane j % 32)) 0 32)))

/-- VSHF: elements rotate toward higher numbers (R161). -/
def vecShf (i : Instr) (vd va n : BitVec 5) (km : BitVec 3) (s : State) : Outcome :=
  vecRun i s (fun l =>
    let a := l.vr va.toNat
    let w := elemBits a.tg
    let k := elems a.tg
    (tagCheck [a] true).bind (fun _ =>
      l.vecResult vd km a.tg (packFrom w (fun e => a.elem w ((e + k - n.toNat) % k)) 0 k)))

/-- Tags of the elementary functions (R162). -/
def elemTag (t : Nat) : Bool := t == 3 || t == 4 || t == 5

/-! Mask instructions (R164). -/

/-- A mask result; STATUS.VS is set, for k0 too (R137). -/
def maskResult (f : Slot → BitVec 32) (kd : BitVec 3) (s : State) : Outcome := plain s (fun l => (l.kw kd (f l)).setVs)

/-- A scalar result from a mask. -/
def maskScalar (f : BitVec 32 → Word) (rd : BitVec 4) (ka : BitVec 3) (s : State) : Outcome :=
  plain s (fun l => l.gw rd (f (l.kr ka)))

/-! The instructions. -/

/-- VADD (R140). -/
def execVadd (vd va vb : BitVec 5) (km : BitVec 3) (s : State) : Outcome := vecArith2 (.vadd vd va vb km) (fun m x y => x.add m y) vd va vb km s

/-- VSUB (R140). -/
def execVsub (vd va vb : BitVec 5) (km : BitVec 3) (s : State) : Outcome := vecArith2 (.vsub vd va vb km) Num.sub vd va vb km s

/-- VMUL (R140). -/
def execVmul (vd va vb : BitVec 5) (km : BitVec 3) (s : State) : Outcome := vecArith2 (.vmul vd va vb km) (fun _ x y => x.mul y) vd va vb km s

/-- VMIN (R140). -/
def execVmin (vd va vb : BitVec 5) (km : BitVec 3) (s : State) : Outcome := vecArith2 (.vmin vd va vb km) (fun _ x y => x.pick false y) vd va vb km s

/-- VMAX (R140). -/
def execVmax (vd va vb : BitVec 5) (km : BitVec 3) (s : State) : Outcome := vecArith2 (.vmax vd va vb km) (fun _ x y => x.pick true y) vd va vb km s

/-- VABS (R141). -/
def execVabs (vd va : BitVec 5) (km : BitVec 3) (s : State) : Outcome := vecArith1 (.vabs vd va km) arithTag Num.abs vd va km s

/-- VNEG (R141). -/
def execVneg (vd va : BitVec 5) (km : BitVec 3) (s : State) : Outcome := vecArith1 (.vneg vd va km) arithTag Num.negate vd va km s

/-- VFMA (R142). -/
def execVfma (vd va vb : BitVec 5) (km n : BitVec 3) (s : State) : Outcome := vecFma (.vfma vd va vb km n) vd va vb km n s

/-- VAND (R143). -/
def execVand (vd va vb : BitVec 5) (km : BitVec 3) (s : State) : Outcome := vecBits (.vand vd va vb km) (fun a b => a &&& b) vd va vb km s

/-- VOR (R143). -/
def execVor (vd va vb : BitVec 5) (km : BitVec 3) (s : State) : Outcome := vecBits (.vor vd va vb km) (fun a b => a ||| b) vd va vb km s

/-- VXOR (R143). -/
def execVxor (vd va vb : BitVec 5) (km : BitVec 3) (s : State) : Outcome := vecBits (.vxor vd va vb km) (fun a b => a ^^^ b) vd va vb km s

/-- VSHL (R144). -/
def execVshl (vd va vb : BitVec 5) (km : BitVec 3) (s : State) : Outcome := vecShift (.vshl vd va vb km) 0 vd va vb km s

/-- VSHR (R144). -/
def execVshr (vd va vb : BitVec 5) (km : BitVec 3) (s : State) : Outcome := vecShift (.vshr vd va vb km) 1 vd va vb km s

/-- VSRA (R144). -/
def execVsra (vd va vb : BitVec 5) (km : BitVec 3) (s : State) : Outcome := vecShift (.vsra vd va vb km) 2 vd va vb km s

/-- VCMP.EQ (R145). -/
def execVcmpEq (kd : BitVec 3) (va vb : BitVec 5) (km : BitVec 3) (s : State) : Outcome := vecCmp (.vcmpEq kd va vb km) 0 kd va vb km s

/-- VCMP.NE (R145). -/
def execVcmpNe (kd : BitVec 3) (va vb : BitVec 5) (km : BitVec 3) (s : State) : Outcome := vecCmp (.vcmpNe kd va vb km) 1 kd va vb km s

/-- VCMP.LT (R145). -/
def execVcmpLt (kd : BitVec 3) (va vb : BitVec 5) (km : BitVec 3) (s : State) : Outcome := vecCmp (.vcmpLt kd va vb km) 2 kd va vb km s

/-- VCMP.LE (R145). -/
def execVcmpLe (kd : BitVec 3) (va vb : BitVec 5) (km : BitVec 3) (s : State) : Outcome := vecCmp (.vcmpLe kd va vb km) 3 kd va vb km s

/-- VCMP.GT (R145). -/
def execVcmpGt (kd : BitVec 3) (va vb : BitVec 5) (km : BitVec 3) (s : State) : Outcome := vecCmp (.vcmpGt kd va vb km) 4 kd va vb km s

/-- VCMP.GE (R145). -/
def execVcmpGe (kd : BitVec 3) (va vb : BitVec 5) (km : BitVec 3) (s : State) : Outcome := vecCmp (.vcmpGe kd va vb km) 5 kd va vb km s

/-- VSEL (R146). -/
def execVsel (vd va vb : BitVec 5) (km n : BitVec 3) (s : State) : Outcome := vecSel (.vsel vd va vb km n) vd va vb km n s

/-- VMOV (R147). -/
def execVmov (vd va : BitVec 5) (km : BitVec 3) (s : State) : Outcome := vecMov (.vmov vd va km) vd va km s

/-- VIDX (R148). -/
def execVidx (vd : BitVec 5) (km : BitVec 3) (s : State) : Outcome := 
  vecRun (.vidx vd km) s (fun l => l.vecResult vd km 1 (packFrom 32 (fun j => j) 0 32))

/-- VBC (R149). -/
def execVbc (vd : BitVec 5) (ra : BitVec 4) (km : BitVec 3) (tg : BitVec 4) (s : State) : Outcome := 
  vecRun (.vbc vd ra km tg) s (fun l =>
    l.vecResult vd km tg.toNat (packFrom (elemBits tg.toNat) (fun _ => (l.gr ra).toNat) 0 (elems tg.toNat)))

/-- VEXT (R150). -/
def execVext (rd : BitVec 4) (va : BitVec 5) (lane : BitVec 5) (s : State) : Outcome := 
  vecRun (.vext rd va lane) s (fun l =>
    (tagCheck [l.vr va.toNat] true).map (fun _ => l.gw rd (BitVec.ofNat 64 ((l.vr va.toNat).lane lane.toNat))))

/-- VCVT (R151). -/
def execVcvt (vd va : BitVec 5) (km : BitVec 3) (tg : BitVec 4) (s : State) : Outcome := vecCvt (.vcvt vd va km tg) vd va km tg s

/-- VQNT (R154). -/
def execVqnt (vd va vb : BitVec 5) (tg : BitVec 4) (s : State) : Outcome := vecQuant (.vqnt vd va vb tg) vd va vb tg s

/-- VDQ (R156). -/
def execVdq (vd va vb : BitVec 5) (km : BitVec 3) (s : State) : Outcome := vecDq (.vdq vd va vb km) vd va vb km s

/-- VCBD (R157). -/
def execVcbd (vd va vb : BitVec 5) (km : BitVec 3) (s : State) : Outcome := vecCbd (.vcbd vd va vb km) vd va vb km s

/-- VPACK (R152). -/
def execVpack (vd va vb : BitVec 5) (km : BitVec 3) (s : State) : Outcome := vecPack (.vpack vd va vb km) vd va vb km s

/-- VUNPK.L (R153). -/
def execVunpkL (vd va : BitVec 5) (km : BitVec 3) (s : State) : Outcome := vecUnpack (.vunpkL vd va km) false vd va km s

/-- VUNPK.H (R153). -/
def execVunpkH (vd va : BitVec 5) (km : BitVec 3) (s : State) : Outcome := vecUnpack (.vunpkH vd va km) true vd va km s

/-- VRED.ADD (R158). -/
def execVredAdd (vd va : BitVec 5) (km : BitVec 3) (s : State) : Outcome := vecRed (.vredAdd vd va km) addStep vd va km s

/-- VRED.MIN (R158). -/
def execVredMin (vd va : BitVec 5) (km : BitVec 3) (s : State) : Outcome := vecRed (.vredMin vd va km) (fun _ => pickStep false) vd va km s

/-- VRED.MAX (R158). -/
def execVredMax (vd va : BitVec 5) (km : BitVec 3) (s : State) : Outcome := vecRed (.vredMax vd va km) (fun _ => pickStep true) vd va km s

/-- VRED.AND (R158). -/
def execVredAnd (vd va : BitVec 5) (km : BitVec 3) (s : State) : Outcome := vecRedBits (.vredAnd vd va km) (fun x y => x &&& y) vd va km s

/-- VRED.OR (R158). -/
def execVredOr (vd va : BitVec 5) (km : BitVec 3) (s : State) : Outcome := vecRedBits (.vredOr vd va km) (fun x y => x ||| y) vd va km s

/-- VRED.XOR (R158). -/
def execVredXor (vd va : BitVec 5) (km : BitVec 3) (s : State) : Outcome := vecRedBits (.vredXor vd va km) (fun x y => x ^^^ y) vd va km s

/-- VSCAN.ADD (R159). -/
def execVscanAdd (vd va : BitVec 5) (km : BitVec 3) (s : State) : Outcome := vecScan (.vscanAdd vd va km) addStep vd va km s

/-- VSCAN.MIN (R159). -/
def execVscanMin (vd va : BitVec 5) (km : BitVec 3) (s : State) : Outcome := vecScan (.vscanMin vd va km) (fun _ => pickStep false) vd va km s

/-- VSCAN.MAX (R159). -/
def execVscanMax (vd va : BitVec 5) (km : BitVec 3) (s : State) : Outcome := vecScan (.vscanMax vd va km) (fun _ => pickStep true) vd va km s

/-- VSCAN.AND (R159). -/
def execVscanAnd (vd va : BitVec 5) (km : BitVec 3) (s : State) : Outcome := vecScanBits (.vscanAnd vd va km) (fun x y => x &&& y) vd va km s

/-- VSCAN.OR (R159). -/
def execVscanOr (vd va : BitVec 5) (km : BitVec 3) (s : State) : Outcome := vecScanBits (.vscanOr vd va km) (fun x y => x ||| y) vd va km s

/-- VSCAN.XOR (R159). -/
def execVscanXor (vd va : BitVec 5) (km : BitVec 3) (s : State) : Outcome := vecScanBits (.vscanXor vd va km) (fun x y => x ^^^ y) vd va km s

/-- VPERM (R160). -/
def execVperm (vd va vb : BitVec 5) (km : BitVec 3) (s : State) : Outcome := vecPerm (.vperm vd va vb km) vd va vb km s

/-- VSHF (R161). -/
def execVshf (vd va n : BitVec 5) (km : BitVec 3) (s : State) : Outcome := vecShf (.vshf vd va n km) vd va n km s

/-- VRCP (R162, R163). -/
def execVrcp (vd va : BitVec 5) (km : BitVec 3) (s : State) : Outcome := vecArith1 (.vrcp vd va km) elemTag (elementary 0) vd va km s

/-- VRSQ (R162, R163). -/
def execVrsq (vd va : BitVec 5) (km : BitVec 3) (s : State) : Outcome := vecArith1 (.vrsq vd va km) elemTag (elementary 1) vd va km s

/-- VEX2 (R162, R163). -/
def execVex2 (vd va : BitVec 5) (km : BitVec 3) (s : State) : Outcome := vecArith1 (.vex2 vd va km) elemTag (elementary 2) vd va km s

/-- VLG2 (R162, R163). -/
def execVlg2 (vd va : BitVec 5) (km : BitVec 3) (s : State) : Outcome := vecArith1 (.vlg2 vd va km) elemTag (elementary 3) vd va km s

/-- KAND (R164). -/
def execKand (kd ka kb : BitVec 3) (s : State) : Outcome := maskResult (fun l => l.kr ka &&& l.kr kb) kd s

/-- KOR (R164). -/
def execKor (kd ka kb : BitVec 3) (s : State) : Outcome := maskResult (fun l => l.kr ka ||| l.kr kb) kd s

/-- KXOR (R164). -/
def execKxor (kd ka kb : BitVec 3) (s : State) : Outcome := maskResult (fun l => l.kr ka ^^^ l.kr kb) kd s

/-- KNOT (R164). -/
def execKnot (kd ka : BitVec 3) (s : State) : Outcome := maskResult (fun l => ~~~(l.kr ka)) kd s

/-- KMOV kd, ka (R164). -/
def execKmovMaskToMask (kd ka : BitVec 3) (s : State) : Outcome := maskResult (fun l => l.kr ka) kd s

/-- KMOV kd, ra (R164). -/
def execKmovScalarToMask (kd : BitVec 3) (ra : BitVec 4) (s : State) : Outcome := maskResult (fun l => (l.gr ra).setWidth 32) kd s

/-- KMOV rd, ka (R164). -/
def execKmovMaskToScalar (rd : BitVec 4) (ka : BitVec 3) (s : State) : Outcome := maskScalar (fun x => x.setWidth 64) rd ka s

/-- KPOP (R164). -/
def execKpop (rd : BitVec 4) (ka : BitVec 3) (s : State) : Outcome := maskScalar (fun x => BitVec.ofNat 64 (popN x.toNat 32)) rd ka s

/-- KFF: 32 when no bit is set (R164). -/
def execKff (rd : BitVec 4) (ka : BitVec 3) (s : State) : Outcome := maskScalar (fun x => BitVec.ofNat 64 (ctzN x.toNat 32)) rd ka s

end Sys2Proof.Machine
end

