-- ==== Sys2Proof/Machine/Rings.lean ====
section
/-! DEFINITION. Ring handles (R23, R24) and the instructions of major 0x21 (R214 to R221), with the checks of rings that every
instruction of chapter 7 shares. -/

namespace Sys2Proof.Machine

/-- A handle read as its fields (R23 Table 4). -/
structure Ring where
  tsel : Nat := 0
  buf : Nat := 0
  base : Nat := 0
  slotsz : Nat := 0
  slots : Nat := 0
  prod : Nat := 0
  cons : Nat := 0
  filled : Nat := 0
  free : Nat := 0
  v : Bool := false
  deriving DecidableEq, Repr

def Ring.ofBits (h : BitVec 128) : Ring :=
  let x := h.toNat
  { tsel := bits x 127 120, buf := bits x 113 112, base := bits x 111 100, slotsz := bits x 99 88, slots := bits x 87 76,
    prod := bits x 75 64, cons := bits x 63 52, filled := bits x 51 40, free := bits x 39 28, v := bit x 0 }

def Ring.toBits (r : Ring) : BitVec 128 :=
  BitVec.ofNat 128 (r.v.toNat + r.free % 4096 * 2 ^ 28 + r.filled % 4096 * 2 ^ 40 + r.cons % 4096 * 2 ^ 52 + r.prod % 4096 * 2 ^ 64
    + r.slots % 4096 * 2 ^ 76 + r.slotsz % 4096 * 2 ^ 88 + r.base % 4096 * 2 ^ 100 + r.buf % 4 * 2 ^ 112 + r.tsel % 256 * 2 ^ 120)

def Slot.ring (sl : Slot) (i : BitVec 3) : Ring := Ring.ofBits (sl.qr i.toNat)
def Slot.setRing (sl : Slot) (i : BitVec 3) (r : Ring) : Slot := sl.qw i.toNat r.toBits

/-- Producer advance by n slots, as one update (R24). -/
def Ring.advProd (r : Ring) (n : Nat) : Ring :=
  { r with prod := (r.prod + n) % r.slots, filled := r.filled + n, free := r.free - n }

/-- Consumer advance by n slots. -/
def Ring.advCons (r : Ring) (n : Nat) : Ring :=
  { r with cons := (r.cons + n) % r.slots, filled := r.filled - n, free := r.free + n }

/-- Byte offset of ring slot `i` in its buffer. -/
def Ring.offset (r : Ring) (i : Nat) : Nat := (r.base + i * r.slotsz) * 64

/-- Space number of the ring's buffer: 1 AB, 2 WB. -/
def Ring.space (r : Ring) : Nat := r.buf + 1

/-- The tile that holds the ring. -/
def Ring.home (home : Nat) (r : Ring) : Nat := (tselHome home r.tsel).getD home

/-- The handle names the issuing tile itself (R180). -/
def Ring.own (home : Nat) (r : Ring) : Bool := r.tsel == 0 || r.tsel == 128 + home % 128

/-- The buffer that Table 1 of R180 asks for. -/
inductive RingBuf where
  | any
  | ab
  | ownAb
  | ownWb
  deriving DecidableEq, Repr

/-- EVAL of cause 0x69. -/
def ringEval (reason : Nat) (q : BitVec 3) : Word := BitVec.ofNat 64 (reason * 256 + q.toNat)

/-- The reasons 1 to 4 of R221, for a slot of `units` 64-byte units and a wait of `w` slots at once; the error is EVAL. Where several hold the
lowest reason is the model's choice (notes/assumptions/80.md). -/
def Slot.checkRing (sl : Slot) (home : Nat) (q : BitVec 3) (b : RingBuf) (units w : Nat) : Except Word Ring :=
  let r := sl.ring q
  let fits := match b with
    | .any => decide (r.buf ≤ 1)
    | .ab => r.buf == 0
    | .ownAb => r.buf == 0 && r.own home
    | .ownWb => r.buf == 1 && r.own home
  if !r.v then .error (ringEval 1 q)
  else if !fits then .error (ringEval 2 q)
  else if r.slotsz < units then .error (ringEval 3 q)
  else if r.slots < w then .error (ringEval 4 q)
  else .ok r

/-! The instructions of major 0x21. -/

/-- QCFG may not change a handle that an unfolding command of the slot or the gang's pending instruction refers to (R221). -/
def namesRing (i : Instr) (q : BitVec 3) : Bool :=
  match i with
  | .mxp qa qc _ _ chain => qa == q || (chain == 1 && qc == q)
  | .dec qa _ _ _ _ => qa == q
  | .phld qa _ _ => qa == q
  | .phrd qc _ => qc == q
  | .phwr qa _ _ => qa == q
  | _ => false

def State.ringInUse (s : State) (q : BitVec 3) : Bool :=
  (match (s.tile (homeOf s.cur)).unfold with
    | some u => u.slot.toNat == s.cur % 8 && u.task == s.me.taskid && (u.qa == q || u.qc == q)
    | none => false) ||
  (s.me.gang && (s.gangKeys s.cur).any (fun k => match (s.slot k).arrived with
    | some (i, _, _) => namesRing i q
    | none => false))

/-- A configuration word is refused (R215). A bit of [11:0] that is set, which R214 wants 0 and R215 does not name, counts as a reserved bit: the
model's choice (notes/assumptions/26.md). -/
def badConfig (v : Word) : Bool :=
  (field v 56 8 != 0 && decide (field v 56 8 < 128)) || field v 50 6 != 0 || decide (2 ≤ field v 48 2) || field v 0 12 != 0 ||
  field v 24 12 == 0 || field v 12 12 == 0 ||
  decide (bufBytes (field v 48 2 + 1) < (field v 36 12 + field v 24 12 * field v 12 12) * 64)

/-- The ring that a valid configuration word describes (R214). -/
def configRing (v : Word) : Ring :=
  { tsel := field v 56 8, buf := field v 48 2, base := field v 36 12, slotsz := field v 24 12, slots := field v 12 12,
    free := field v 12 12, v := true }

/-- QCFG (R214, R215). -/
def execQcfg (qa : BitVec 3) (rs : BitVec 4) (s : State) : Outcome :=
  sequential s (fun t =>
    let v := t.me.gr rs
    if t.ringInUse qa then .error (t.trapMe 0x69 (ringEval 5 qa))
    else if v = 0 then .ok ((t.modMe (fun l => l.setRing qa { l.ring qa with v := false })).retire)
    else if badConfig v then .error (t.trapMe 0x6A v)
    else .ok ((t.modMe (fun l => l.setRing qa (configRing v))).retire))

/-- A ring instruction on a checked handle: it waits until `ready`, and then changes the ring (R216, R217, R219). -/
def ringOp (qa : BitVec 3) (n : BitVec 4) (ready : Ring → Nat → Bool) (f : Ring → Nat → Ring) (s : State) : Outcome :=
  sequential s (fun t =>
    let w := t.me.count n
    match t.me.checkRing (homeOf t.cur) qa .any 0 w with
    | .error v => .error (t.trapMe 0x69 v)
    | .ok r =>
      if ready r w then .ok ((t.modMe (fun l => l.setRing qa (f r w))).retire) else .error (t.waitFor .completion))

/-- QADV.P (R216). -/
def execQadvP (qa : BitVec 3) (n : BitVec 4) (s : State) : Outcome :=
  ringOp qa n (fun r w => decide (w ≤ r.free)) Ring.advProd s

/-- QADV.C (R216). -/
def execQadvC (qa : BitVec 3) (n : BitVec 4) (s : State) : Outcome :=
  ringOp qa n (fun r w => decide (w ≤ r.filled)) Ring.advCons s

/-- QWAIT (R217). -/
def execQwait (qa : BitVec 3) (n : BitVec 4) (s : State) : Outcome :=
  ringOp qa n (fun r w => decide (w ≤ r.filled)) (fun r _ => r) s

/-- QSTAT's word (R218). -/
def Ring.status (r : Ring) : Word :=
  if r.v then BitVec.ofNat 64 (r.prod * 2 ^ 52 + r.cons * 2 ^ 40 + r.filled * 2 ^ 28 + r.free * 2 ^ 16 + 1) else 0

/-- QSTAT (R218). -/
def execQstat (qa : BitVec 3) (rs : BitVec 4) (s : State) : Outcome :=
  plain s (fun l => l.gw rs (l.ring qa).status)

end Sys2Proof.Machine
end

