-- ==== Sys2Proof/Machine/Accum.lean ====
section
/-! DEFINITION. Accumulator entries and block records of CB, and the arithmetic from a detector reading to an entry (R129 to R136). -/

namespace Sys2Proof.Machine

/-- Block number of a column and row. -/
def blkKey (col row : Nat) : Nat := col * 256 + row / 16
def cbKey (col row : Nat) : Nat := col * 4096 + row

def Tile.entry (t : Tile) (col row : Nat) : CbEntry := fget {} t.cb (cbKey col row)
def Tile.block (t : Tile) (col row : Nat) : CbBlock := fget {} t.blk (blkKey col row)
def Tile.setEntry (t : Tile) (col row : Nat) (e : CbEntry) : Tile := { t with cb := fset {} (cbKey col row) e t.cb }
def Tile.setBlock (t : Tile) (col row : Nat) (b : CbBlock) : Tile := { t with blk := fset {} (blkKey col row) b t.blk }

/-- The value of an entry (R129). -/
def Tile.entryNum (t : Tile) (col row : Nat) : Num :=
  let b := t.block col row
  if b.e = 0x200 then .fin false 0 0 false
  else
    let x := t.entry col row
    let v := x.w.toInt + x.n.toInt
    .fin (decide (v < 0)) v.natAbs b.e.toInt false

/-- Counts of a block, saturating (R132). -/
def CbBlock.count (b : CbBlock) (sat fz : Nat) : CbBlock :=
  { b with
    satcnt := BitVec.ofNat 16 (Nat.min 0xFFFF (b.satcnt.toNat + sat))
    fzcnt := BitVec.ofNat 16 (Nat.min 0xFFFF (b.fzcnt.toNat + fz)) }

def CbBlock.declare (b : CbBlock) (ebc : Nat) : CbBlock := { b with ebc := BitVec.ofNat 4 (Nat.min b.ebc.toNat ebc) }

/-- FLAGS bits of saturations and flushes (R134). -/
def countFlags (sat fz : Nat) : FlagSet := (if sat = 0 then 0 else fSA) ||| (if fz = 0 then 0 else fFZ)

/-- A value limited to `n` bits, and whether it was. -/
def clampBits (n : Nat) (v : Int) : Int × Nat :=
  let top : Int := ((2 ^ (n - 1) : Nat) : Int)
  if v > top - 1 then (top - 1, 1) else if v < -top then (-top, 1) else (v, 0)

/-- Promote(): the entry and the saturations counted (R132). -/
def CbEntry.promote (x : CbEntry) : CbEntry × Nat :=
  let (w, k) := clampBits 80 (x.w.toInt + x.n.toInt)
  ({ w := BitVec.ofInt 80 w, n := 0, c := 0 }, k)

/-- The narrow run takes a contribution (R132): promoted first when the sum would leave 24 bits, and once it holds 16. -/
def CbEntry.contribute (x : CbEntry) (c : Int) : CbEntry × Nat :=
  let (y, k1) := if (clampBits 24 (x.n.toInt + c)).2 = 0 then (x, 0) else x.promote
  let z := { y with n := BitVec.ofInt 24 (y.n.toInt + c), c := y.c + 1 }
  if y.c = 15 then
    let (w, k2) := clampBits 80 (z.w.toInt + z.n.toInt)
    ({ w := BitVec.ofInt 80 w, n := 0, c := 0 }, k1 + k2)
  else (z, k1)

/-- One reading's contribution: tile, flags and generator after it. `q` is none when the contribution is invalid (R131, R132, R136). -/
def Tile.contribute (t : Tile) (col row : Nat) (d : Int) (ms : Nat) (q : Option Int) (ebc : Nat) (mode : RMode) (rng : BitVec 32) :
    Tile × FlagSet × BitVec 32 :=
  let b := (t.block col row).declare ebc
  match q with
  | none => (t.setBlock col row (b.count 1 0), fSA, rng)
  | some q =>
    let v := d * (ms : Int)
    let b1 := if b.e = 0x200 then { b with e := BitVec.ofInt 10 (max (-511) (min 511 q)) } else b
    let r := roundInt mode rng (decide (v < 0)) v.natAbs (q - b1.e.toInt) false
    let fz := if r.1 = 0 ∧ v ≠ 0 then 1 else 0
    let c := clampBits 24 r.1
    let x := (t.entry col row).contribute c.1
    let sat := (if d = -128 ∨ d = 127 then 1 else 0) + c.2 + x.2
    ((t.setEntry col row x.1).setBlock col row (b1.count sat fz), countFlags sat fz, r.2.2)

/-- Pass mantissa and exponent of a positive binary32 scale (R131). -/
def passMant (s : Nat) : Nat × Int :=
  match decodeFloat tF32 s with
  | .fin _ m e _ =>
    let k := floorLog2 m e
    let (lo, rem, sh) := splitAt m e (k - 7)
    let v := lo + (roundsUp 0 false (lo % 2 == 1) rem sh false 0).toNat
    if v = 256 then (128, k + 1) else (v, k)
  | _ => (0, 0)

/-- EBC of a residual ρ in units of 2^-8 reading units (R135). -/
def ebcOf (rho : Nat) : Nat := ((List.range 9).filter (fun n => decide (2 * rho * 2 ^ n ≤ 128 * 256))).getLastD 0

/-- Clearing of rows (R209). -/
def Tile.clearRows (t : Tile) (row n : Nat) (cntOnly : Bool) : Tile :=
  if cntOnly then
    { t with blk := (t.blk.map (fun e => if decide (row / 16 ≤ e.1 % 256) && decide (e.1 % 256 < row / 16 + n / 16) then
        (e.1, { e.2 with satcnt := 0, fzcnt := 0 }) else e)).filter (fun e => e.2 != {}) }
  else
    { t with
      blk := t.blk.filter (fun e => !(decide (row / 16 ≤ e.1 % 256) && decide (e.1 % 256 < row / 16 + n / 16)))
      cb := t.cb.filter (fun e => !(decide (row ≤ e.1 % 4096) && decide (e.1 % 4096 < row + n)))
      marked := t.marked.filter (fun e => !(decide (3 * 2 ^ 18 ≤ e.1) && decide (row ≤ e.1 % 4096) && decide (e.1 % 4096 < row + n))) }

/-- The lowest marked entry of rows `row` to `row + n - 1`, as a CB address (R346). -/
def Tile.cbMarked (t : Tile) (row n : Nat) : Option Nat :=
  if t.marked.isEmpty then none
  else (t.marked.find? (fun e => decide (3 * 2 ^ 18 ≤ e.1) && decide (row ≤ e.1 % 4096) && decide (e.1 % 4096 < row + n))).map
    (fun e => e.1 % 2 ^ 14)

/-! Accumulator instructions (R208 to R212). -/

def accRow (v : Word) : Nat := field v 0 12
def accRows (v : Word) : Nat := 16 * field v 12 9
def accEn (v : Word) : BitVec 10 := BitVec.ofNat 10 (field v 32 10)

/-- An accumulator operand is out of range (R208). -/
def badAcc (v : Word) (rescale : Bool) : Bool :=
  field v 12 9 == 0 || accRow v % 16 != 0 || decide (4096 < accRow v + accRows v) || field v 42 22 != 0 || field v 21 11 != 0 ||
  (!rescale && accEn v != 0) || (rescale && accEn v == 0x200)

/-- A checked operand, with the marks of the rows when they are read. -/
def State.accOp (s : State) (rs : BitVec 4) (rescale reads : Bool) (k : Nat → Nat → Except State State) : Except State State :=
  let v := s.me.gr rs
  if badAcc v rescale then .error (s.trapMe 0x68 v)
  else match (if reads then (s.tile (homeOf s.cur)).cbMarked (accRow v) (accRows v) else none) with
    | some a => .error (s.trapMe 0xC0 (BitVec.ofNat 64 a))
    | none => k (accRow v) (accRows v)

/-- ACCCLR (R209). -/
def execAccclr (rs : BitVec 4) (cntOnly : BitVec 1) (s : State) : Outcome :=
  sequential s (fun t => t.accOp rs false false (fun row n =>
    .ok (((t.modTile (homeOf t.cur) (fun u => u.clearRows row n (cntOnly == 1))).modMe Slot.setTbw).retire)))

/-- What ACCPRO carries along: tile, saturations, flushes, generator. -/
structure Promotion where
  tile : Tile
  sat : Nat := 0
  fz : Nat := 0
  rng : BitVec 32
  deriving DecidableEq, Repr

/-- Rescaling of a wide value by `sh` (R210). -/
def rescaleW (mode : RMode) (wrap : Bool) (rng : BitVec 32) (w sh : Int) : Int × Nat × Nat × BitVec 32 :=
  if 0 ≤ sh then
    let r := roundInt mode rng (decide (w < 0)) w.natAbs (-sh) false
    (r.1, 0, if r.1 = 0 ∧ w ≠ 0 then 1 else 0, r.2.2)
  else
    let v := w * ((2 ^ (-sh).toNat : Nat) : Int)
    let c := clampBits 80 v
    if wrap then (v, 0, 0, rng) else (c.1, c.2, 0, rng)

/-- Promotion of one entry, rescaled when `sh` is given. -/
def Promotion.entry (p : Promotion) (mode : RMode) (wrap : Bool) (sh : Option Int) (col row : Nat) : Promotion :=
  let (x, k) := (p.tile.entry col row).promote
  match sh with
  | none => { p with tile := p.tile.setEntry col row x, sat := p.sat + k }
  | some sh =>
    let (v, k2, f, rng) := rescaleW mode wrap p.rng x.w.toInt sh
    { tile := p.tile.setEntry col row { x with w := BitVec.ofInt 80 v }, sat := p.sat + k + k2, fz := p.fz + f, rng := rng }

/-- One block of ACCPRO (R210): tile, flags, generator. An inexact rescale sets no NX: R121 names every rounding and R210 only SA and FZ, and the
model's choice is R210's list (notes/assumptions/79.md). -/
def promoteBlock (en : Option (BitVec 10)) (mode : RMode) (wrap : Bool) (col row : Nat) (x : Tile × FlagSet × BitVec 32) :
    Tile × FlagSet × BitVec 32 :=
  let b := x.1.block col row
  let sh := match en with
    | some e => if b.e = 0x200 then none else some (e.toInt - b.e.toInt)
    | none => none
  let p := (List.range 16).foldl (fun p i => p.entry mode wrap sh col (row + i)) ({ tile := x.1, rng := x.2.2 } : Promotion)
  let b1 := (match en with | some e => { b with e := e } | none => b).count p.sat p.fz
  (p.tile.setBlock col row b1, x.2.1 ||| countFlags p.sat p.fz, p.rng)

/-- ACCPRO: blocks by column, rows ascending (R210). -/
def execAccpro (rs : BitVec 4) (rescale : BitVec 1) (s : State) : Outcome :=
  sequential s (fun t => t.accOp rs (rescale == 1) true (fun row n =>
    let l := t.me
    let en := if rescale = 1 then some (accEn (l.gr rs)) else none
    let blocks := (List.range 4).flatMap (fun c => (List.range (n / 16)).map (fun b => (c, row + 16 * b)))
    let r := blocks.foldl (fun x cb => promoteBlock en l.rmode (l.satMode == .wrap) cb.1 cb.2 x)
      (t.tile (homeOf t.cur), (0 : FlagSet), l.rngs)
    .ok (((t.setTile (homeOf t.cur) r.1).modMe (fun m => ({ m.orFlags r.2.1 with rngs := r.2.2 } : Slot).setTbw)).retire)))

/-- Values of the entries of rows from `row`, element 4r + c (R211). -/
def Tile.entries (t : Tile) (row n : Nat) : List Num := (List.range (4 * n)).map (fun e => t.entryNum (e % 4) (row + e / 4))

/-- Each value rounded once: codes, flags, generator (R211). -/
def roundList (tag : Nat) (mode : RMode) : List Num → BitVec 32 → List Nat × FlagSet × BitVec 32
  | [], rng => ([], 0, rng)
  | x :: xs, rng =>
    let r := roundTo tag mode .default rng x
    let (cs, fl, rng') := roundList tag mode xs r.rng
    (r.bits :: cs, r.flags ||| fl, rng')

/-- Values quantised in blocks of 32: scales, codes, flags, generator (R211, R126). -/
def quantList (tag : Nat) (mode : RMode) : Nat → List Num → BitVec 32 → List Nat × List Nat × FlagSet × BitVec 32
  | 0, _, rng => ([], [], 0, rng)
  | n + 1, xs, rng =>
    let (sc, cs, fl, rng1, _, _) := quantBlock tag mode .default (xs.take 32) rng
    let (scs, ds, fl2, rng2) := quantList tag mode n (xs.drop 32) rng1
    (sc :: scs, cs ++ ds, fl ||| fl2, rng2)

/-- Codes of `w` bits as one number, the first lowest. -/
def packCodes (w : Nat) : List Nat → Nat
  | [] => 0
  | c :: cs => c % 2 ^ w + 2 ^ w * packCodes w cs

/-- The output of ACCRD and ACCEXP goes to slot PROD of a ring; `out` gives its bytes, flags and generator (R211). A bad operand comes before a
marked accumulator word, and that before the ring: the spec gives no order, this is the model's choice (notes/assumptions/26.md). -/
def accOut (qc : BitVec 3) (rs : BitVec 4) (clr : BitVec 1) (bytes : Nat → Nat) (out : Slot → List Num → Nat × FlagSet × BitVec 32)
    (s : State) : Outcome :=
  sequential s (fun t => t.accOp rs false true (fun row n =>
    let l := t.me
    let home := homeOf t.cur
    match l.checkRing home qc .any ((bytes n + 63) / 64) 0 with
    | .error v => .error (t.trapMe 0x69 v)
    | .ok r =>
      let h := r.home home
      if t.tileDead h then .error (t.trapMe 0x21 (BitVec.ofNat 64 (r.tsel * 2 ^ 56 + r.offset r.prod)))
      else if r.free < 1 then .error (t.waitFor .completion)
      else if t.bufHeld h then .error (t.holdAccess h)
      else
        let (v, fl, rng) := out l ((t.tile home).entries row n)
        let t1 := t.bufWrite h r.space (r.offset r.prod) (bytes n) v
        let t2 := if clr = 1 then t1.modTile home (fun u => u.clearRows row n false) else t1
        .ok ((t2.modMe (fun m => (({ m.orFlags fl with rngs := rng } : Slot).setRing qc (r.advProd 1)).setTbw)).retire)))

/-- ACCRD (R211): it rounds by STATUS.RM (R182). -/
def execAccrd (qc : BitVec 3) (rs : BitVec 4) (clr : BitVec 1) (tg : BitVec 4) (s : State) : Outcome :=
  let w := elemBits tg.toNat
  accOut qc rs clr (fun n => 4 * n * w / 8) (fun l xs =>
    let (cs, fl, rng) := roundList tg.toNat l.rm xs l.rngs
    (packCodes w cs, fl, rng)) s

/-- ACCEXP (R211). -/
def execAccexp (qc : BitVec 3) (rs : BitVec 4) (clr : BitVec 1) (tg : BitVec 4) (s : State) : Outcome :=
  let w := elemBits tg.toNat
  accOut qc rs clr (fun n => 4 * n * w / 8 + n / 8) (fun l xs =>
    let (scs, cs, fl, rng) := quantList tg.toNat l.rmode (xs.length / 32) xs l.rngs
    (packCodes w cs + 2 ^ (w * cs.length) * packCodes 8 scs, fl, rng)) s

/-- A block record as CNTRD reads it (R129 Table 7). -/
def CbBlock.word (b : CbBlock) : Word :=
  BitVec.ofNat 64 (b.e.toNat + b.ebc.toNat * 2 ^ 12 + b.satcnt.toNat * 2 ^ 16 + b.fzcnt.toNat * 2 ^ 32)

/-- CNTRD (R212). -/
def execCntrd (rs : BitVec 4) (s : State) : Outcome :=
  sequential s (fun t =>
    let v := t.me.gr rs
    if field v 14 50 != 0 then .error (t.trapMe 0x68 v)
    else .ok ((t.modMe (fun l => l.gw rs ((t.tile (homeOf t.cur)).block (field v 12 2) (field v 0 12)).word)).retire))

end Sys2Proof.Machine
end

