-- ==== Sys2Proof/Machine/LoadStore.lean ====
section
/-! DEFINITION. Loads and stores (R90 to R94), their replies from deep memory, and the cache operations (R95 to R97). -/

namespace Sys2Proof.Machine

/-! One global access. -/

/-- Committed bytes that a load of a private page may return: the latest, or those of before the commits that fell since the
task's own previous one (R268; notes/assumptions/14.md). -/
def State.baseBytes (s : State) (sl : Slot) (x : Xlat) (n : Nat) : Nat :=
  match fget none s.dirty (x.pa / 32) with
  | some d =>
    if x.pvt && decide (sl.seg.began < d.first) && Config.privateOld s.steps (x.pa / 32) then d.stale.toNat / 2 ^ (8 * (x.pa % 32)) % 2 ^ (8 * n)
    else s.rd x.pa n
  | none => s.rd x.pa n

/-- What a load of `n` bytes returns: the version's bytes over the committed ones (R91, R258). -/
def State.readGlobal (s : State) (sl : Slot) (x : Xlat) (va n : Nat) : Nat :=
  rdOver sl.seg.version va (s.baseBytes sl x n) n

/-- Physical stall where a slot runs, and the physical tile of the slot that issues. -/
def State.stallAt (s : State) (key : Nat) : Nat := s.physStall (stallOf (homeOf key))
def State.myTile (s : State) : Nat := s.physTile (homeOf s.cur)

/-- The checks of a global access by the slot that issues, through the caches of its tile (R87, R278). -/
def State.checkMine (s : State) (acc : Access) (ea sz : Nat) : Except (BitVec 8) (State × Xlat) := s.checkGlobal (some s.myTile) s.me acc ea sz

/-- A store enters the version and the write set (R91, R257), in the line that the version holds or takes in the tile's stall cache (R280). -/
def State.storeBytes (s : State) (x : Xlat) (va n v : Nat) : State :=
  s.modMe (fun l =>
    let seg := s.enter l x va true
    let line : VLine := (fget none seg.vlines (va / 32)).getD { stall := s.myTile / 16, leaf := pageBits x.leaf }
    { l with seg := { seg with
      version := wrV seg.version va n v
      vlines := fset none (va / 32) (some { line with policy := l.cachePolicy }) seg.vlines } })

/-- A store of the slot that issues, with its line (R279). -/
def State.storeMine (s : State) (x : Xlat) (va n v : Nat) : State :=
  (s.storeLine s.myTile (homeOf s.cur) s.me x va).storeBytes x va n v

/-- A load enters the read set. -/
def State.noteRead (s : State) (x : Xlat) (va : Nat) : State := s.modMe (fun l => { l with seg := s.enter l x va false })

/-- The line of a load by the slot that issues is in its caches, or is filled (R279). -/
def State.loadMine (s : State) (x : Xlat) (va : Nat) : State := s.loadLine s.myTile (homeOf s.cur) s.me x va s.me.cachePolicy true

/-- A load is a forwarded access: of deep memory, with no copy of its line in the tile's caches, or removed (R284, R299). -/
def State.forwards (s : State) (x : Xlat) (va n : Nat) : Bool :=
  s.isDeep x.pa && !(inVersion s.me.seg.version va n) && (s.deepGone x.pa || (s.lineBits s.myTile s.me false (va / 32)).isNone)

/-! Forwarded replies (R94, R172). -/

/-- What the reply for `n` bytes at `va` carries: the value and whether the memory was lost, or a fault (R91, R166). -/
def State.reply (s : State) (sl : Slot) (va n : Nat) : Except (BitVec 8) (Nat × Bool) :=
  match s.walk sl.part sl.asid.toNat va with
  | .error c => .error c
  | .ok x =>
    if s.deepGone x.pa then .ok (2 ^ 64 - 1, true)
    else if s.poisoned x.pa n && !(inVersion sl.seg.version va n) then .error 0x29
    else .ok (s.readGlobal sl x va n, false)

/-- Every lane wanted, or the dword, is done. -/
def PendingLoad.complete (p : PendingLoad) : Bool := p.want &&& ~~~p.done == 0

/-- Bytes of each lane of the load. -/
def PendingLoad.lane (p : PendingLoad) : Nat := if p.size = 0 then 4 else p.size

/-- Bits of the image that lane `i` takes: 32, or the dword of a scalar load. -/
def PendingLoad.laneBits (p : PendingLoad) : Nat := if p.size = 0 then 32 else 64

/-- A reply for lane `i` is kept with the load. -/
def PendingLoad.put (p : PendingLoad) (i v : Nat) : PendingLoad :=
  let w := p.laneBits
  { p with
    done := p.done ||| (1#32 <<< i)
    image := p.image ||| BitVec.ofNat 1024 (v % 2 ^ w * 2 ^ (w * i)) }

/-- The entry that a reply leaves in the log: its lanes, and its fault with the address (R335). -/
def PendingLoad.note (p : PendingLoad) (lanes : BitVec 32) (c : BitVec 8) (va : Word) : PendingLoad :=
  if lanes = 0 then p else { p with done := p.done ||| lanes, log := p.log ++ [(lanes, c, va)] }

/-- The lowest lane of a set. -/
def lowLane (lanes : BitVec 32) : Nat := ((List.range 32).find? (fun i => lanes.getLsbD i)).getD 32

/-- The fault of the lowest lane that carries one. -/
def PendingLoad.firstFault (p : PendingLoad) : Option (Nat × BitVec 8 × Word) :=
  p.log.foldl (fun (r : Option (Nat × BitVec 8 × Word)) f => if f.2.1 == 0#8 then r else match r with
    | none => some (lowLane f.1, f.2.1, f.2.2)
    | some g => if lowLane f.1 < g.1 then some (lowLane f.1, f.2.1, f.2.2) else r) none

/-- The slot's own waiting load. -/
def Slot.pendLoad (sl : Slot) (p : PendingLoad) : Slot := { sl with load := some { p with policy := sl.cachePolicy, began := sl.seg.began } }

/-! LD and ST. -/

def acqOrd (ord : BitVec 2) : Bool := ord.toNat % 2 == 1
def relOrd (ord : BitVec 2) : Bool := ord.toNat / 2 == 1

/-- The commit after a release access at `ea`, with the release noted for later acquires (R268): made, refused, or sealed with the loaded value
kept (R88, R114). -/
def State.commitAfter (s : State) (ea : Nat) (v : Word) : Except State State :=
  let sl := s.me
  if sl.doomed then .error (s.trapMe sl.doomCause sl.doomEval)
  else if s.commitBlocked sl (homeOf s.cur) then
    .error (s.sealMe.modMe (fun l => { l with sent := true, reply := some v, seg := { l.seg with release := some (BitVec.ofNat 64 ea) } }))
  else .ok ((s.commitSlot s.cur).releaseFor sl (homeOf s.cur) ea)

/-- Before the access of LD or ST: an acquire commits, and the new segment begins here (R88). -/
def State.enterAccess (s : State) (ord : BitVec 2) : Except State State :=
  if acqOrd ord then s.commitBefore.map State.openHere else .ok s

/-- After the access: a release commits, then the register is written and the instruction retires. -/
def State.leaveAccess (s : State) (ord : BitVec 2) (ea : Nat) (rd : BitVec 4) (v : Word) : Except State State :=
  if relOrd ord then
    (s.commitAfter ea v).map (fun t => (t.modMe (fun l => l.gw rd v)).retire)
  else .ok ((s.modMe (fun l => l.gw rd v)).retire)

/-- An access whose commit after it was sealed restarts: it waits for the commit and is not made again (R114). -/
def State.afterSeal (s : State) (rd : BitVec 4) : Except State State :=
  let sl := s.me
  if sl.committed then
    let v := sl.reply.getD 0
    .ok (((s.setMe { sl with committed := false, seg := { sl.seg with opened := true } }).modMe (fun l => l.gw rd v)).retire)
  else if sl.doomed then .error (s.trapMe sl.doomCause sl.doomEval)
  else .error (s.waitFor .completion)

/-- The access of a global LD: checks, a wait for the task's own bank operations on the granule, and the data, at once or by a
forwarded reply (R87, R91, R101). -/
def State.loadGlobal (s : State) (i : Instr) (rd : BitVec 4) (ord : BitVec 2) (ea : Word) (sz : Nat) : Except State State :=
  match s.checkMine .load ea.toNat sz with
  | .error c => .error (s.trapMe c ea)
  | .ok (s1, x) =>
    if s1.opPending s1.me (homeOf s1.cur) (fun g => g == ea.toNat / 32) then .error (s1.waitFor .completion)
    else
      let s2 := s1.noteRead x ea.toNat
      let s3 := if acqOrd ord then s2.acquire s2.cur x.pa else s2
      if s3.forwards x ea.toNat sz then
        .error (((s3.missLine (s3.stallAt s3.cur) s3.me x.pa ea.toNat).modMe (fun l => l.pendLoad {
          instr := i, at' := l.pc, start := l.unitStart, ea := ea, size := sz, dest := rd.toNat, want := 1, addrs := [(0, ea)] })).waitFor .load)
      else (s3.loadMine x ea.toNat).leaveAccess ord ea.toNat rd (BitVec.ofNat 64 (s3.readGlobal s3.me x ea.toNat sz))

/-- The issued load of this instruction goes on: its reply is delivered or waited for (R94). -/
def State.resumeLoad (s : State) (p : PendingLoad) (ord : BitVec 2) (ea : Nat) (rd : BitVec 4) : Except State State :=
  if !p.complete then .error (s.waitFor .load)
  else
    let s1 := s.modMe (fun l => { l with load := none, pc := p.at', prioRun := l.prioRun || l.hasHint 5 })
    match p.firstFault with
    | some (_, c, v) => .error (s1.trapMe c v)
    | none => s1.leaveAccess ord ea rd (BitVec.ofNat 64 (p.image.toNat % 2 ^ 64))

/-- A typed-buffer access: target held by a swap, the checks of R27, marked words (R28, R346); then the continuation. -/
def State.bufAccess (s : State) (sp : Nat) (ea : Word) (sz : Nat) (read : Bool) (k : Nat → Nat → Except State State) :
    Except State State :=
  match s.checkBuffer (homeOf s.cur) sp ea sz with
  | .error c => .error (s.trapMe c ea)
  | .ok (h, o) =>
    if s.bufHeld h then .error (s.holdAccess h)
    else match (if read then s.markedIn h sp o sz else none) with
    | some m => .error (s.trapMe 0xC0 (bufAddr ea m))
    | none => k h o

/-- LD (R90, R91, R92). -/
def execLd (rd ra : BitVec 4) (sz ord sp : BitVec 2) (off : BitVec 12) (s : State) : Outcome :=
  let n := sizeOf sz
  let ea := eaScaled (s.me.gr ra) off n
  sequential s (fun t =>
    if sp = 0 then
      if t.me.sent then t.afterSeal rd
      else match t.me.load with
      | some p =>
        if p.instr = .ld rd ra sz ord sp off && p.ea == ea then t.resumeLoad p ord ea.toNat rd
        else (t.enterAccess ord).bind (fun u => u.loadGlobal (.ld rd ra sz ord sp off) rd ord ea n)
      | none => (t.enterAccess ord).bind (fun u => u.loadGlobal (.ld rd ra sz ord sp off) rd ord ea n)
    else t.bufAccess sp.toNat ea n true (fun h o =>
      .ok ((t.modMe (fun l => l.gw rd (BitVec.ofNat 64 (t.bufRead h sp.toNat o n)))).retire)))

/-- The access of a global ST (R87, R91). -/
def State.storeGlobal (s : State) (ord : BitVec 2) (ea : Word) (sz : Nat) (v : Word) : Except State State :=
  match s.checkMine .store ea.toNat sz with
  | .error c => .error (s.trapMe c ea)
  | .ok (s1, x) =>
    let s2 := s1.storeMine x ea.toNat sz v.toNat
    let s3 := if acqOrd ord then s2.acquire s2.cur x.pa else s2
    s3.leaveAccess ord ea.toNat 0 0

/-- ST: the data register is rd (R90, R91, R92). -/
def execSt (rd ra : BitVec 4) (sz ord sp : BitVec 2) (off : BitVec 12) (s : State) : Outcome :=
  let n := sizeOf sz
  let ea := eaScaled (s.me.gr ra) off n
  sequential s (fun t =>
    if sp = 0 then
      if t.me.sent then t.afterSeal 0
      else (t.enterAccess ord).bind (fun u => u.storeGlobal ord ea n (u.me.gr rd))
    else t.bufAccess sp.toNat ea n false (fun h o =>
      .ok (((t.bufStore h sp.toNat o n (t.me.gr rd).toNat).modMe Slot.setTbw).retire)))

/-! Cache operations. -/

/-- A page on which a prefetch or cache operation may act: readable, and not privileged at PL 0 (R95, R97, R283). -/
def Slot.allowed (sl : Slot) (x : Xlat) : Bool := x.rdok && !(x.priv && sl.pl == 0)

/-- The page of a granule, when a cache operation may act on it. No accessed bit is set (R97, R276). -/
def State.peek (s : State) (sl : Slot) (va : Nat) : Option Xlat :=
  match s.walk sl.part sl.asid.toNat va with
  | .ok x => if sl.allowed x then some x else none
  | .error _ => none

/-- A dropped prefetch of the stall is counted (R95, R283). -/
def State.dropPrefetch (s : State) (ps : Nat) : State := s.modPStall ps (fun p => { p with pfDrops := p.pfDrops + 1 })

/-- PF: the line is brought into the tile's L1 and the stall cache; a page that is unmapped, forbidden or has another mapping, and poisoned
data, are counted (R95, R275, R283). The walk sets no accessed bit. -/
def execPf (ra : BitVec 4) (off : BitVec 12) (s : State) : Outcome :=
  let ea := eaGranule (s.me.gr ra) off
  sequential s (fun t =>
    let ps := t.stallAt t.cur
    match t.translate t.me.part t.me.asid.toNat ea.toNat false with
    | .error _ => .ok (t.dropPrefetch ps).retire
    | .ok (u, x) =>
      if !(t.me.allowed x) then .ok (t.dropPrefetch ps).retire
      else if t.poisoned x.pa 32 || t.deepGone x.pa then .ok (u.dropPrefetch ps).retire
      else .ok (u.loadLine u.myTile (homeOf u.cur) u.me x ea.toNat u.me.cachePolicy Config.pfCounted).retire)

/-- A stall cache `h` lies within scope of an operation issued on stall `ps` (R96). -/
def inScope (scope ps h : Nat) : Bool :=
  if scope ≤ 1 then h == ps else if scope = 2 then h / 8 == ps / 8 else true

/-- The granule's dirty committed copy within scope is written back (R96, R97). -/
def State.cacheWriteBack (s : State) (va scope : Nat) : State :=
  match s.peek s.me va with
  | none => s
  | some x => match fget none s.dirty (x.pa / 32) with
    | some d => if inScope scope (s.stallAt s.cur) d.holder then s.writeBack (x.pa / 32) else s
    | none => s

/-- The granule leaves the tile's L1, and, at wider scopes than tile, the stall caches within scope (R97). -/
def State.cacheRemove (s : State) (va scope : Nat) : State :=
  let sl := s.me
  let ps := s.stallAt s.cur
  if (s.peek sl va).isNone then s
  else
    let s1 := s.dropL1 s.myTile sl.part sl.asid.toNat (va / 32)
    if scope = 0 then s1
    else
      let gone := dropGranules (fun k => inScope scope ps (k / 2048)) (fun b => b.part == sl.part && b.asid == sl.asid.toNat) (fun g => g == va / 32)
      { s1 with caches := gone s1.caches }

/-- CFL: device scope by default (R96). -/
def execCfl (ra : BitVec 4) (off : BitVec 12) (s : State) : Outcome :=
  let ea := eaGranule (s.me.gr ra) off
  sequential s (fun t => .ok (t.cacheWriteBack ea.toNat (t.me.scopeHint.getD 3)).retire)

/-- CINV: stall scope by default; at tile scope only L1, which holds no dirty data (R97, R279). -/
def execCinv (ra : BitVec 4) (off : BitVec 12) (s : State) : Outcome :=
  let ea := eaGranule (s.me.gr ra) off
  let scope := s.me.scopeHint.getD 1
  sequential s (fun t => .ok ((if scope = 0 then t else t.cacheWriteBack ea.toNat scope).cacheRemove ea.toNat scope).retire)

end Sys2Proof.Machine
end

