-- ==== Sys2Proof/Machine/Atomic.lean ====
section
/-! DEFINITION. Atomic operations (R98 to R100), bank operations (R101 to R104) and the layer gather (R105 to R108). -/

namespace Sys2Proof.Machine

/-! Operations over n bits. -/

/-- AMO and MOP.RED operations by fn<3:0>: ADD, AND, OR, XOR, MIN, MAX, MINN, MAXN, SWAP (R98). -/
def redOp (op n old y : Nat) : Nat :=
  let o := BitVec.ofNat n old
  let b := BitVec.ofNat n y
  match op with
  | 0 => (o + b).toNat
  | 1 => (o &&& b).toNat
  | 2 => (o ||| b).toNat
  | 3 => (o ^^^ b).toNat
  | 4 => (minS o b).toNat
  | 5 => (maxS o b).toNat
  | 6 => (minU o b).toNat
  | 7 => (maxU o b).toNat
  | _ => b.toNat

/-- The signed saturating accumulate of R104: the value and whether it saturated. -/
def sacOp (n old y : Nat) : Nat × Bool :=
  let t := (BitVec.ofNat n old).toInt + (BitVec.ofNat n y).toInt
  if t > 2 ^ (n - 1) - 1 then (2 ^ (n - 1) - 1, true)
  else if t < -(2 ^ (n - 1)) then (2 ^ (n - 1), true)
  else ((BitVec.ofInt n t).toNat, false)

/-- All ones, the result from removed deep memory (R91, R100). -/
def allOnes : Word := 0xFFFFFFFFFFFFFFFF

/-- A committed write outside any segment at a virtual address: bytes, D bit, and the doom of other segments (R100, R101). -/
def State.commitAt (s : State) (part : Nat) (asid : BitVec 16) (va : Nat) (x : Xlat) (n v : Nat) (except : Option Nat) : State :=
  ((s.setDirtyBit x).commitBytes x.pa n v).doomGranules part asid except [va / 32]

/-- A bank operation on the granule is queued at its unit: what arrives later is applied later (R101). -/
def State.opQueued (s : State) (pa : Nat) : Bool :=
  (fget [] s.bankops (s.unitOf pa)).any (fun o => o.pa / 32 == pa / 32)

/-- An atomic whose line the stall cache does not hold moves it from its memory (R285). -/
def State.countMiss (s : State) (x : Xlat) (va : Nat) : State :=
  if (s.cacheBits (s.myTile / 16) s.me.part s.me.asid.toNat (va / 32)).isSome then s else s.missLine (s.stallAt s.cur) s.me x.pa va

/-- AMO and CAS: commit before, the checks, and one indivisible read and write at the home directory (R98 to R100). `f` gives the
value stored, if any. -/
def atomicOp (f : Slot → Nat → Option Nat) (rd ra : BitVec 4) (ord : BitVec 2) (dw : BitVec 1) (s : State) : Outcome :=
  sequential s (fun s0 => s0.commitBefore.bind (fun t =>
    let ea := t.me.gr ra
    let n := opSize dw
    match t.checkMine .atomic ea.toNat n with
    | .error c => .error (t.trapMe c ea)
    | .ok (t1, x) =>
      if t1.writeWaits x.pa || t1.opQueued x.pa then .error (t1.waitFor .completion)
      else if t1.deepGone x.pa then
        .ok (((t1.modMe (fun l => l.gw rd allOnes)).deliverAC t1.me.taskid (homeOf t1.cur) 0x2A ea).retire)
      else
        let old := t1.rd x.pa n
        let t3 := if acqOrd ord then t1.acquire t1.cur x.pa else t1
        let t3' := t3.countMiss x ea.toNat
        let t4 := (match f t.me old with
          | some v => t3'.commitAt t.me.part t.me.asid ea.toNat x n v (some t3.cur)
          | none => t3').atomicLine t3.myTile t3.me x ea.toNat t3.me.cachePolicy
        let t5 := if relOrd ord then t4.noteRelease (t4.stallAt t4.cur) t4.me.taskid x.pa else t4
        .ok ((t5.modMe (fun l => l.gw rd (BitVec.ofNat 64 old))).retire)))

/-- AMO with operation `op` (R98). -/
def amo (op : Nat) (rd ra rb : BitVec 4) (ord : BitVec 2) (dw : BitVec 1) (s : State) : Outcome :=
  atomicOp (fun l old => some (redOp op (8 * opSize dw) old (l.gr rb).toNat)) rd ra ord dw s

/-- AMO.ADD (R98). -/
def execAmoAdd (rd ra rb : BitVec 4) (ord : BitVec 2) (dw : BitVec 1) (s : State) : Outcome := amo 0 rd ra rb ord dw s
/-- AMO.AND (R98). -/
def execAmoAnd (rd ra rb : BitVec 4) (ord : BitVec 2) (dw : BitVec 1) (s : State) : Outcome := amo 1 rd ra rb ord dw s
/-- AMO.OR (R98). -/
def execAmoOr (rd ra rb : BitVec 4) (ord : BitVec 2) (dw : BitVec 1) (s : State) : Outcome := amo 2 rd ra rb ord dw s
/-- AMO.XOR (R98). -/
def execAmoXor (rd ra rb : BitVec 4) (ord : BitVec 2) (dw : BitVec 1) (s : State) : Outcome := amo 3 rd ra rb ord dw s
/-- AMO.MIN (R98). -/
def execAmoMin (rd ra rb : BitVec 4) (ord : BitVec 2) (dw : BitVec 1) (s : State) : Outcome := amo 4 rd ra rb ord dw s
/-- AMO.MAX (R98). -/
def execAmoMax (rd ra rb : BitVec 4) (ord : BitVec 2) (dw : BitVec 1) (s : State) : Outcome := amo 5 rd ra rb ord dw s
/-- AMO.MINN (R98). -/
def execAmoMinn (rd ra rb : BitVec 4) (ord : BitVec 2) (dw : BitVec 1) (s : State) : Outcome := amo 6 rd ra rb ord dw s
/-- AMO.MAXN (R98). -/
def execAmoMaxn (rd ra rb : BitVec 4) (ord : BitVec 2) (dw : BitVec 1) (s : State) : Outcome := amo 7 rd ra rb ord dw s
/-- AMO.SWAP (R98). -/
def execAmoSwap (rd ra rb : BitVec 4) (ord : BitVec 2) (dw : BitVec 1) (s : State) : Outcome := amo 8 rd ra rb ord dw s

/-- CAS: rd is the expected value; a CAS that fails writes nothing (R99). -/
def execCas (rd ra rb : BitVec 4) (ord : BitVec 2) (dw : BitVec 1) (s : State) : Outcome :=
  atomicOp (fun l old =>
    let m := 2 ^ (8 * opSize dw)
    if old = (l.gr rd).toNat % m then some ((l.gr rb).toNat % m) else none) rd ra ord dw s

/-! Bank operations. -/

/-- An operation is sent to its unit: the checks of R87, and a wait while the unit holds 32 (R101, R293). -/
def State.sendOp (s : State) (op : Nat) (ea : Word) (dw : BitVec 1) (b e : Word) (wants : Bool)
    (k : State → Except State State) : Except State State :=
  match s.checkMine .bankop ea.toNat (opSize dw) with
  | .error c => .error (s.trapMe c ea)
  | .ok (s1, x) =>
    let u := s1.unitOf x.pa
    let q := fget [] s1.bankops u
    if 32 ≤ q.length then .error (s1.waitFor .completion)
    else
      let o : BankOp := {
        op := op, size := opSize dw, va := ea, pa := x.pa, b := b, expect := e, task := s1.me.taskid, slot := s1.cur,
        asid := s1.me.asid, part := BitVec.ofNat 4 s1.me.part, wants := wants }
      let s2 := s1.countAccess x.pa (s1.stallAt s1.cur) 1
      k { s2 with bankops := fset [] u (q ++ [o]) s2.bankops }

/-- MOP.RED: it completes once queued (R102). -/
def mopRed (op : Nat) (ra rb : BitVec 4) (dw : BitVec 1) (s : State) : Outcome :=
  sequential s (fun t => t.sendOp op (t.me.gr ra) dw (t.me.gr rb) 0 false (fun u => .ok u.retire))

/-- MOP.RED.ADD (R102). -/
def execMopRedAdd (ra rb : BitVec 4) (dw : BitVec 1) (s : State) : Outcome := mopRed 0 ra rb dw s
/-- MOP.RED.AND (R102). -/
def execMopRedAnd (ra rb : BitVec 4) (dw : BitVec 1) (s : State) : Outcome := mopRed 1 ra rb dw s
/-- MOP.RED.OR (R102). -/
def execMopRedOr (ra rb : BitVec 4) (dw : BitVec 1) (s : State) : Outcome := mopRed 2 ra rb dw s
/-- MOP.RED.XOR (R102). -/
def execMopRedXor (ra rb : BitVec 4) (dw : BitVec 1) (s : State) : Outcome := mopRed 3 ra rb dw s
/-- MOP.RED.MIN (R102). -/
def execMopRedMin (ra rb : BitVec 4) (dw : BitVec 1) (s : State) : Outcome := mopRed 4 ra rb dw s
/-- MOP.RED.MAX (R102). -/
def execMopRedMax (ra rb : BitVec 4) (dw : BitVec 1) (s : State) : Outcome := mopRed 5 ra rb dw s
/-- MOP.RED.MINN (R102). -/
def execMopRedMinn (ra rb : BitVec 4) (dw : BitVec 1) (s : State) : Outcome := mopRed 6 ra rb dw s
/-- MOP.RED.MAXN (R102). -/
def execMopRedMaxn (ra rb : BitVec 4) (dw : BitVec 1) (s : State) : Outcome := mopRed 7 ra rb dw s

/-- MOP.CAS and MOP.SAC: queued, then the slot waits for the old value, with which the instruction completes (R103, R104). -/
def mopValue (op : Nat) (rd ra rb : BitVec 4) (dw : BitVec 1) (s : State) : Outcome :=
  sequential s (fun t => t.sendOp op (t.me.gr ra) dw (t.me.gr rb) (t.me.gr rd) true (fun u => .ok (u.waitFor (.bankValue rd u.me.pc))))

/-- MOP.CAS (R103). -/
def execMopCas (rd ra rb : BitVec 4) (dw : BitVec 1) (s : State) : Outcome := mopValue 8 rd ra rb dw s

/-- MOP.SAC (R104). -/
def execMopSac (rd ra rb : BitVec 4) (dw : BitVec 1) (s : State) : Outcome := mopValue 9 rd ra rb dw s

/-! Layer gather. -/

/-- The fields of a gather descriptor (R106 Table 4). -/
def Gather.ofNat (x : Nat) : Gather :=
  { tbase := BitVec.ofNat 64 x, ibase := BitVec.ofNat 64 (bits x 127 64), count := bits x 159 128, tlen := bits x 191 160,
    elog := bits x 195 192, iw := bits x 197 196,
    bad := decide (bits x 195 192 < 2) || decide (9 < bits x 195 192) || bits x 197 196 == 3 || bits x 159 128 == 0 || bits x 255 198 != 0 }

/-- Committed bytes that a gather reads: the checks of R87 as a gather, removed deep memory as all ones (R108, R299). -/
def State.gatherRead (s : State) (va : Word) (n : Nat) : Except (BitVec 8) (State × Nat) :=
  match s.checkMine .gather va.toNat n with
  | .error c => .error c
  | .ok (s1, x) =>
    if s1.deepGone x.pa then .ok (s1.deliverAC s1.me.taskid (homeOf s1.cur) 0x2A va, 2 ^ (8 * n) - 1)
    else .ok (s1.countAccess x.pa (s1.stallAt s1.cur) ((n + 31) / 32), s1.baseBytes s1.me x n)

/-- An AB write of a gather (R108). -/
def State.gatherWrite (s : State) (h o n v : Nat) : State := (s.bufWrite h 1 o n v).modMe Slot.setTbw

/-- Bytes beyond the progress index of a gather that stopped or trapped may have been written (R107, R108). -/
def State.gatherSpill (s : State) (h o : Nat) : Nat → State
  | 0 => s
  | n + 1 => (match Config.gatherAhead s.steps o with
      | some b => s.gatherWrite h o 1 b.toNat
      | none => s).gatherSpill h (o + 1) n

/-- A gather stops with PIDX at element `k`. -/
def State.gatherStop (s : State) (g : GatherRun) (k : Nat) : State :=
  let esz := 2 ^ g.desc.elog
  (s.modMe (fun l => { l with pidx := BitVec.ofNat 32 k })).gatherSpill g.home (g.off + k * esz) ((g.desc.count - k) * esz)

/-- Elements from `k`, `n` of them: each index is read and checked, its element read and written to AB (R107). The error is the
trap, taken with PIDX at the element. -/
def State.gatherRun (s : State) (g : GatherRun) : Nat → Nat → Except State State
  | _, 0 => .ok s
  | k, n + 1 =>
    let d := g.desc
    let esz := 2 ^ d.elog
    let isz := 2 ^ (d.iw + 1)
    let ia := d.ibase + BitVec.ofNat 64 (k * isz)
    match s.gatherRead ia isz with
    | .error c => .error ((s.gatherStop g k).trapMe c ia)
    | .ok (s1, ix) =>
      if d.tlen ≤ ix then .error ((s1.gatherStop g k).trapMe 0x26 (BitVec.ofNat 64 ix))
      else
        let ta := d.tbase + BitVec.ofNat 64 (ix * esz)
        match s1.gatherRead ta esz with
        | .error c => .error ((s1.gatherStop g k).trapMe c ta)
        | .ok (s2, v) => (s2.gatherWrite g.home (g.off + k * esz) esz v).gatherRun g (k + 1) n

/-- The run of the gather at which a slot waits. -/
def Slot.gathering (l : Slot) : Option GatherRun := match l.phase with | .waiting (.gather g) => some g | _ => none

/-- The engine of the slot that issues performs elements from PIDX, at most `most` of them if a number is given, and one under the debugger's
STEP, which ends there (R345); with the last it writes rd and the instruction retires (R107). -/
def State.gatherPerform (s : State) (g : GatherRun) (most : Option Nat) : State :=
  let k := s.me.pidx.toNat
  let left := g.desc.count - k
  let n := if s.me.stepping then Nat.min 1 left else match most with | some m => Nat.min m left | none => left
  match s.gatherRun g k n with
  | .error t => t
  | .ok t =>
    if n < left then (t.gatherStop g (k + n)).modMe (fun l => if l.stepping then ({ l with phase := .ready } : Slot).endUnit else l)
    else ((t.modMe (fun l => { l.gw g.rd (BitVec.ofNat 64 (g.desc.count * 2 ^ g.desc.elog)) with pidx := 0, pc := g.at' })).retire)

/-- Slots of a physical stall whose GTH holds an engine (R294). -/
def State.gathers (s : State) (ps : Nat) : Nat :=
  (s.slots.filter (fun e => e.2.gathering.isSome && s.stallAt e.1 == ps)).length

/-- The descriptor and the destination of a gather, checked (R105, R107). The spec names only cause 0x21 for the destination; a destination
that is no multiple of the element size raises cause 0x20 here: the model's choice (notes/assumptions/62.md). -/
def State.gatherPlan (s : State) (a b : Word) : Except (BitVec 8 × Word) (Gather × Nat × Nat) :=
  let home := homeOf s.cur
  match s.checkBuffer home 1 a 32 with
  | .error c => .error (c, a)
  | .ok (dh, d0) =>
    match s.markedIn dh 1 d0 32 with
    | some m => .error (0xC0, bufAddr a m)
    | none =>
      let d := Gather.ofNat (s.bufRead dh 1 d0 32)
      if d.bad then .error (0x25, a)
      else match s.bufPlace home 1 b (d.count * 2 ^ d.elog) with
        | none => .error (0x21, b)
        | some (h, o) =>
          if h != home then .error (0x21, b)
          else if o % 2 ^ d.elog != 0 then .error (0x20, b)
          else .ok (d, h, o)

/-- GTH: checked and taken by an engine, at most four to a column; the engine performs it from PIDX in steps of its own (R107, R294). -/
def execGth (rd ra rb : BitVec 4) (s : State) : Outcome :=
  sequential s (fun t =>
    match t.gatherPlan (t.me.gr ra) (t.me.gr rb) with
    | .error (c, v) => .error (t.trapMe c v)
    | .ok (d, h, o) =>
      if d.count ≤ t.me.pidx.toNat then .ok ((t.modMe (fun l => { l with pidx := 0 })).retire)
      else if 4 ≤ t.gathers (t.stallAt t.cur) then .error (t.waitFor .completion)
      else .error (t.waitFor (.gather { desc := d, home := h, off := o, rd := rd, at' := t.me.pc })))

end Sys2Proof.Machine
end

