-- ==== Sys2Proof/Machine/Control.lean ====
section
/-! DEFINITION. The meanings of branches, jumps, LOOP (R80 to R85) and of the HINT words (R56, R57). -/

namespace Sys2Proof.Machine

/-- A conditional branch: to its target when the condition holds, else in sequence (R82). -/
def branch (c : Word → Word → Bool) (ra rb : BitVec 4) (off : BitVec 14) (s : State) : Outcome :=
  if c (s.me.gr ra) (s.me.gr rb) then transfer s (branchTarget s.me.pc off) (fun l => l) else plain s (fun l => l)

/-- B.EQ (R82). -/
def execBEq (ra rb : BitVec 4) (off : BitVec 14) (s : State) : Outcome := branch condEq ra rb off s

/-- B.NE (R82). -/
def execBNe (ra rb : BitVec 4) (off : BitVec 14) (s : State) : Outcome := branch (fun a b => !(condEq a b)) ra rb off s

/-- B.LT (R82). -/
def execBLt (ra rb : BitVec 4) (off : BitVec 14) (s : State) : Outcome := branch condLt ra rb off s

/-- B.GE (R82). -/
def execBGe (ra rb : BitVec 4) (off : BitVec 14) (s : State) : Outcome := branch (fun a b => !(condLt a b)) ra rb off s

/-- B.LTN (R82). -/
def execBLtn (ra rb : BitVec 4) (off : BitVec 14) (s : State) : Outcome := branch condLtn ra rb off s

/-- B.GEN (R82). -/
def execBGen (ra rb : BitVec 4) (off : BitVec 14) (s : State) : Outcome := branch (fun a b => !(condLtn a b)) ra rb off s

/-- J (R83). -/
def execJ (off : BitVec 26) (s : State) : Outcome := transfer s (branchTarget s.me.pc off) (fun l => l)

/-- JAL: the link is g15 (R83). -/
def execJal (off : BitVec 26) (s : State) : Outcome :=
  transfer s (branchTarget s.me.pc off) (fun l => l.gw 15 (l.pc + 4))

/-- Target of JALR and JR: the exact sum of the register and the immediate (R84). -/
def jumpTarget (a : Word) (imm : BitVec 18) : Int := a.toNat + imm.toInt

/-- JALR (R84). -/
def execJalr (rd ra : BitVec 4) (imm : BitVec 18) (s : State) : Outcome :=
  transfer s (jumpTarget (s.me.gr ra) imm) (fun l => l.gw rd (l.pc + 4))

/-- JR (R84). -/
def execJr (ra : BitVec 4) (imm : BitVec 18) (s : State) : Outcome :=
  transfer s (jumpTarget (s.me.gr ra) imm) (fun l => l)

/-- LOOP (R85). -/
def execLoop (ra : BitVec 4) (off : BitVec 14) (s : State) : Outcome :=
  let a := s.me.gr ra
  if a = 0 then plain s (fun l => l)
  else if a = 1 then plain s (fun l => l.gw ra 0)
  else transfer s (branchTarget s.me.pc off) (fun l => l.gw ra (a - 1))

/-! HINT words. -/

/-- A HINT joins the run; one whose kind the run already holds raises cause 0x05 with EVAL the word (R56, R57). -/
def hintWord (kind : BitVec 4) (payload : BitVec 22) (s : State) : Outcome :=
  let sl := s.me
  if sl.hasHint kind.toNat then
    .next (s.trapWord 0x05 (BitVec.ofNat 64 (0x3F * 2 ^ 26 + kind.toNat * 2 ^ 22 + payload.toNat)))
  else if legalTarget (sl.pc.toNat + 4) then
    .next ((s.countIssue s.cur).modMe (fun l =>
      { l with
        runStart := sl.unitStart
        hints := sl.hints ++ [(kind, payload)]
        pc := sl.pc + 4 }))
  else .next (s.trapMe 0x09 (sl.pc + 4))

/-- HINT LIMM.A (R58). -/
def execLimmA (payload : BitVec 22) (s : State) : Outcome := hintWord 0 payload s

/-- HINT LIMM.B (R58). -/
def execLimmB (payload : BitVec 22) (s : State) : Outcome := hintWord 1 payload s

/-- HINT ROUND (R56). -/
def execRound (mode : BitVec 3) (s : State) : Outcome := hintWord 2 (mode.setWidth 22) s

/-- HINT SAT (R56). -/
def execSat (code : BitVec 1) (s : State) : Outcome := hintWord 3 (code.setWidth 22) s

/-- HINT SCOPE (R56). -/
def execScope (code : BitVec 3) (s : State) : Outcome := hintWord 4 (code.setWidth 22) s

/-- HINT PRIO (R56). -/
def execPrio (s : State) : Outcome := hintWord 5 0 s

/-- HINT CACHE (R282). -/
def execCache (policy : BitVec 2) (s : State) : Outcome := hintWord 6 (policy.setWidth 22) s

/-- HINT WAITN (R56). -/
def execWaitn (count : BitVec 12) (s : State) : Outcome := hintWord 7 (count.setWidth 22) s

end Sys2Proof.Machine
end

