-- ==== Sys2Proof/Machine/Decompose.lean ====
section
/-! DEFINITION. The decomposition engine (R196, R197, R353, R354): a 64×64 weight block becomes a phase image, in binary32 throughout.
Matrices are lists of columns for the Jacobi process and lists of rows for the mesh factors. -/

namespace Sys2Proof.Machine

abbrev Vec32 := List F32

/-- Σk x[k] × y[k], k ascending. -/
def dot32 (xs ys : Vec32) : F32 := (List.zipWith f32Mul xs ys).foldl f32Add 0

/-- The pair (c × x − s × y, s × x + c × y) of two columns or rows. -/
def turn32 (c s : F32) (xs ys : Vec32) : Vec32 × Vec32 :=
  (List.zipWith (fun x y => f32Sub (f32Mul c x) (f32Mul s y)) xs ys,
   List.zipWith (fun x y => f32Add (f32Mul s x) (f32Mul c y)) xs ys)

def f32One : F32 := 0x3F800000
def f32Two : F32 := 0x40000000

/-- Cosine and sine of the rotation that makes two columns orthogonal, when their product is not zero. -/
def jacobiAngle (xs ys : Vec32) : Option (F32 × F32) :=
  let a := dot32 xs xs
  let b := dot32 ys ys
  let g := dot32 xs ys
  if f32Zero g then none
  else
    let z := f32Div (f32Sub b a) (f32Mul f32Two g)
    let az := z % 2 ^ 31
    let r := f32Div f32One (f32Add az (f32Sqrt (f32Add f32One (f32Mul z z))))
    let t := if f32Lt0 z then f32Neg r else r
    let c := f32Div f32One (f32Sqrt (f32Add f32One (f32Mul t t)))
    some (c, f32Mul c t)

def colAt (m : List Vec32) (j : Nat) : Vec32 := m.getD j []

/-- One pair of a sweep. -/
def jacobiPair (bv : List Vec32 × List Vec32) (p q : Nat) : List Vec32 × List Vec32 :=
  match jacobiAngle (colAt bv.1 p) (colAt bv.1 q) with
  | none => bv
  | some (c, s) =>
    let b := turn32 c s (colAt bv.1 p) (colAt bv.1 q)
    let v := turn32 c s (colAt bv.2 p) (colAt bv.2 q)
    ((bv.1.set p b.1).set q b.2, (bv.2.set p v.1).set q v.2)

def jacobiSweep (bv : List Vec32 × List Vec32) : List Vec32 × List Vec32 :=
  (List.range 63).foldl (fun x p => ((List.range 64).filter (fun q => decide (p < q))).foldl (fun y q => jacobiPair y p q) x) bv

/-- Sweeps of R353; one that changes nothing is followed by others that change nothing. -/
def jacobiSweeps : Nat → List Vec32 × List Vec32 → List Vec32 × List Vec32
  | 0, bv => bv
  | n + 1, bv => let r := jacobiSweep bv; if r = bv then bv else jacobiSweeps n r

def unit32 (m : Nat) : Vec32 := (List.range 64).map (fun k => if k = m then f32One else 0)
def ident32 : List Vec32 := (List.range 64).map unit32

/-- The remainder of a vector after its projections on columns, by modified Gram–Schmidt. -/
def remainder32 (us : List Vec32) (r : Vec32) : Vec32 :=
  us.foldl (fun x u => let p := dot32 u x; List.zipWith (fun xk uk => f32Sub xk (f32Mul p uk)) x u) r

/-- 2^-7 as a code. -/
def f32Small : F32 := 0x3C000000

/-- The first unit vector whose remainder is long enough, scaled to unit length. -/
def freshColumn (us : List Vec32) : Nat → Nat → Vec32
  | _, 0 => []
  | m, n + 1 =>
    let r := remainder32 us (unit32 m)
    let q := dot32 r r
    if f32Small ≤ q ∧ q < 2 ^ 31 then (let d := f32Sqrt q; r.map (fun x => f32Div x d)) else freshColumn us (m + 1) n

/-- The columns of U: those of nonzero σ, then the missing ones in ascending order (R353). -/
def fillColumns (us : List (Option Vec32)) : List Vec32 :=
  ((List.range us.length).foldl (fun (cs : List (Option Vec32)) j =>
    if (cs.getD j none).isSome then cs
    else cs.set j (some (freshColumn (cs.filterMap (fun c => c)) 0 64))) us).map (fun c => c.getD [])

/-- Singular values, U and V, as columns. -/
structure Svd where
  sigma : List F32
  smax : F32
  u : List Vec32
  v : List Vec32
  deriving DecidableEq, Repr

/-- The largest of the columns' lengths. -/
def longest (b : List Vec32) : F32 := (b.map (fun c => f32Sqrt (dot32 c c))).foldl (fun x y => if x < y then y else x) 0

/-- σ, U and V from the columns that the sweeps leave. -/
def svdOf (b v : List Vec32) : Svd :=
  let cut := f32Mul (longest b) 0x33800000
  let s := b.map (fun c => let x := f32Sqrt (dot32 c c); if x < cut then 0 else x)
  let us := List.zipWith (fun c x => if f32Zero x then none else some (c.map (fun y => f32Div y x))) b s
  { sigma := s, smax := longest b, u := fillColumns us, v := v }

/-- JacobiSvd(M), M by columns (R353). -/
def jacobiSvd (m : List Vec32) : Svd :=
  let bv := jacobiSweeps 12 (m, ident32)
  svdOf bv.1 bv.2

/-! MeshFactor (R354), on rows. -/

/-- θ of each placed interferometer, by column × 64 + upper mode, and whether it was placed from the input side. -/
abbrev Placed := FMap (Option (Nat × Bool))

def rowAt (x : List Vec32) (r : Nat) : Vec32 := x.getD r []
def cell32 (x : List Vec32) (r c : Nat) : F32 := (rowAt x r).getD c 0

/-- The columns that hold pair (m, m+1) and are not filled, ascending. -/
def openColumns (p : Placed) (m : Nat) : List Nat :=
  (List.range 64).filter (fun c => c % 2 == m % 2 && (fget none p (c * 64 + m)).isNone)

def placeAt (p : Placed) (c : Option Nat) (m th : Nat) (right : Bool) : Placed :=
  match c with
  | some k => fset none (k * 64 + m) (some (th, right)) p
  | none => p

/-- X × R(v) on columns c, c+1. -/
def turnColumns (v : F32) (c : Nat) (x : List Vec32) : List Vec32 :=
  let cs := f32Cos v
  let sn := f32Sin v
  x.map (fun r =>
    let a := r.getD c 0
    let b := r.getD (c + 1) 0
    (r.set c (f32Add (f32Mul a cs) (f32Mul b sn))).set (c + 1) (f32Sub (f32Mul b cs) (f32Mul a sn)))

/-- R(v) × X on rows r-1, r. -/
def turnRows (v : F32) (r : Nat) (x : List Vec32) : List Vec32 :=
  let (a, b) := turn32 (f32Cos v) (f32Sin v) (rowAt x (r - 1)) (rowAt x r)
  (x.set (r - 1) a).set r b

/-- One null of diagonal `i`, number `j`. -/
def nullOne (i j : Nat) (xp : List Vec32 × Placed) : List Vec32 × Placed :=
  let (x, p) := xp
  if i % 2 = 0 then
    let r := 63 - j
    let c := i - j
    let a := cell32 x r c
    let v := if f32Zero a then 0 else f32Atan2 (f32Neg a) (cell32 x r (c + 1))
    (turnColumns v c x, placeAt p (openColumns p c).head? c (turnOf (f32Neg v)) true)
  else
    let r := 63 - i + j
    let a := cell32 x r j
    let v := if f32Zero a then 0 else f32Atan2 (f32Neg a) (cell32 x (r - 1) j)
    (turnRows v r x, placeAt p (openColumns p (r - 1)).getLast? (r - 1) (turnOf (f32Neg v)) false)

/-- The whole factorisation of X by rows: what is left on the diagonal, and the interferometers placed. -/
def meshNull (x : List Vec32) : List Vec32 × Placed :=
  (List.range 63).foldl (fun xp i => (List.range (i + 1)).foldl (fun q j => nullOne i j q) xp) (x, [])

/-- θ and φ of the interferometer of column `c` and upper mode `m`, from the signs left on the diagonal (R354 Table 1). -/
def meshAngle (neg : List Bool) (p : Placed) (c m : Nat) : Nat × Nat :=
  let a := neg.getD m false
  let b := neg.getD (m + 1) false
  match fget none p (c * 64 + m) with
  | none => (0, 0)
  | some (th, right) =>
    let t1 := if right && a != b then (65536 - th) % 65536 else th
    if c = 0 then (if b then (t1 + 0x8000) % 65536 else t1, if a != b then 0x8000 else 0) else (t1, 0)

/-- Transpose of a 64×64 matrix. -/
def transpose32 (x : List Vec32) : List Vec32 := (List.range 64).map (fun c => x.map (fun r => r.getD c 0))

/-! The image. -/

/-- Write the angles of MeshFactor(X), X by rows, at byte `base` of an image. -/
def putAngles (base : Nat) (x : List Vec32) (im : Image) : Image :=
  let (y, p) := meshNull x
  let neg := y.mapIdx (fun m r => f32Lt0 (r.getD m 0))
  (List.range 64).foldl (fun m1 c => (columnModes c).foldl (fun m2 m =>
    let (th, ph) := meshAngle neg p c m
    wrN m2 (base + 4 * mziIndex c m) 4 (th + ph * 2 ^ 16)) m1) im

/-- Sum of the words of R189. -/
def imageSum (im : Image) : Nat := ((List.range 4096).map (fun i => rdN im (64 + 4 * i) 4)).sum % 2 ^ 32

/-- a × 2^15 / b to the nearest whole number, ties to even. -/
def ratio15 (a b : Nat) : Nat :=
  let q := a * 0x8000 / b
  let r := a * 0x8000 % b
  if 2 * r > b ∨ (2 * r = b ∧ q % 2 = 1) then q + 1 else q

/-- The phase image of a block, M by columns; none when XW is out of range (R197). -/
def decompose (m : List Vec32) : Option Image :=
  let d := jacobiSvd m
  let finishImage (im : Image) : Image := wrN (wrN im 0 1 1) 8 4 (imageSum im)
  if f32Zero d.smax then some (finishImage (wrN (wrN [] 2 1 127) 4 4 f32One))
  else match f32Val d.smax with
    | .fin _ k e _ =>
      let xw := 127 + floorLog2 k e
      if xw < 1 ∨ xw > 254 then none
      else
        let im0 := wrN (wrN [] 2 1 xw.toNat) 4 4 (f32Of (.fin false k (e + 127 - xw) false))
        let top := (f32Fix 149 d.smax).natAbs
        let im1 := d.sigma.foldl (fun (a : Image × Nat) x =>
          (wrN a.1 (16192 + 2 * a.2) 2 (ratio15 (f32Fix 149 x).natAbs top), a.2 + 1)) (im0, 0)
        some (finishImage (putAngles 8128 (transpose32 d.v) (putAngles 64 (transpose32 d.u) im1.1)))
    | _ => none

end Sys2Proof.Machine
end

