-- ==== Sys2Proof/Machine/Gang.lean ====
section
/-! DEFINITION. Gangs (R173 to R179): arrival at the wired barrier, the checks of a complete barrier, and the phase banks and
images that gang instructions move (R189 to R195). -/

namespace Sys2Proof.Machine

/-! Members. -/

/-- The slots of a gang, member 0 first; the list has 16 entries when all are resident (R174). -/
def State.members (s : State) (ls : Nat) (task : Word) : List Nat :=
  (List.range 16).filterMap (fun t => (slotsOfTile (ls * 16 + t)).find? (fun k =>
    (s.slot k).occupied && (s.slot k).gang && (s.slot k).taskid == task))

/-- A member's slot as at its arrival: its hints, its instruction and its operand. -/
def State.view (s : State) (k : Nat) : Slot × Option Instr × Word :=
  match (s.slot k).arrived with
  | some (i, hs, v) => ({ s.slot k with hints := hs }, some i, v)
  | none => (s.slot k, none, 0)

/-- The slot performs a gang instruction with no stop point: it completes first (R178, R179). -/
def Slot.uncut (l : Slot) : Bool :=
  l.performing && (match l.arrived with
    | some (.probe _, _, _) => true
    | some (.phsw _, _, _) => true
    | _ => false)

/-- Every member has arrived (R174). -/
def State.allArrived (s : State) (keys : List Nat) : Bool :=
  keys.length == 16 && keys.all (fun k => (s.slot k).phase == .waiting .gang && (s.slot k).arrived.isSome)

/-- The barrier has completed and the instruction is being performed. -/
def State.inPass (s : State) (keys : List Nat) : Bool := s.allArrived keys && keys.all (fun k => (s.slot k).performing)

/-- A change of every member's slot. -/
def State.modAll (s : State) (keys : List Nat) (f : Slot → Slot) : State := keys.foldl (fun t k => t.modSlot k f) s

/-- A change of every member's slot by its number. -/
def State.modEach (s : State) (keys : List Nat) (f : Nat → Slot → Slot) : State :=
  keys.foldl (fun t k => t.modSlot k (f (homeOf k % 16))) s

/-- The tile cycles in which the gang's instruction is performed: 16 each from DEF of its queue, one unit each for every member (R311,
R402). -/
def State.chargeGang (s : State) (keys : List Nat) : State :=
  let n := Config.gangCycles s.steps
  let q := match keys.head? with | some k => (s.slot k).queue | none => none
  (s.chargeQueue q (16 * n)).modAll keys (fun l => { l with units := l.units + n })

/-- A gang instruction at its issue: cause 0x62 outside a gang, else arrival (R173, R174). -/
def gangArrive (i : Instr) (rs : BitVec 4) (s : State) : Outcome :=
  sequential s (fun t =>
    let l := t.me
    if !l.gang then .error (t.trapMe 0x62 0)
    else
      let t1 := (t.countIssue t.cur).modMe (fun m =>
        { m.waitAt .gang with arrived := some (i, l.hints, l.gr rs), performing := false, gangFor := 0 })
      .ok (t1.modAll (t1.gangKeys t1.cur) (fun m => { m with gmask := m.gmask ||| (1#16 <<< (homeOf t.cur % 16)) })))

/-- EVAL that names a member in bits [63:60] (R175). -/
def memberEval (t : Nat) (v : Word) : Word := putField v 60 4 t

/-- One member's finding: a cause and the value that EVAL holds. -/
abbrev Finding := Option (BitVec 8 × Word)

/-- The finding of the lowest member that has one. -/
def State.firstFinding (s : State) (keys : List Nat) (f : Slot → Word → Finding) : Finding :=
  keys.foldl (fun r k => match r with
    | some x => some x
    | none => match f (s.view k).1 (s.view k).2.2 with
      | some (c, v) => some (c, memberEval (homeOf k % 16) v)
      | none => none) none

/-- The first finding of a list of checks, each over every member (R175). -/
def State.gangChecks (s : State) (keys : List Nat) : List (Slot → Word → Finding) → Finding
  | [] => none
  | f :: fs => match s.firstFinding keys f with
    | some x => some x
    | none => s.gangChecks keys fs

/-- Every member takes the cause, with GMASK 0 (R175). -/
def State.gangTrap (s : State) (keys : List Nat) (c : BitVec 8) (v : Word) : State :=
  keys.foldl (fun t k => (t.raise k c (t.slot k).pc v).modSlot k (fun l => { l with gmask := 0 })) s

/-- The instruction completes at every member in the same cycle: GMASK reads 0 and PIDX is 0 (R174, R332). -/
def State.gangRetire (s : State) (keys : List Nat) (f : Slot → Slot) : State :=
  keys.foldl (fun t k =>
    let n := match (t.slot k).arrived with | some (_, hs, _) => hs.length | none => 0
    t.modSlot k (fun l => { (f l).retireAt (l.pc + BitVec.ofNat 64 (4 * n + 4)) with gmask := 0 })) s

/-- The gang's instruction has reached a stop point of its PIDX: a STEP of the debugger ends here, with the arrivals kept (R179, R345). -/
def State.gangStep (s : State) (keys : List Nat) : State :=
  if keys.any (fun k => (s.slot k).stepping) then s.modAll keys (fun l => { l with phase := .halted, performing := false, stepping := false }) else s

/-! Uniform operands (R180). -/

/-- The part of an operand that must agree in all members. -/
def uniformPart (i : Instr) (v : Word) : Nat :=
  match i with
  | .mxp .. => field v 32 4 * 2 ^ 19 + field v 0 19
  | .phrd .. => v.toNat
  | .phwr .. => v.toNat
  | _ => 0

/-- The lowest member whose value differs from member 0's. -/
def firstDiffers {α : Type} [DecidableEq α] (keys : List Nat) (f : Nat → α) : Option Nat :=
  match keys.head? with
  | none => none
  | some k0 => keys.find? (fun k => f k != f k0)

/-- The hints of a run by kind: their order has no effect (R57). -/
def hintsByKind (hs : List (BitVec 4 × BitVec 22)) : List (BitVec 4 × BitVec 22) := sortBy (fun a b => decide (a.1.toNat ≤ b.1.toNat)) hs

/-- The two checks of R175. -/
def State.barrierFinding (s : State) (keys : List Nat) (i : Instr) : Finding :=
  match firstDiffers keys (fun k => ((s.view k).2.1, hintsByKind (s.view k).1.hints, (s.slot k).pidx)) with
  | some k => some (0x62, memberEval (homeOf k % 16) 0)
  | none => match firstDiffers keys (fun k => uniformPart i (s.view k).2.2) with
    | some k => some (0x68, memberEval (homeOf k % 16) (s.view k).2.2)
    | none => none

/-! The optical matrix unit (R135, R359): OMUSTAT without its bank and settle bits. -/

def PStall.light (p : PStall) : Bool := wbit p.omustat 20
def PStall.omuEbc (p : PStall) : Nat := field p.omustat 16 4

/-- A pilot or probe writes ρ, EBC and PROBES (R357, R358). -/
def PStall.writeRho (p : PStall) (rho : BitVec 16) : PStall :=
  { p with omustat :=
      putField (putField (putField p.omustat 0 16 rho.toNat) 16 4 (ebcOf rho.toNat)) 32 16 (field p.omustat 32 16 + 1) }

/-- OMUSTAT as a slot of logical stall `ls` reads it (R359). -/
def State.omuStatus (s : State) (ls : Nat) : Word :=
  let p := s.pstall (s.physStall ls)
  let l := s.lstall ls
  putField (putField (putField (putField p.omustat 22 1 p.omuRetired.toNat) 23 1 l.active.valid.toNat) 24 1 l.shadow.valid.toNat)
    25 1 p.settling.toNat

/-- A unit is under self-test (R347). -/
def State.testing (s : State) (u : UnitKind) (n : Nat) : Bool := s.dev.tests.any (fun t => t.1 == u && t.2.1 == n)

/-- Self-test of a unit starts, unless one of it runs (R347). -/
def State.startTest (s : State) (u : UnitKind) (n : Nat) (c : BitVec 8) (addr : Nat) : State :=
  if s.testing u n then s else s.modDev (fun d => { d with tests := d.tests ++ [(u, n, c, addr)] })

/-- An error of a unit is counted for a second. -/
def State.noteError (s : State) (u : UnitKind) (n : Nat) : State :=
  s.modDev (fun d => { d with errs := (u, n, s.now) :: d.errs.filter (fun e => decide (s.now < e.2.2 + 1000000000)) })

/-- Cause 0x63 raised on an OMU: twice within 1 s starts its self-test (R347). -/
def State.noteDrift (s : State) (ps : Nat) : State :=
  let again := match (s.pstall ps).lastDrift with
    | some t => decide (s.now < t + 1000000000)
    | none => false
  let s1 := (s.noteError .omu ps).modPStall ps (fun p => { p with lastDrift := some s.now })
  if again then s1.startTest .omu ps 0x63 0 else s1

/-! Phase images and banks (R189 to R194). -/

/-- The reserved bytes of an image. -/
def imageReserved : List Nat := [1, 3] ++ (List.range 52).map (fun i => 12 + i)

/-- The scale of an image is acceptable: finite and greater than 0 (R191). -/
def scaleOk (x : Nat) : Bool := decide (0 < x) && decide (x < 0x7F800000)

/-- The offsets at which an image fails R191. -/
def imageFaults (im : Image) : List Nat :=
  (if rdN im 0 1 = 1 then [] else [0]) ++
  (imageReserved.filter (fun o => rdN im o 1 != 0)) ++
  (if scaleOk (rdN im 4 4) then [] else [4]) ++
  (if rdN im 8 4 = imageSum im then [] else [8]) ++
  (((List.range 64).map (fun j => 16192 + 2 * j)).filter (fun o => decide (0x8000 < rdN im o 2)))

/-- The lowest failing offset, when the image is not valid. -/
def imageFault (im : Image) : Option Nat :=
  (imageFaults im).foldl (fun r o => match r with | none => some o | some p => some (Nat.min p o)) none

/-- Bytes that a bank reads: those of its image, or zeros while it is invalid (R192). -/
def Bank.image (b : Bank) : Image := if b.valid then b.bytes else []

/-- The banks are exchanged and the new settings settle (R192, R194). -/
def State.swapBanks (s : State) (ls : Nat) : State :=
  (s.modLStall ls (fun l => { l with active := l.shadow, shadow := l.active })).modPStall (s.physStall ls) (fun p => { p with settling := true })

/-- Offset of image unit `u` within a member's slot (R190). -/
def unitOffset (u : Nat) : Nat := 64 * (u / 16)

/-- Units `first` to `first + n - 1` read from a ring slot of each member: `off` gives the slot's offset in a member's WB. -/
def State.readUnits (s : State) (ls : Nat) (off : Nat → Nat) (first n : Nat) (im : Image) : Image :=
  (List.range n).foldl (fun m i =>
    let u := first + i
    wrN m (64 * u) 64 (s.bufRead (ls * 16 + u % 16) 2 (off (u % 16) + unitOffset u) 64)) im

/-- The first of those units with a marked word, and that word's offset. -/
def State.markedUnit (s : State) (ls : Nat) (off : Nat → Nat) (first n : Nat) : Option (Nat × Nat) :=
  (List.range n).findSome? (fun i =>
    let u := first + i
    (s.markedIn (ls * 16 + u % 16) 2 (off (u % 16) + unitOffset u) 64).map (fun a => (u, a)))

/-- The finding of a marked word in a unit (R346). -/
def unitFinding (x : Nat × Nat) : BitVec 8 × Word := (0xC0, memberEval (x.1 % 16) (BitVec.ofNat 64 x.2))

/-- The finding of the first marked word among those units. -/
def State.unitsMarked (s : State) (ls : Nat) (off : Nat → Nat) (first n : Nat) : Finding := (s.markedUnit ls off first n).map unitFinding

/-- Units written to each member's WB; `place` gives tile and offset of a member's slot. -/
def State.writeUnits (s : State) (place : Nat → Nat × Nat) (first n : Nat) (im : Image) : State :=
  (List.range n).foldl (fun t i =>
    let u := first + i
    t.bufWrite (place (u % 16)).1 2 ((place (u % 16)).2 + unitOffset u) 64 (rdN im (64 * u) 64)) s

/-- Units in an image. -/
def imageUnits : Nat := 257

/-- Offset of a member's ring slot, the one to drain or the one to fill. -/
def State.slotOffset (s : State) (keys : List Nat) (q : BitVec 3) (prod : Bool) (t : Nat) : Nat :=
  match keys[t]? with
  | some k => let r := (s.slot k).ring q; r.offset (if prod then r.prod else r.cons)
  | none => 0

/-- Every member has `w` filled slots on a ring (R219). -/
def State.allFilled (s : State) (keys : List Nat) (q : BitVec 3) (w : Nat) : Bool := keys.all (fun k => decide (w ≤ ((s.slot k).ring q).filled))
def State.allFree (s : State) (keys : List Nat) (q : BitVec 3) : Bool := keys.all (fun k => decide (1 ≤ ((s.slot k).ring q).free))

def Slot.consume (q : BitVec 3) (l : Slot) : Slot := l.setRing q ((l.ring q).advCons 1)
def Slot.produce (q : BitVec 3) (l : Slot) : Slot := l.setRing q ((l.ring q).advProd 1)

end Sys2Proof.Machine
end

