-- ==== Sys2Proof/Machine/Matrix.lean ====
section
/-! DEFINITION. The meanings of the gang instructions of major 0x20 (R193 to R205, R213) and of the device's steps that carry
them out: the complete barrier, one activation slot, one weight block, the end of a settle, a pilot, a probe, the gang timeout. -/

namespace Sys2Proof.Machine

/-! Arrivals. -/

/-- MXP (R202, R203). -/
def execMxp (qa qc : BitVec 3) (n rs : BitVec 4) (chain : BitVec 1) (s : State) : Outcome := gangArrive (.mxp qa qc n rs chain) rs s

/-- DEC (R197). -/
def execDec (qa : BitVec 3) (n rs : BitVec 4) (toBank : BitVec 1) (wf : BitVec 3) (s : State) : Outcome :=
  gangArrive (.dec qa n rs toBank wf) rs s

/-- PHLD (R193). -/
def execPhld (qa : BitVec 3) (n : BitVec 4) (swap : BitVec 1) (s : State) : Outcome := gangArrive (.phld qa n swap) 0 s

/-- PHSW (R194). -/
def execPhsw (settle : BitVec 1) (s : State) : Outcome := gangArrive (.phsw settle) 0 s

/-- PHRD (R195). -/
def execPhrd (qc : BitVec 3) (rs : BitVec 4) (s : State) : Outcome := gangArrive (.phrd qc rs) rs s

/-- PHWR (R195). -/
def execPhwr (qa : BitVec 3) (n rs : BitVec 4) (s : State) : Outcome := gangArrive (.phwr qa n rs) rs s

/-- PROBE (R213). -/
def execProbe (full : BitVec 1) (s : State) : Outcome := gangArrive (.probe full) 0 s

/-! Operands. -/

/-- A count of 0 is taken as 1 (R181). -/
def Slot.count1 (sl : Slot) (n : BitVec 4) : Nat := Nat.max 1 (sl.count n)

def mxpK (v : Word) : Nat := field v 0 12
def mxpG (v : Word) : Nat := field v 12 7
def mxpRow0 (v : Word) : Nat := field v 19 12
def mxpFmt (v : Word) : Nat := field v 32 2
def mxpGain (v : Word) : Nat := field v 34 2

/-- MXP's operand is rejected (R202). -/
def badMxp (chain : Bool) (v : Word) : Bool :=
  mxpK v == 0 || mxpG v == 0 || decide (64 < mxpG v) || mxpRow0 v % 16 != 0 || decide (4096 < mxpRow0 v + 64 * mxpG v) ||
  field v 36 28 != 0 || wbit v 31 || (decide (1 < mxpK v) && !chain)

/-- Tag, full-scale exponent and element bits of an activation format (R131, R202). -/
def actTag (f : Nat) : Nat := match f with | 0 => tF8 | 1 => tI8 | 2 => tF4 | _ => tI4
def actFA (f : Nat) : Nat := match f with | 0 => 9 | 1 => 7 | _ => 3
def actBits (f : Nat) : Nat := if f ≤ 1 then 8 else 4

/-- 64-byte units of an activation slot (R188). -/
def actUnits (f : Nat) : Nat := if f ≤ 1 then 5 else 3

/-- Bytes of the elements of an activation slot. -/
def actBytes (f : Nat) : Nat := 32 * actBits f

/-- Element tag of a weight format, and the bytes of a weight slot's elements (R196). -/
def weightTag (wf : Nat) : Nat := match wf with | 0 => tF8 | 1 => tF4 | 2 => tI8 | 3 => tI4 | _ => tC2
def weightBytes (wf : Nat) : Nat := match wf with | 0 => 256 | 2 => 256 | 1 => 128 | 3 => 128 | _ => 64
def weightUnits (wf : Nat) : Nat := match wf with | 0 => 5 | 2 => 5 | 1 => 3 | 3 => 3 | _ => 2

/-- PHRD and PHWR operand (R195 Table 3b). -/
def phFirst (v : Word) : Nat := field v 0 9
def phCount (v : Word) : Nat := field v 9 9
def phShadow (v : Word) : Bool := wbit v 32
def badPh (v : Word) : Bool := phCount v == 0 || decide (imageUnits < phFirst v + phCount v) || field v 18 14 != 0 || field v 33 31 != 0

/-! The checks of each description, in order (R175). -/

/-- A ring check as a finding. -/
def ringFinding (sl : Slot) (home : Nat) (q : BitVec 3) (b : RingBuf) (units w : Nat) : Finding :=
  match sl.checkRing home q b units w with
  | .ok _ => none
  | .error v => some (0x69, v)

/-- The checks of an instruction's description for member `t`, in order: operand, rings, then the state of the unit. The placement and the
alignment of DEC's output are one check, so that cause 0x20 at a lower member comes before 0x21 at a higher one: the spec does not order
two checks across members (notes/assumptions/26.md). -/
def State.memberChecks (s : State) (ls : Nat) (i : Instr) (t : Nat) : List (Slot → Word → Finding) :=
  let home := ls * 16 + t
  let p := s.pstall (s.physStall ls)
  match i with
  | .mxp qa qc n _ chain =>
    [ fun _ v => if badMxp (chain == 1) v then some (0x68, v) else none,
      fun l v => ringFinding l home qa .ownAb (actUnits (mxpFmt v)) (l.count1 n),
      fun l _ => if chain = 1 then ringFinding l home qc .ownWb 17 1 else none,
      fun _ _ => if p.light then none else some (0x67, 0),
      fun l _ => if p.omuEbc < l.ebcmin.toNat then some (0x63, BitVec.ofNat 64 p.omuEbc) else none,
      fun _ _ => if chain = 1 || (s.lstall ls).active.valid then none else some (0x65, 0) ]
  | .dec qa n _ toBank wf =>
    [ fun l v => if toBank = 1 && (l.count1 n != 1 || v != 0) then some (0x68, v) else none,
      fun l v => if toBank = 1 then none else match s.bufPlace home 2 v (1088 * l.count1 n) with
        | none => some (0x21, v)
        | some (_, o) => if o % 64 != 0 then some (0x20, v) else none,
      fun l _ => ringFinding l home qa .ownWb (weightUnits wf.toNat) 0 ]
  | .phld qa n _ => [ fun l _ => ringFinding l home qa .ownWb 17 (l.count1 n) ]
  | .phsw _ => []
  | .phrd qc _ =>
    [ fun _ v => if badPh v then some (0x68, v) else none,
      fun l _ => ringFinding l home qc .ownWb 17 0 ]
  | .phwr qa n _ =>
    [ fun _ v => if badPh v then some (0x68, v) else none,
      fun l _ => ringFinding l home qa .ownWb 17 (l.count1 n) ]
  | .probe _ =>
    [ fun _ _ => if (s.lstall ls).active.valid then none else some (0x65, 0),
      fun _ _ => if p.light then none else some (0x67, 0) ]
  | _ => []

/-- Check number `j` of the description, over every member. -/
def State.describedCheck (s : State) (ls : Nat) (keys : List Nat) (i : Instr) (j : Nat) : Finding :=
  keys.foldl (fun r k => match r with
    | some x => some x
    | none =>
      let t := homeOf k % 16
      let (l, _, v) := s.view k
      match ((s.memberChecks ls i t)[j]?).bind (fun f => f l v) with
      | some (c, e) => some (c, memberEval t e)
      | none => none) none

/-- Every check of a complete barrier, in order (R175, R348). -/
def State.gangFinding (s : State) (ls : Nat) (keys : List Nat) (i : Instr) : Finding :=
  match s.barrierFinding keys i with
  | some x => some x
  | none =>
    if (s.pstall (s.physStall ls)).omuRetired then some (0x66, 0)
    else (List.range 6).findSome? (fun j => s.describedCheck ls keys i j)

/-! Performing. -/

/-- The operand and the arrival view of member 0. -/
def State.lead (s : State) (keys : List Nat) : Slot × Word :=
  match keys.head? with
  | some k => ((s.view k).1, (s.view k).2.2)
  | none => ({}, 0)

/-- The members take a cause found while the instruction is performed; 0x63 is noted at the OMU. -/
def State.gangFail (s : State) (ls : Nat) (keys : List Nat) (x : BitVec 8 × Word) : State :=
  let t := s.gangTrap keys x.1 x.2
  if x.1 = 0x63 then t.noteDrift (s.physStall ls) else t

/-- The image in the ring slot that each member would drain: checked for marked words and by R191. -/
def State.ringImage (s : State) (ls : Nat) (keys : List Nat) (q : BitVec 3) : Except (BitVec 8 × Word) Image :=
  let off := s.slotOffset keys q false
  match s.unitsMarked ls off 0 imageUnits with
  | some x => .error x
  | none =>
    let im := s.readUnits ls off 0 imageUnits []
    match imageFault im with
    | some o => .error (0x65, BitVec.ofNat 64 o)
    | none => .ok im

/-- Units that a step of a gang instruction performs before it meets a stop point: all, a free number, or one under STEP (R193, R345). -/
def State.gangBurst (s : State) (l : Slot) (left : Nat) : Nat :=
  match (if l.stepping then some 1 else s.cut) with
  | some n => Nat.min n left
  | none => left

/-- The image of a PHLD below its PIDX: what the same instruction read before it stopped; open when it did not (R193, R333). -/
def State.stagedImage (s : State) (l : Slot) : Image :=
  match l.staged.find? (fun e => e.1 == l.pc) with
  | some e => e.2
  | none => (List.range (8 * l.pidx.toNat)).foldl (fun m i => wrN m (8 * i) 8 (Config.openBits s.steps i).toNat) []

/-- The units read so far are kept with PIDX behind them. -/
def Slot.stage (im : Image) (n : Nat) (l : Slot) : Slot :=
  { l with pidx := BitVec.ofNat 32 n, staged := (if n = 0 then [] else [(l.pc, im)]) ++ l.staged.filter (fun e => e.1 != l.pc) }

/-- A PHLD is over. -/
def Slot.unstage (l : Slot) : Slot := { l with pidx := 0, staged := l.staged.filter (fun e => e.1 != l.pc) }

/-- PHLD once its rings are ready (R193): units from PIDX, to the last or to a stop point; then the image is checked, with PIDX behind its last
unit, the shadow bank is loaded, and swapped with the active one on SWAP. -/
def State.performPhld (s : State) (ls : Nat) (keys : List Nat) (qa : BitVec 3) (swap : BitVec 1) : State :=
  let l0 := (s.lead keys).1
  let p := l0.pidx.toNat
  let n := s.gangBurst l0 (imageUnits - p)
  let off := s.slotOffset keys qa false
  match s.markedUnit ls off p n with
  | some x => (s.modAll keys (Slot.stage (s.readUnits ls off p (x.1 - p) (s.stagedImage l0)) x.1)).gangFail ls keys (unitFinding x)
  | none =>
    let im := s.readUnits ls off p n (s.stagedImage l0)
    let s1 := s.modAll keys (Slot.stage im (p + n))
    if p + n < imageUnits then s1.gangStep keys
    else match imageFault im with
      | some o => s1.gangFail ls keys (0x65, BitVec.ofNat 64 o)
      | none =>
        let s2 := s1.modLStall ls (fun l => { l with shadow := { valid := true, bytes := im } })
        (if swap = 1 then s2.swapBanks ls else s2).gangRetire keys (fun l => (l.consume qa).unstage)

/-- PHRD once its rings are ready (R195). -/
def State.performPhrd (s : State) (ls : Nat) (keys : List Nat) (qc : BitVec 3) (v : Word) : State :=
  let l := s.lstall ls
  let im := (if phShadow v then l.shadow else l.active).image
  let off := s.slotOffset keys qc true
  (s.writeUnits (fun t => (ls * 16 + t, off t)) (phFirst v) (phCount v) im).gangRetire keys (fun m => (m.produce qc).setTbw)

/-- PHWR once its rings are ready (R195): CHECK is recomputed, the result validated, the bank written. -/
def State.performPhwr (s : State) (ls : Nat) (keys : List Nat) (qa : BitVec 3) (v : Word) : State :=
  let l := s.lstall ls
  let off := s.slotOffset keys qa false
  match s.unitsMarked ls off (phFirst v) (phCount v) with
  | some x => s.gangFail ls keys x
  | none =>
    let im := s.readUnits ls off (phFirst v) (phCount v) (if phShadow v then l.shadow else l.active).image
    let im' := wrN im 8 4 (imageSum im)
    match imageFault im' with
    | some o => s.gangFail ls keys (0x65, BitVec.ofNat 64 o)
    | none =>
      let b : Bank := { valid := true, bytes := im' }
      let s1 := s.modLStall ls (fun m => if phShadow v then { m with shadow := b } else { m with active := b })
      let s2 := if phShadow v then s1 else s1.modPStall (s.physStall ls) (fun p => { p with settling := true })
      s2.gangRetire keys (fun m => m.consume qa)

/-- A checked gang instruction starts: what needs no engine is performed once its rings are ready, PHSW with SETTLE completes after
the settle, and passes, decompositions and probes go on by their own steps. -/
def State.gangPerform (s : State) (ls : Nat) (keys : List Nat) (i : Instr) : State :=
  let (l0, v0) := s.lead keys
  match i with
  | .mxp .. =>
    let last := mxpK v0 * mxpG v0
    let s1 := if l0.pidx = 0 then
        keys.foldl (fun t k => t.modSlot k (fun l => { l with cwm := BitVec.ofNat 16 (mxpRow0 (s.view k).2.2) })) s
      else s
    if last ≤ l0.pidx.toNat then s1.gangRetire keys (fun l => { l with pidx := 0 }) else s1
  | .dec _ n _ _ _ => if l0.count1 n ≤ l0.pidx.toNat then s.gangRetire keys (fun l => { l with pidx := 0 }) else s
  | .phld qa n swap =>
    if imageUnits ≤ l0.pidx.toNat then s.gangRetire keys Slot.unstage
    else if s.allFilled keys qa (l0.count1 n) then s.performPhld ls keys qa swap else s
  | .phsw settle =>
    let s1 := s.swapBanks ls
    if settle = 1 then s1 else s1.gangRetire keys (fun l => l)
  | .phrd qc _ => if s.allFree keys qc then s.performPhrd ls keys qc v0 else s
  | .phwr qa n _ => if s.allFilled keys qa (l0.count1 n) then s.performPhwr ls keys qa v0 else s
  | _ => s

/-- The instruction in progress waits only for its rings: another step may find them ready (R219). -/
def ringGang (i : Instr) : Bool :=
  match i with
  | .phld .. => true
  | .phrd .. => true
  | .phwr .. => true
  | _ => false

/-- The gang of a stall with the instruction of member 0, when all have arrived. While the stall is being swapped only an instruction
that completes first goes on (R323). -/
def State.gangAt (s : State) (ls : Nat) (task : Word) : Option (List Nat × Instr) :=
  let keys := s.members ls task
  if s.allArrived keys then
    match keys.head? with
    | some k => if s.midSwap ls && !(s.slot k).uncut then none else (s.view k).2.1.map (fun i => (keys, i))
    | none => none
  else none

/-- GANG_BARRIER_COMPLETE (R174, R175): checks, then performance; an instruction that waits for its rings tries again. -/
def execGangBarrierComplete (stall : BitVec 7) (task : BitVec 64) (s : State) : Outcome :=
  let ls := stall.toNat
  match s.gangAt ls task with
  | none => .next s
  | some (keys, i) =>
    if s.inPass keys then .next (if ringGang i then (s.chargeGang keys).gangPerform ls keys i else s)
    else match s.gangFinding ls keys i with
      | some x => .next (s.gangFail ls keys x)
      | none => .next (((s.modAll keys (fun l => { l with performing := true, passFrom := l.pidx })).chargeGang keys).gangPerform ls keys i)

/-- A waiting member's count has reached its GTO, while a member is still to arrive (R177). -/
def Slot.gtoDue (l : Slot) : Bool :=
  l.arrived.isSome && !l.performing && l.gmask != 0xFFFF && l.gto != 0 && decide (l.gto.toNat ≤ l.gangFor)

/-- GANG_TIMEOUT (R177): every waiting member takes cause 0x61 with GMASK. -/
def execGangTimeout (stall : BitVec 7) (task : BitVec 64) (s : State) : Outcome :=
  let keys := s.members stall.toNat task
  let waiting := keys.filter (fun k => (s.slot k).arrived.isSome && (s.slot k).phase == .waiting .gang)
  if waiting.any (fun k => (s.slot k).gtoDue) && !s.midSwap stall.toNat then
    match waiting.head? with
    | some k => .next ((s.gangTrap waiting 0x61 (BitVec.ofNat 64 (s.slot k).gmask.toNat)).modAll keys (fun l => { l with gmask := 0 }))
    | none => .next s
  else .next s

/-! The matrix pass (R203). -/

/-- Element of `w` bits number `e` at offset `o` of a tile's buffer, the low bits first. -/
def State.bufElem (s : State) (home sp o w e : Nat) : Nat := s.bufRead home sp (o + w * e / 8) 1 / 2 ^ (w * e % 8) % 2 ^ w

/-- What a pass holds for one activation slot. -/
structure PassSlot where
  ls : Nat
  fmt : Nat
  gain : Nat
  /-- AB offset of each member's activation slot. -/
  offs : List Nat
  image : Image
  ebc : Nat
  deriving DecidableEq, Repr

/-- Input values of row `r`: element j of member t drives input 4t + j (R188). -/
def State.rowInputs (s : State) (p : PassSlot) (r : Nat) : List Num :=
  (List.range 64).map (fun k =>
    decodeElem (actTag p.fmt) (s.bufElem (p.ls * 16 + k / 4) 1 (p.offs.getD (k / 4) 0) (actBits p.fmt) (4 * r + k % 4)))

/-- One row: its 64 readings and its exponent, none when its contributions are invalid (R131, R203). The analogue error of each
reading is open. -/
def State.rowReadings (s : State) (p : PassSlot) (r : Nat) : List Int × Option Int :=
  let xs := s.rowInputs p r
  let xa := s.bufRead (p.ls * 16) 1 (p.offs.getD 0 0 + actBytes p.fmt + r) 1
  let xw := rdN p.image 2 1
  let ideal := idealReadings p.image p.gain (xs.map (driveOf (actFA p.fmt)))
  let ds := ideal.mapIdx (fun j y => readingOf y (Config.openBits s.steps (64 * r + j)).toInt)
  let se := (passMant (rdN p.image 4 4)).2
  let bad := xa == 0xFF || xw == 0xFF || xs.any Num.isNan
  (ds, if bad then none else some ((se - 7) + ((xa : Int) - 127) + ((xw : Int) - 127) + (actFA p.fmt : Int) + (p.gain : Int) - 7))

/-- The contributions of one member: rows ascending, columns 0 to 3 within a row (R133). -/
def contributeAll (rows : List (List Int × Option Int)) (t row0 ms ebc : Nat) (mode : RMode) (x : Tile × FlagSet × BitVec 32) :
    Tile × FlagSet × BitVec 32 :=
  (rows.foldl (fun (a : (Tile × FlagSet × BitVec 32) × Nat) row =>
    ((List.range 4).foldl (fun b c =>
      let r := b.1.contribute c (row0 + a.2) (row.1.getD (4 * t + c) 0) ms row.2 ebc mode b.2.2
      (r.1, b.2.1 ||| r.2.1, r.2.2)) a.1, a.2 + 1)) (x, 0)).1

/-- The lowest member whose activation slot holds a marked word, or whose accumulator rows do (R346). -/
def State.passMarked (s : State) (p : PassSlot) (keys : List Nat) (g : Nat) : Finding :=
  (List.range 16).findSome? (fun t =>
    let home := p.ls * 16 + t
    match s.markedIn home 1 (p.offs.getD t 0) (actBytes p.fmt + 64) with
    | some a => some (0xC0, memberEval t (BitVec.ofNat 64 a))
    | none => match keys[t]? with
      | some k => ((s.tile home).cbMarked (mxpRow0 (s.view k).2.2 + 64 * g) 64).map (fun a => (0xC0, memberEval t (BitVec.ofNat 64 a)))
      | none => none)

/-- The activation slot of PIDX passes the mesh: contributions, ring advances, PIDX and CWM. The error is a marked word. -/
def State.streamSlot (s : State) (ls : Nat) (keys : List Nat) (qa : BitVec 3) (v0 : Word) (i : Nat) : Except (BitVec 8 × Word) State :=
  let g := i % mxpG v0
  let k := i / mxpG v0
  let p : PassSlot := {
    ls := ls, fmt := mxpFmt v0, gain := mxpGain v0, offs := (List.range 16).map (s.slotOffset keys qa false),
    image := (s.lstall ls).active.bytes, ebc := (s.pstall (s.physStall ls)).omuEbc }
  match s.passMarked p keys g with
  | some x => .error x
  | none =>
    let rows := (List.range 64).map (s.rowReadings p)
    let ms := (passMant (rdN p.image 4 4)).1
    .ok (keys.foldl (fun t key =>
      let m := homeOf key % 16
      let (l, _, v) := s.view key
      let row0 := mxpRow0 v
      let r := contributeAll rows m (row0 + 64 * g) ms p.ebc l.rmode (t.tile (homeOf key), (0 : FlagSet), l.rngs)
      (t.setTile (homeOf key) r.1).modSlot key (fun sl =>
        { (sl.consume qa).orFlags r.2.1 with
          rngs := r.2.2
          pidx := BitVec.ofNat 32 (i + 1)
          cwm := if k + 1 = mxpK v0 then BitVec.ofNat 16 (row0 + 64 * (g + 1)) else sl.cwm })) s)

/-- One activation slot; the last one completes MXP. -/
def State.passSlot (s : State) (ls : Nat) (keys : List Nat) (qa : BitVec 3) (v0 : Word) (i : Nat) : State :=
  match s.streamSlot ls keys qa v0 i with
  | .error x => s.gangFail ls keys x
  | .ok s1 =>
    if i + 1 = mxpK v0 * mxpG v0 then s1.gangRetire keys (fun l => ({ l with pidx := 0, chained := none } : Slot).setTbw) else s1.gangStep keys

/-- The mesh may be used: no settle, no self-test of the OMU (R185, R347, R356). -/
def State.meshFree (s : State) (ls : Nat) : Bool :=
  !(s.pstall (s.physStall ls)).settling && !s.testing .omu (s.physStall ls)

/-- The next image of a chained pass is loaded and swapped in, and settles; the pass has it from PIDX `i` on (R203, R356). -/
def State.chainImage (s : State) (ls : Nat) (keys : List Nat) (qc : BitVec 3) (i : Nat) : Except (BitVec 8 × Word) State :=
  match s.ringImage ls keys qc with
  | .error x => .error x
  | .ok im =>
    .ok (((s.modLStall ls (fun l => { l with shadow := { valid := true, bytes := im } })).swapBanks ls).modAll keys (fun l =>
      { l.consume qc with chained := some (l.pc, i) }))

/-- MXP_SLOT_COMPLETE (R203): under CHAIN the load of the image at a K-block's start, which waits for no activation slot and is not made again
after a stop (notes/assumptions/27.md); else one activation slot. R133 does not say whether the slots of another gang's MXP on the stall may come
between those of this one: that they may is the model's choice (notes/assumptions/78.md). -/
def execMxpSlotComplete (stall : BitVec 7) (task : BitVec 64) (s : State) : Outcome :=
  let ls := stall.toNat
  match s.gangAt ls task with
  | some (keys, .mxp qa qc n _ chain) =>
    let (l0, v0) := s.lead keys
    let i := l0.pidx.toNat
    let last := mxpK v0 * mxpG v0
    let first := chain == 1 && i % mxpG v0 == 0 && l0.chained != some (l0.pc, i)
    if !s.inPass keys || !s.meshFree ls || decide (last ≤ i) then .next s
    else if first then
      (if !s.allFilled keys qc 1 then .next s
       else match s.chainImage ls keys qc i with
         | .error x => .next (s.gangFail ls keys x)
         | .ok s1 => .next s1)
    else if !s.allFilled keys qa (Nat.min (l0.count1 n) (last - i)) then .next s
    else .next ((s.chargeGang keys).passSlot ls keys qa v0 i)
  | _ => .next s

/-! Decomposition (R197). -/

/-- Weights of a member's slot: 256 exact values (R196). -/
def State.weights (s : State) (home o wf : Nat) : List Num :=
  let scale (e : Nat) : Nat := s.bufRead home 2 (o + weightBytes wf + e / 32) 1
  if wf ≤ 3 then
    let w := elemBits (weightTag wf)
    (List.range 256).map (fun e => scaleElem (scale e) (decodeElem (weightTag wf) (s.bufElem home 2 o w e)))
  else ((List.range 32).flatMap (fun k => c2Weights (s.bufRead home 2 (o + 2 * k) 2))).mapIdx (fun e x => scaleElem (scale e) x)

/-- A weight in binary32, none when it is a NaN or exceeds the range (R197). -/
def weight32 (x : Num) : Option F32 :=
  match x with
  | .nan _ => none
  | y => let r := f32Of y; if r / 2 ^ 23 % 256 = 255 then none else some r

/-- The block by columns of M: column i is row i of the weight block; none when DEC fails. -/
def State.weightBlock (s : State) (ls : Nat) (off : Nat → Nat) (wf : Nat) : Option (List Vec32) :=
  let xs := ((List.range 16).map (fun t => (s.weights (ls * 16 + t) (off t) wf).map weight32)).flatten
  if xs.any (fun x => x.isNone) then none
  else some ((List.range 64).map (fun i => ((xs.drop (64 * i)).take 64).map (fun x => x.getD 0)))

/-- The lowest member whose weight slot holds a marked word. -/
def State.weightsMarked (s : State) (ls : Nat) (off : Nat → Nat) (wf : Nat) : Finding :=
  (List.range 16).findSome? (fun t =>
    (s.markedIn (ls * 16 + t) 2 (off t) (weightBytes wf + 8)).map (fun a => (0xC0, memberEval t (BitVec.ofNat 64 a))))

/-- DEC_BLOCK_COMPLETE (R197): one block, its image to the shadow bank or striped to each member's output. -/
def execDecBlockComplete (stall : BitVec 7) (task : BitVec 64) (s : State) : Outcome :=
  let ls := stall.toNat
  match s.gangAt ls task with
  | some (keys, .dec qa n _ toBank wf) =>
    let l0 := (s.lead keys).1
    let b := l0.pidx.toNat
    let w := l0.count1 n
    let off := s.slotOffset keys qa false
    let place (t : Nat) : Nat × Nat := match keys[t]? with
      | some k => let v := (s.view k).2.2; ((tselHome (ls * 16 + t) (field v 56 8)).getD (ls * 16 + t), field v 0 18 + 1088 * b)
      | none => (ls * 16 + t, 0)
    let who : HeldBy := .dec ls task b
    let stalls := dedup (sortBy (fun a b => decide (a ≤ b)) ((List.range 16).map (fun t => stallOf (place t).1)))
    if !s.inPass keys || decide (w ≤ b) || !s.allFilled keys qa 1 then .next s
    else if toBank != 1 && stalls.any (fun x => s.heldUp x who) then .next (stalls.foldl (fun t x => t.hold x who) s)
    else match s.weightsMarked ls off wf.toNat with
    | some x => .next (s.gangFail ls keys x)
    | none => match (s.weightBlock ls off wf.toNat).bind decompose with
      | none => .next (s.gangFail ls keys (0x64, BitVec.ofNat 64 b))
      | some im =>
        let s0 := s.chargeGang keys
        let s1 := if toBank = 1 then s0.modLStall ls (fun l => { l with shadow := { valid := true, bytes := im } })
          else (s0.letGo who).writeUnits place 0 imageUnits im
        let s2 := s1.modAll keys (fun l => { l.consume qa with pidx := BitVec.ofNat 32 (b + 1) })
        .next (if b + 1 = w then s2.gangRetire keys (fun l => if toBank = 1 then { l with pidx := 0 } else ({ l with pidx := 0 } : Slot).setTbw)
          else s2.gangStep keys)
  | _ => .next s

/-! Settles, pilots and probes (R356 to R358). -/

/-- Gangs resident on a logical stall, by TASKID. -/
def State.gangTasks (s : State) (ls : Nat) : List Word :=
  ((slotsOfTile (ls * 16)).filter (fun k => (s.slot k).occupied && (s.slot k).gang)).map (fun k => (s.slot k).taskid)

/-- A PHSW with SETTLE that is being performed completes (R194). -/
def State.settled (s : State) (ls : Nat) (task : Word) : State :=
  match s.gangAt ls task with
  | some (keys, .phsw _) => if s.inPass keys then s.gangRetire keys (fun l => l) else s
  | _ => s

/-- OMU_SETTLE_END (R356). -/
def execOmuSettleEnd (pstall : BitVec 7) (s : State) : Outcome :=
  let ps := pstall.toNat
  if (s.pstall ps).settling then
    let ls := s.logStall ps
    let s1 := s.modPStall ps (fun p => { p with settling := false })
    .next ((s1.gangTasks ls).foldl (fun t x => t.settled ls x) s1)
  else .next s

/-- TIME of the first pilot of the OMU of stall `ps` from a time on: n × 10,000 + 78 × ps (R357). -/
def pilotAfter (ps t : Nat) : Nat := 78 * ps + (t - 78 * ps + 9999) / 10000 * 10000

/-- PILOT (R357): once one is due, after a settle or between activation slots; without light it is skipped, and an invalid active bank leaves
ρ and EBC unchanged. -/
def execPilot (pstall : BitVec 7) (rho : BitVec 16) (s : State) : Outcome :=
  let ps := pstall.toNat
  let q := s.pstall ps
  if s.now < pilotAfter ps q.pilotFrom || (q.light && q.settling) then .next s
  else .next (s.modPStall ps (fun p =>
    { (if q.light && (s.lstall (s.logStall ps)).active.valid then p.writeRho rho else p) with pilotFrom := s.now + 1 }))

/-- PROBE_COMPLETE (R213): ρ and EBC are written, and the members complete. -/
def execProbeComplete (stall : BitVec 7) (task : BitVec 64) (rho : BitVec 16) (s : State) : Outcome :=
  let ls := stall.toNat
  match s.gangAt ls task with
  | some (keys, .probe _) =>
    if s.inPass keys && s.meshFree ls then
      .next (((s.chargeGang keys).modPStall (s.physStall ls) (fun p => p.writeRho rho)).gangRetire keys (fun l => l))
    else .next s
  | _ => .next s

end Sys2Proof.Machine
end

