-- ==== Sys2Proof/Machine/Unfold.lean ====
section
/-! DEFINITION. The unfolding unit (R199 to R201): UNF, which hands it a command, and the step that produces one slot. -/

namespace Sys2Proof.Machine

/-- An unfolding descriptor (R199 Table 5). -/
structure UDesc where
  h : Nat
  w : Nat
  c : Nat
  oh : Nat
  ow : Nat
  kh : Nat
  kw : Nat
  sh : Nat
  sw : Nat
  pt : Nat
  pl : Nat
  fmt : Nat
  scale : Nat
  next : Nat
  reserved : Bool
  deriving DecidableEq, Repr

def UDesc.ofNat (x : Nat) : UDesc :=
  { h := bits x 15 0, w := bits x 31 16, c := bits x 47 32, oh := bits x 63 48, ow := bits x 79 64, kh := bits x 83 80, kw := bits x 87 84,
    sh := bits x 91 88, sw := bits x 95 92, pt := bits x 99 96, pl := bits x 103 100, fmt := bits x 105 104, scale := bits x 119 112,
    next := bits x 159 128, reserved := bits x 111 106 != 0 || bits x 127 120 != 0 || bits x 255 160 != 0 }

/-- Bits of an element, and 64-byte units of an activation slot: format 0 F8, 1 I8, 2 F4, 3 I4 (R199). -/
def UDesc.bits (d : UDesc) : Nat := actBits d.fmt
def UDesc.kc (d : UDesc) : Nat := d.kh * d.kw * d.c
def UDesc.p (d : UDesc) : Nat := d.oh * d.ow
def UDesc.g (d : UDesc) : Nat := (d.p + 63) / 64
def UDesc.total (d : UDesc) : Nat := (d.kc + 63) / 64 * d.g

/-- Bytes of the feature map. -/
def UDesc.mapBytes (d : UDesc) : Nat := (d.h * d.w * d.c * d.bits + 7) / 8

/-- A range violation, a reserved bit, or a map too large for a slot of qc (R199). -/
def UDesc.bad (d : UDesc) (units : Nat) : Bool :=
  d.reserved || d.h == 0 || d.w == 0 || d.c == 0 || d.oh == 0 || d.ow == 0 || d.kh == 0 || d.kw == 0 || d.sh == 0 || d.sw == 0 ||
  decide (d.total < d.next) || decide (units * 64 < d.mapBytes)

/-- UNF (R199, R201): checks, a wait for the tile's unit, and acceptance. -/
def execUnf (qa qc : BitVec 3) (n rs : BitVec 4) (adv : BitVec 1) (s : State) : Outcome :=
  sequential s (fun t =>
    let l := t.me
    let home := homeOf t.cur
    let a := l.gr rs
    match t.checkBuffer home 1 a 32 with
    | .error c => .error (t.trapMe c a)
    | .ok (h, o) =>
      if h != home then .error (t.trapMe 0x68 a)
      else match t.markedIn home 1 o 32 with
      | some m => .error (t.trapMe 0xC0 (bufAddr a m))
      | none =>
        let d := UDesc.ofNat (t.bufRead home 1 o 32)
        match l.checkRing home qa .ab 0 0, l.checkRing home qc .ab 0 0 with
        | .error v, _ => .error (t.trapMe 0x69 v)
        | .ok _, .error v => .error (t.trapMe 0x69 v)
        | .ok ra, .ok rc =>
          if d.bad rc.slotsz then .error (t.trapMe 0x68 a)
          else if ra.slotsz < actUnits d.fmt then .error (t.trapMe 0x69 (ringEval 3 qa))
          else if (t.tile home).unfold.isSome then .error (t.waitFor .completion)
          else
            let u : Unfold := {
              slot := BitVec.ofNat 3 (t.cur % 8), task := l.taskid, qa := qa, qc := qc, left := l.count1 n, desc := o, adv := adv == 1 }
            .ok (((t.modTile home (fun x => { x with unfold := some u })).modMe Slot.setTbw).retire))

/-- Element κ of output position p, read from the map at `src` (R200). -/
def State.unfoldElem (s : State) (d : UDesc) (h src p k : Nat) : Nat :=
  let oy := p / d.ow
  let ox := p % d.ow
  let c := k % d.c
  let kx := k / d.c % d.kw
  let ky := k / (d.c * d.kw)
  let y := oy * d.sh + ky
  let x := ox * d.sw + kx
  if p < d.p ∧ k < d.kc ∧ d.pt ≤ y ∧ y < d.h + d.pt ∧ d.pl ≤ x ∧ x < d.w + d.pl then
    s.bufElem h 1 src d.bits (((y - d.pt) * d.w + (x - d.pl)) * d.c + c)
  else 0

/-- The contents of slot NEXT for member `t`: 256 elements, then 64 row scales. -/
def State.unfoldSlotData (s : State) (d : UDesc) (t h src : Nat) : Nat :=
  let g := d.next % d.g
  let k := d.next / d.g
  packCodes d.bits ((List.range 256).map (fun e => s.unfoldElem d h src (64 * g + e / 4) (64 * k + 4 * t + e % 4))) +
    2 ^ (256 * d.bits) * packCodes 8 ((List.range 64).map (fun _ => d.scale))

/-- Write NEXT of the descriptor. -/
def State.setNext (s : State) (home o n : Nat) : State := s.bufWrite home 1 (o + 16) 4 n

/-- The tile's unit drops its command. -/
def State.dropUnfold (s : State) (home : Nat) : State := s.modTile home (fun x => { x with unfold := none })

/-- The handles qa and qc that the unit advances: those of the task, or its own once the task has ended (R201). -/
def State.unfoldRings (s : State) (home : Nat) (u : Unfold) : Ring × Ring :=
  match u.rings with
  | some r => (Ring.ofBits r.1, Ring.ofBits r.2)
  | none => match s.contextOf u.task home with
    | some l => (l.ring u.qa, l.ring u.qc)
    | none => ({}, {})

/-- The unit changes its two handles; an idle slot of the task goes on (R255). -/
def State.turnUnfold (s : State) (home : Nat) (u : Unfold) (fa fc : Ring → Ring) : State :=
  match u.rings with
  | some r => s.modTile home (fun x => { x with unfold := x.unfold.map (fun v => { v with rings := some ((fa (Ring.ofBits r.1)).toBits, (fc (Ring.ofBits r.2)).toBits) }) })
  | none => s.updateTask u.task home (fun m =>
      let m1 := m.setRing u.qa (fa (m.ring u.qa))
      (m1.setRing u.qc (fc (m1.ring u.qc))).stir)

/-- The unit's accesses, as a switch holds them (R323). -/
def Unfold.access (u : Unfold) (home : Nat) : HeldBy := .unfold home u.task u.left

/-- A new turn of the sequence: NEXT becomes 0, and qc advances when the command says so (R200). -/
def State.unfoldTurn (s : State) (home : Nat) (u : Unfold) (d : UDesc) : State :=
  if d.next = d.total then
    (let z := s.setNext home u.desc 0
     if u.adv then z.turnUnfold home u (fun r => r) (fun r => r.advCons 1) else z)
  else s

/-- One slot of a command: a new turn of the sequence first, then the slot once both rings allow it (R200). An advance of qc, which is empty
only when another has drained it, waits for a filled slot, as QADV.C does (R24; notes/assumptions/26.md). A command whose task has ended
and whose handles allow no further slot ends: nothing can advance their other ends (notes/assumptions/26.md). -/
def State.unfoldStep (s : State) (home : Nat) (u : Unfold) : State :=
  let d := UDesc.ofNat (s.bufRead home 1 u.desc 32)
  let s1 := s.unfoldTurn home u d
  let d1 := if d.next = d.total then { d with next := 0 } else d
  let (ra, rc) := s1.unfoldRings home (((s1.tile home).unfold).getD u)
  let ha := ra.home home
  let hc := rc.home home
  if d.next = d.total ∧ u.adv ∧ (s.unfoldRings home u).2.filled < 1 then (if u.rings.isSome then s.dropUnfold home else s)
  else if rc.filled < 1 ∨ ra.free < 1 then (if u.rings.isSome then s1.dropUnfold home else s1)
  else if s1.heldUp (stallOf ha) (u.access home) || s1.heldUp (stallOf hc) (u.access home) then
    (s1.hold (stallOf ha) (u.access home)).hold (stallOf hc) (u.access home)
  else
    let src := rc.offset rc.cons
    if s1.tileDead ha || s1.tileDead hc then (s1.creditError u.task home 0x21).dropUnfold home
    else if (s1.markedIn hc 1 src d1.mapBytes).isSome then (s1.creditError u.task home 0xC0).dropUnfold home
    else
      let s2 := (s1.letGo (u.access home)).bufWrite ha 1 (ra.offset ra.prod) (actBytes d1.fmt + 64) (s1.unfoldSlotData d1 (home % 16) hc src)
      let s3 := (s2.turnUnfold home (((s2.tile home).unfold).getD u) (fun r => r.advProd 1) (fun r => r)).setNext home u.desc (d1.next + 1)
      s3.modTile home (fun x => { x with unfold := if u.left ≤ 1 then none else x.unfold.map (fun v => { v with left := u.left - 1 }) })

/-- UNFOLD_SLOT (R200, R201): the unit runs on whatever happens to the slot. -/
def execUnfoldSlot (tile : BitVec 11) (s : State) : Outcome :=
  let home := tile.toNat
  match (s.tile home).unfold with
  | none => .next s
  | some u => .next (if s.midSwap (stallOf home) then s else s.unfoldStep home u)

end Sys2Proof.Machine
end

