-- ==== Sys2Proof/Machine/VecMem.lean ====
section
/-! DEFINITION. Vector memory instructions (R165 to R172): lane addresses, lane checks, and the delivery of loads that waited for
forwarded replies. -/

namespace Sys2Proof.Machine

/-- Base address: a + SignExtend(offset6) × 128 (R165). -/
def vecBase (a : Word) (off : BitVec 6) : Word := a + BitVec.ofInt 64 (off.toInt * 128)

/-- Unmasked lanes from lane `k`, ascending. -/
def lanesFrom (mask : BitVec 32) (k : Nat) : List Nat := (List.range 32).filter (fun i => mask.getLsbD i && decide (k ≤ i))

/-- The set of some lanes, as a mask. -/
def laneSet (ls : List Nat) : BitVec 32 := ls.foldl (fun m j => m ||| (1#32 <<< j)) 0

/-- Lane address of a gather or scatter: the index lane sign-extends for I32 and zero-extends for N32 (R165). -/
def indexAddr (ea : Word) (x : VReg) (i : Nat) : Word :=
  ea + (if x.tg = 1 then sextN (x.lane i) 32 else BitVec.ofNat 64 (x.lane i))

/-- A lane stored: its checks, then the version or the buffer; the error is the cause (R166, R167). -/
def State.storeLane (s : State) (sp : Nat) (va : Word) (v : Nat) : Except (BitVec 8) State :=
  if sp = 0 then
    match s.checkMine .store va.toNat 4 with
    | .error c => .error c
    | .ok (s1, x) => .ok (s1.storeMine x va.toNat 4 v)
  else match s.checkBuffer (homeOf s.cur) sp va 4 with
    | .error c => .error c
    | .ok (h, o) => .ok (s.bufWrite h sp o 4 v)

/-- What a lane of a load meets: a fault with its EVAL, its value, a forwarded access, or removed deep memory. -/
inductive LaneRead where
  | fault (c : BitVec 8) (v : Word)
  | value (s : State) (v : Nat)
  | forward (s : State) (x : Xlat)
  deriving DecidableEq, Repr

/-- A lane loaded (R166, R167). -/
def State.loadLane (s : State) (sp : Nat) (va : Word) : LaneRead :=
  if sp = 0 then
    match s.checkMine .load va.toNat 4 with
    | .error c => .fault c va
    | .ok (s1, x) =>
      let s2 := s1.noteRead x va.toNat
      if s2.forwards x va.toNat 4 then .forward s2 x
      else .value (s2.loadMine x va.toNat) (s2.readGlobal s2.me x va.toNat 4)
  else match s.checkBuffer (homeOf s.cur) sp va 4 with
    | .error c => .fault c va
    | .ok (h, o) => match s.markedIn h sp o 4 with
      | some m => .fault 0xC0 (bufAddr va m)
      | none => .value s (s.bufRead h sp o 4)

/-- An access to the lanes must wait: a target tile mid-swap (R28), or, for a load, the task's own bank operations (R101). -/
def State.lanesWait (s : State) (sp : Nat) (load : Bool) (addr : Nat → Word) (ls : List Nat) : Bool :=
  if sp = 0 then
    load && ls.any (fun i => s.opPending s.me (homeOf s.cur) (fun g => g == (addr i).toNat / 32))
  else ls.any (fun i => match s.bufPlace (homeOf s.cur) sp (addr i) 4 with
    | some (h, _) => s.bufHeld h
    | none => false)

/-- The slot waits with such an access, at the switch of the first stall that holds one (R323). -/
def State.waitLanes (s : State) (sp : Nat) (addr : Nat → Word) (ls : List Nat) : State :=
  match ls.findSome? (fun i => if sp = 0 then none else (s.bufPlace (homeOf s.cur) sp (addr i) 4).bind (fun x => if s.bufHeld x.1 then some x.1 else none)) with
  | some h => s.holdAccess h
  | none => s.waitFor .completion

/-- The forwarded access of a lane moves its line, once for each line of the load (R285). -/
def State.countForward (s : State) (x : Xlat) (va : Word) (p : PendingLoad) : State :=
  if p.addrs.any (fun e => e.2.toNat / 32 == va.toNat / 32 && decide (e.2.toNat < va.toNat) && !(p.done.getLsbD e.1)) then s
  else s.missLine (s.stallAt s.cur) s.me x.pa va.toNat

/-- Lanes of modes 0 and 1, loaded in ascending order into a pending load; the error is the trap (R166). -/
def State.loadLanes (s : State) (sp : Nat) (addr : Nat → Word) : List Nat → PendingLoad → Except (BitVec 8 × Word) (State × PendingLoad)
  | [], p => .ok (s, p)
  | i :: is, p => match s.loadLane sp (addr i) with
    | .fault c v => .error (c, v)
    | .value s1 v => s1.loadLanes sp addr is (p.put i v)
    | .forward s1 x => (s1.countForward x (addr i) { p with addrs := p.addrs.filter (fun e => decide (e.1 < i)) }).loadLanes sp addr is p

/-- Lanes stored in ascending order; the error is the lane, its cause and what had been stored below it. -/
def State.storeLanes (s : State) (sp : Nat) (addr : Nat → Word) (val : Nat → Nat) : List Nat → Except (Nat × BitVec 8 × State) State
  | [] => .ok s
  | i :: is => match s.storeLane sp (addr i) (val i) with
    | .error c => .error (i, c, s)
    | .ok s1 => s1.storeLanes sp addr val is

/-- Result tag of a load: that of vt, or N32 when vt is VOID (R165). -/
def loadTag (x : VReg) : Nat := if x.tag = 0 then 2 else x.tg

/-- A load's lanes are written under the mask, `lt` last (R165, R20); its tag never differs from a non-VOID vt's. -/
def Slot.putLoad (sl : Slot) (vt : Nat) (mask : BitVec 32) (image : Nat) : Slot :=
  let x := sl.vr vt
  let y : VReg := { tag := BitVec.ofNat 4 (loadTag x), lanes := BitVec.ofNat 1024 (mergeLanes mask (if x.tag = 0 then 0 else x.lanes.toNat) image) }
  ((sl.vw vt y).vw selLt y).setVs

/-- A complete vector load is delivered: its fault, or its lanes (R172, R337). -/
def State.deliverLanes (s : State) (p : PendingLoad) : Except State State :=
  let s1 := s.modMe (fun l => { l with load := none, pc := p.at', prioRun := l.prioRun || l.hasHint 5 })
  match p.firstFault with
  | some (_, c, v) => .error (s1.trapMe c v)
  | none => .ok ((s1.modMe (fun l => l.putLoad p.dest p.mask p.image.toNat)).retire)

/-- VLD and VLDS: every lane is checked before any register is written; a lane in deep memory makes the load wait (R166, R172). -/
def vecLoad (i : Instr) (vt : BitVec 5) (km : BitVec 3) (sp : BitVec 2) (ea : Word) (addr : Nat → Word) (s : State) : Outcome :=
  sequential s (fun t =>
    let go : Except State State :=
      let mask := t.me.kr km
      let ls := lanesFrom mask 0
      if t.lanesWait sp.toNat true addr ls then .error (t.waitLanes sp.toNat addr ls)
      else
        let p0 : PendingLoad := {
          instr := i, at' := t.me.pc, start := t.me.unitStart, ea := ea, size := 0, dest := vt.toNat, want := mask,
          addrs := ls.foldl (fun m j => fset 0 j (addr j) m) [], mask := mask }
        match t.loadLanes sp.toNat addr ls p0 with
        | .error (c, v) => .error (t.trapMe c v)
        | .ok (u, p) => if p.complete then u.deliverLanes p else .error ((u.modMe (fun l => l.pendLoad p)).waitFor .load)
    match t.me.load with
    | some p =>
      if p.instr = i && p.ea == ea then (if p.complete then t.deliverLanes p else .error (t.waitFor .load)) else go
    | none => go)

/-- VST and VSTS: a fault at any lane stores none (R166). -/
def vecStore (i : Instr) (vt : BitVec 5) (km : BitVec 3) (sp : BitVec 2) (addr : Nat → Word) (s : State) : Outcome :=
  sequential s (fun t =>
    let x := t.me.vr vt.toNat
    let ls := lanesFrom (t.me.kr km) 0
    if x.tag = 0 then .error (t.trapMe 0x08 (wordOf i))
    else if t.lanesWait sp.toNat false addr ls then .error (t.waitLanes sp.toNat addr ls)
    else match t.storeLanes sp.toNat addr (fun j => x.lane j) ls with
      | .error (j, c, _) => .error (t.trapMe c (addr j))
      | .ok u => .ok (if sp = 0 || ls.isEmpty then u else u.modMe Slot.setTbw).retire)

/-- Mode 1 address: the stride is the signed value of a register (R165, R169). -/
def strideAddr (ea b : Word) (i : Nat) : Word := ea + BitVec.ofInt 64 (i * b.toInt)

/-- VLD (R168). -/
def execVld (vt : BitVec 5) (ra : BitVec 4) (km : BitVec 3) (sp : BitVec 2) (off : BitVec 6) (s : State) : Outcome :=
  let ea := vecBase (s.me.gr ra) off
  vecLoad (.vld vt ra km sp off) vt km sp ea (fun i => ea + BitVec.ofNat 64 (4 * i)) s

/-- VLDS (R169). -/
def execVlds (vt : BitVec 5) (ra ix : BitVec 4) (km : BitVec 3) (sp : BitVec 2) (off : BitVec 6) (s : State) : Outcome :=
  let ea := vecBase (s.me.gr ra) off
  vecLoad (.vlds vt ra ix km sp off) vt km sp ea (strideAddr ea (s.me.gr ix)) s

/-- VST (R168). -/
def execVst (vt : BitVec 5) (ra : BitVec 4) (km : BitVec 3) (sp : BitVec 2) (off : BitVec 6) (s : State) : Outcome :=
  let ea := vecBase (s.me.gr ra) off
  vecStore (.vst vt ra km sp off) vt km sp (fun i => ea + BitVec.ofNat 64 (4 * i)) s

/-- VSTS (R169). -/
def execVsts (vt : BitVec 5) (ra ix : BitVec 4) (km : BitVec 3) (sp : BitVec 2) (off : BitVec 6) (s : State) : Outcome :=
  let ea := vecBase (s.me.gr ra) off
  vecStore (.vsts vt ra ix km sp off) vt km sp (strideAddr ea (s.me.gr ix)) s

/-- Lanes of a gather, each read at its turn; removed deep memory gives all ones and cause 0x2A (R166, R170). -/
def State.gatherLanes (s : State) (sp : Nat) (addr : Nat → Word) : List Nat → PendingLoad → Except (BitVec 8 × Word) (State × PendingLoad)
  | [], p => .ok (s, p)
  | i :: is, p => match s.loadLane sp (addr i) with
    | .fault c v => .error (c, v)
    | .value s1 v => s1.gatherLanes sp addr is (p.put i v)
    | .forward s0 x =>
      let s1 := if s0.deepGone x.pa then s0.missLine (s0.stallAt s0.cur) s0.me x.pa (addr i).toNat else s0.loadMine x (addr i).toNat
      match s1.reply s1.me (addr i).toNat 4 with
      | .error c => .error (c, addr i)
      | .ok (v, lost) =>
        (if lost then s1.deliverAC s1.me.taskid (homeOf s1.cur) 0x2A (addr i) else s1).gatherLanes sp addr is (p.put i v)

/-- Units of a long instruction that this step performs before it meets a stop point: all, a free number, or one under the debugger's STEP
(R171, R345). -/
def State.burst (s : State) (left : Nat) : Nat := if s.me.stepping then Nat.min 1 left else match s.cut with | some n => Nat.min n left | none => left

/-- A long instruction stops at index `k`, at its own address or that of the first HINT of its run, and goes on from there (R332). -/
def Slot.stopAt (sl : Slot) (k : Nat) : Slot :=
  ({ sl with
    phase := .ready
    pc := sl.unitStart
    hints := []
    prio := false
    pidx := BitVec.ofNat 32 k } : Slot).endUnit

/-- The lanes below index `e`. -/
def below (ls : List Nat) (e : Nat) : List Nat := ls.filter (fun i => decide (i < e))

/-- The lanes that VGTH has loaded when it stops: merged into vt, but `lt` is written only at completion (R171). -/
def Slot.putPart (sl : Slot) (vt : Nat) (ls : List Nat) (image : Nat) : Slot :=
  let x := sl.vr vt
  (sl.vw vt { tag := BitVec.ofNat 4 (loadTag x), lanes := BitVec.ofNat 1024 (mergeLanes (laneSet ls) (if x.tag = 0 then 0 else x.lanes.toNat) image) }).setVs

/-- VGTH: lanes from PIDX in ascending order, to the end or to a stop point; a fault leaves vt as it was, with PIDX 0 (R170, R171). One that
finds PIDX at 32 or more completes at once and writes no register, STATUS.VS included (R332): R137 sets VS for the destination it names, and
this is the model's choice (notes/assumptions/61.md). -/
def execVgth (vt : BitVec 5) (ra ix : BitVec 4) (km : BitVec 3) (sp : BitVec 2) (off : BitVec 6) (s : State) : Outcome :=
  sequential s (fun t =>
    let l := t.me
    let i : Instr := .vgth vt ra ix km sp off
    let x := l.vr ix.toNat
    let ea := vecBase (l.gr ra) off
    let k := l.pidx.toNat
    let stop := k + t.burst (32 - k)
    let ls := below (lanesFrom (l.kr km) k) stop
    match tagCheck [x] (x.tg == 1 || x.tg == 2) with
    | .error c => .error (t.trapMe c (wordOf i))
    | .ok _ =>
      if 32 ≤ k then .ok ((t.modMe (fun l => { l with pidx := 0 })).retire)
      else if t.lanesWait sp.toNat true (indexAddr ea x) ls then .error (t.waitLanes sp.toNat (indexAddr ea x) ls)
      else match t.gatherLanes sp.toNat (indexAddr ea x) ls { instr := i } with
        | .error (c, v) => .error ((t.modMe (fun l => { l with pidx := 0 })).trapMe c v)
        | .ok (u, p) =>
          if stop < 32 then .error (u.modMe (fun l => (l.putPart vt.toNat ls p.image.toNat).stopAt stop))
          else .ok ((u.modMe (fun l => { l.putLoad vt.toNat (laneSet ls) p.image.toNat with pidx := 0 })).retire))

/-- VSCT: lanes from PIDX in ascending order, to the end or to a stop point; a fault leaves the lanes below it stored and PIDX at it (R170,
R171). -/
def execVsct (vt : BitVec 5) (ra ix : BitVec 4) (km : BitVec 3) (sp : BitVec 2) (off : BitVec 6) (s : State) : Outcome :=
  sequential s (fun t =>
    let l := t.me
    let i : Instr := .vsct vt ra ix km sp off
    let x := l.vr ix.toNat
    let d := l.vr vt.toNat
    let ea := vecBase (l.gr ra) off
    let k := l.pidx.toNat
    let stop := k + t.burst (32 - k)
    let ls := below (lanesFrom (l.kr km) k) stop
    let tbw (u : State) : State := if sp = 0 || ls.isEmpty then u else u.modMe Slot.setTbw
    match tagCheck [x, d] (x.tg == 1 || x.tg == 2) with
    | .error c => .error (t.trapMe c (wordOf i))
    | .ok _ =>
      if 32 ≤ k then .ok ((t.modMe (fun l => { l with pidx := 0 })).retire)
      else if t.lanesWait sp.toNat false (indexAddr ea x) ls then .error (t.waitLanes sp.toNat (indexAddr ea x) ls)
      else match t.storeLanes sp.toNat (indexAddr ea x) (fun j => d.lane j) ls with
        | .error (j, c, u) =>
          .error (((if ls.head? = some j then u else tbw u).modMe (fun l => { l with pidx := BitVec.ofNat 32 j })).trapMe c (indexAddr ea x j))
        | .ok u =>
          if stop < 32 then .error ((tbw u).modMe (fun l => l.stopAt stop))
          else .ok (((tbw u).modMe (fun l => { l with pidx := 0 })).retire))

/-- The waiting load of the slot is delivered once it is complete, at once and ahead of anything pending (R94, R172, R337). -/
def State.deliverLoad (s : State) : State :=
  match s.me.load with
  | none => s
  | some p =>
    if !p.complete then s
    else match p.firstFault with
    | some (_, c, v) => (s.modMe (fun l => { l with load := none })).trapMe c v
    | none =>
      let r := match p.instr with
        | .ld rd _ _ ord _ _ => s.resumeLoad p ord p.ea.toNat rd
        | _ => s.deliverLanes p
      match r with
      | .ok t => t
      | .error t => t

end Sys2Proof.Machine
end

