-- ==== Sys2Proof/Machine/Switch.lean ====
section
/-! DEFINITION. Switching out and resuming (R334 to R338), energy debt (R342), and what a slot does at an instruction boundary:
kill, doom, watchdog, pending causes, stops (R328 to R330, R341, R343, R345). -/

namespace Sys2Proof.Machine

/-! Switching out. -/

/-- What a slot waits for once its task goes on: its load, its gang, or nothing. -/
def Slot.resumePhase (l : Slot) : Phase :=
  if l.arrived.isSome then .waiting .gang
  else match l.load with
    | some p => if p.complete || !l.loadWaits then .ready else .waiting .load
    | none => .ready

/-- The context of a stopped task: at its pc or the first HINT of its run, with its arrival, its waiting load and its stop requests kept. -/
def Slot.parked (l : Slot) : Slot :=
  { l with
    pc := l.unitStart
    hints := []
    prio := false
    performing := false
    stepping := false
    age := 0
    reply := if l.sent then l.reply else none }

/-- A stall reserved by pre-emption takes the slot that its victim leaves, unless it already holds one on the tile (R314). -/
def State.urgentHere (s : State) (home : Nat) : Bool :=
  (match (s.lstall (stallOf home)).reserved with | some r => r.urgent | none => false) && !((slotsOfTile home).any (fun k => (s.slot k).held))

/-- One slot is written to its area and becomes free: a switch-out answers every stop request but a halt, and a quota stop for which it is not
the answer. -/
def State.saveSlot (s0 : State) (key area : Nat) (ext : Option Nat) (cause : Nat) (halted queued : Bool) : State :=
  let s := s0.landLate key
  let l0 := (s.slot key).parked
  let l : Slot := { l0 with stops := l0.stops.filter (fun r => (r == .halt && !halted) || (r == .quota && cause != 0x85)), next := none }
  let v := (s.slot key).vacated
  let s1 := s.writeArea area (homeOf key) l halted cause
  let t : Saved := { area := area, ext := ext, ctx := { l with phase := if halted then .halted else .ready }, home := BitVec.ofNat 11 (homeOf key), queued := queued }
  ((s1.modPart l.part (fun p => { p with saved := p.saved ++ [t] })).setSlot key { v with held := v.next.isNone && s.urgentHere (homeOf key) })

/-- The record of a switched-out task in the run queue of its HOME tile. -/
def State.queueSaved (s : State) (l : Slot) (area home : Nat) (yielded : Bool) : State :=
  s.enqueue home {
    kind := .saved area, gang := l.gang, pcls := l.pcls, part := BitVec.ofNat 4 l.part, asid := l.asid, queue := l.queue,
    demand := l.demand, yielded := yielded, since := s.now }

/-- Write the gang extension: both banks and their valid bits (R338). -/
def State.writeExt (s : State) (ext ls : Nat) : State :=
  let l := s.lstall ls
  let m0 := wrN s.mem ext 0xA000 0
  let m1 := (List.range imageBytes).foldl (fun m i => fset 0 (ext + i) (fget 0 l.active.image i) m) m0
  let m2 := (List.range imageBytes).foldl (fun m i => fset 0 (ext + 0x4100 + i) (fget 0 l.shadow.image i) m) m1
  { s with mem := wrN m2 (ext + 0x8200) 1 (l.active.valid.toNat + 2 * l.shadow.valid.toNat) }

/-- Areas for a switch-out: the extension of a gang, and one area for each member (R334, R338). -/
def State.pickAreas (s : State) (part : Nat) (gang : Bool) : Option (Option Nat × List Nat) :=
  let free := s.freeAreas part
  if gang then
    match findRun5 free with
    | none => none
    | some e =>
      let rest := free.filter (fun a => !(decide (e ≤ a) && decide (a < e + 5 * 0x2000)))
      if rest.length < 16 then none else some (some e, rest.take 16)
  else match free with
    | [] => none
    | a :: _ => some (none, [a])

/-- A task, or a whole gang, is switched out; none when the pool has no room. -/
def State.switchOut (s : State) (key cause : Nat) (halted queued : Bool) : Option State :=
  let l := s.slot key
  match s.pickAreas l.part l.gang with
  | none => none
  | some (ext, areas) =>
    let keys := if l.gang then s.members (stallOf (homeOf key)) l.taskid else [key]
    let s0 := match ext with | some e => s.writeExt e (stallOf (homeOf key)) | none => s
    let s1 := (List.zip keys areas).foldl (fun a ka => a.saveSlot ka.1 ka.2 ext cause halted queued) s0
    match keys.head?, areas.head? with
    | some k0, some a0 => some (if queued then s1.queueSaved l a0 (homeOf k0) (l.stops.head? = some .yield) else s1)
    | _, _ => some s1

/-! Restoring. -/

/-- QUOTA less DEBT, and what is left of DEBT (R342). An unlimited quota is never charged. -/
def settleDebt (quota : BitVec 48) (debt : BitVec 64) : BitVec 48 × BitVec 64 :=
  if quota = 0xFFFFFFFFFFFF then (quota, debt)
  else if quota.toNat < debt.toNat then (0, debt - quota.setWidth 64)
  else (BitVec.ofNat 48 (quota.toNat - debt.toNat), 0)

/-- The TYPE 3 entries of a log: the first 8 join the pending list, the others are credited (R337). -/
def joinPending (l : Slot) (es : List (Nat × BitVec 8 × BitVec 32 × Word)) : Slot :=
  es.foldl (fun m e => match e with
    | (ty, c, _, v) =>
      if ty != 3 then m
      else if m.pend.length < 8 then { m with pend := m.pend ++ [(c, v)] } else m.credit c) { l with pend := [] }

/-- QUOTA and DEBT of an area settle, and whether no DEBT remains (R342). -/
def State.settleArea (s : State) (x : Saved) : State × Bool :=
  let c := s.readContext x.area x.ctx
  let r := settleDebt c.quota c.debt
  let c1 : Slot := { c with quota := r.1, debt := r.2 }
  (s.writeContext x.area x.home.toNat c1, r.2 == 0)

/-- A task that stays stopped for want of QUOTA: STOPCAUSE 0x85, and no record in a run queue (R342). -/
def State.keepOut (s : State) (x : Saved) : State :=
  let ss := s.rd (x.area + 8) 8
  (s.rawWrite (x.area + 8) 8 (ss - bits ss 23 16 * 2 ^ 16 + 0x85 * 2 ^ 16)).modSaved (taskPart x.ctx.taskid) x.area (fun u => { u with queued := false })

/-- DEBT of an area exceeds its QUOTA. -/
def State.overdrawn (s : State) (x : Saved) : Bool :=
  let c := s.readContext x.area x.ctx
  (settleDebt c.quota c.debt).2 != 0 && c.quota != 0xFFFFFFFFFFFF

/-- The slot that a restore leaves, before its waiting load is delivered (R337). A QUOTA that DEBT has brought to 0 stops the task again (R342). -/
def State.restored (s : State) (t : Saved) : Slot :=
  let c := s.readContext t.area t.ctx
  let log := s.readLog t.area
  let l := joinPending c log
  let (q, d) := settleDebt l.quota l.debt
  let m : Slot := { l with
    quota := q
    debt := d
    stops := if q = 0 && l.quota != 0 && !(l.stops.contains .quota) then l.stops ++ [.quota] else l.stops
    load := t.ctx.load.map (fun (x : PendingLoad) => x.fromLog (s.rd (t.area + 0x1080) 128) log) }
  { m with phase := if t.ctx.phase == .halted then .halted else m.resumePhase }

/-- A halted slot that was released, or one resumed, goes on. -/
def Slot.resume (l : Slot) : Slot := if l.phase == .halted then { l with phase := l.resumePhase, stepping := false } else l

/-- The waiting load of slot `key` is delivered, when it is complete and the slot is not halted. -/
def State.deliverAt (s : State) (key : Nat) : State :=
  let l := s.slot key
  if l.loadWaits && l.phase != .halted && l.arrived.isNone then { ({ s with cur := key } : State).deliverLoad with cur := s.cur } else s

/-- The commands of a tile's unfolding unit for the task follow it to its slot (R201). -/
def State.moveUnfold (s : State) (key : Nat) (task : Word) : State :=
  match (s.tile (homeOf key)).unfold with
  | none => s
  | some u => if u.task == task then s.modTile (homeOf key) (fun t => { t with unfold := some { u with slot := BitVec.ofNat 3 (key % 8) } }) else s

/-- A switched-out slot's task comes back to slot `key`; an area that cannot be read ends it (R337), and one whose DEBT exceeds its QUOTA
stays out (R342). -/
def State.restoreSlot (s : State) (key : Nat) (p : Nat) (t : Saved) : State :=
  if s.poisoned t.area 0x2000 || s.isLost t.area then s.finishSaved p t 0xC0 0
  else if s.overdrawn t then (s.settleArea t).1.keepOut t
  else (((s.dropSaved p t.area).setSlot key (s.restored t)).moveUnfold key t.ctx.taskid).deliverAt key

/-- The banks of a gang come back with it, and settle (R338). -/
def State.readExt (s : State) (ext ls : Nat) : State :=
  let bank (o v : Nat) : Bank :=
    if bit (s.rd (ext + 0x8200) 1) v then
      { valid := true, bytes := (List.range imageBytes).foldl (fun m i => fset 0 i (fget 0 s.mem (ext + o + i)) m) [] }
    else {}
  (s.modLStall ls (fun l => { l with active := bank 0 0, shadow := bank 0x4100 1 })).modPStall (s.physStall ls) (fun q => { q with settling := true })

/-- The saved members of a gang, member 0 first. -/
def State.savedMembers (s : State) (p : Nat) (task : Word) : List Saved :=
  (List.range 16).filterMap (fun i => ((s.part p).saved).find? (fun t => t.ctx.taskid == task && t.home.toNat % 16 == i))

/-! Stops. -/

/-- The slot is at a boundary, which none is within a hint run (R59), or in a wait that stops (R113, R328, R330). A wait for the old value of
MOP.CAS or MOP.SAC does not stop: the spec is silent, this is the model's choice (notes/assumptions/66.md). -/
def State.atBoundary (s : State) (key : Nat) : Bool :=
  match (s.slot key).phase with
  | .ready => (s.slot key).hints.isEmpty
  | .waiting (.bankValue _ _) => false
  | .waiting .migrate => false
  | .waiting .area => false
  | .waiting .debugArea => false
  | .waiting _ => !(s.slot key).uncut
  | .halted => true
  | .free => false

/-- The reason that a stop request gives, in the order in which they are carried out. -/
def Slot.stopReason (l : Slot) : Option Stop :=
  if l.stops.contains .quota then some .quota
  else if l.stops.contains .halt then some .halt
  else if l.stops.contains .preempt then some .preempt
  else if l.stops.contains .yield then some .yield
  else none

/-- A stop request is answered. -/
def Slot.dropStop (r : Stop) (l : Slot) : Slot := { l with stops := l.stops.filter (fun x => x != r) }

/-- The slots that stop together: a slot, or the 16 members of its gang (R179). -/
def State.together (s : State) (key : Nat) : List Nat := s.gangKeys key

/-- A request for the task of a slot to stop, at every member of a gang. -/
def State.requestStop (s : State) (key : Nat) (r : Stop) : State :=
  (s.together key).foldl (fun t k => t.modSlot k (fun l => if l.stops.contains r then l else { l with stops := l.stops ++ [r] })) s

/-- A halt in place: the slot's wait and arrival are kept for its release (R345). -/
def Slot.halt (l : Slot) : Slot := { l.parked.dropStop .halt with phase := .halted }

/-- The quota record of a stopped task (R342, R403). -/
def State.quotaRecord (s : State) (key : Nat) : State :=
  let l := s.slot key
  s.powerRecord l.part s.now 8 (s.stallAt key) (field l.taskid 0 48)

/-- A stop is carried out, once every slot that stops with this one is at a boundary. When the pool has no room, a quota stop or a
debug save holds the slots in the waiting state, YIELD has no effect, and the record of a pre-emption waits for another victim (R334). No rule
says what YIELD does where the run queue already holds its 16 records: that it has no effect is the model's choice (notes/assumptions/82.md). -/
def State.carryStop (s : State) (key : Nat) (r : Stop) : State :=
  let keys := s.together key
  if !(keys.all (fun k => s.atBoundary k || (s.slot k).phase == .waiting .area || (s.slot k).phase == .waiting .debugArea)) then s
  else match r with
  | .halt =>
    if (s.slot key).phase == .waiting .debugArea then
      match s.switchOut key 0x0A true false with
      | some t => t.modPart (s.slot key).part (fun p => { p with dbgBusy := false })
      | none => s
    else keys.foldl (fun t k => t.modSlot k Slot.halt) s
  | .quota =>
    let first := (s.slot key).phase != .waiting .area
    let s1 := if first then s.quotaRecord key else s
    (match s1.switchOut key 0x85 ((s.slot key).phase == .halted) false with
      | some t => t
      | none => keys.foldl (fun t k => t.modSlot k (fun l => { l.parked with phase := .waiting .area })) s1)
  | .preempt | .yield =>
    let home := homeOf (keys.headD key)
    match (if s.runqFull home then none else s.switchOut key 0 ((s.slot key).phase == .halted) true) with
    | some t => t
    | none => keys.foldl (fun t k => (t.modSlot k (Slot.dropStop r)).returnNext k) s

/-! The boundary (R329). -/

/-- A commit waits, or has been made and not yet been taken note of: causes and the watchdog wait with it (R114). -/
def Slot.inCommit (l : Slot) : Bool := l.seg.sealedCommit || l.committed

/-- The cause that a slot takes at its boundary, with its EVAL (R329, R341). -/
def Slot.due (l : Slot) : Option (BitVec 8 × Word) :=
  if l.phase == .halted || l.inCommit then none
  else if l.doomed then some (l.doomCause, l.doomEval)
  else if l.wdogDue then some (0x0C, 0)
  else if l.pl = 0 then l.pend.head? else none

/-- The slot has something to do at its boundary. -/
def Slot.hasWork (l : Slot) : Bool := l.kill || l.due.isSome || !l.stops.isEmpty || l.late.isSome

/-- A waiting member that has arrived takes nothing until its barrier completes, breaks or times out (R330). -/
def Slot.shielded (l : Slot) : Bool := l.arrived.isSome && !l.performing && l.phase == .waiting .gang

/-- The cause that is due is taken: from the pending list, the watchdog or doom; at PL 1 the watchdog ends the task (R341). -/
def State.takeDue (s : State) (key : Nat) : State :=
  let l := s.slot key
  match l.due with
  | none => s
  | some (c, v) =>
    if l.doomed then s.trap key c l.seg.start v
    else if l.wdogDue then
      let s1 := s.modSlot key (fun m => { m with wdogDue := false })
      if l.pl = 0 then s1.trap key 0x0C l.unitStart 0 else s1.endAt key 0x0C 0
    else (s.modSlot key (fun m => { m with pend := m.pend.drop 1 })).trap key c l.unitStart v

/-- The slot's boundary: a kill first, then what is due, then a stop (R329). -/
def State.boundary (s : State) (key : Nat) : State :=
  let l := s.slot key
  if s.midSwap (stallOf (homeOf key)) then s
  else if l.late.isSome then s.landLate key
  else if l.kill && l.occupied && !l.shielded && !(s.slot key).uncut then
    if l.seg.sealedCommit && !l.doomed then (if s.commitBlocked l (homeOf key) then s else (s.commitSlot key).endAt key 0x86 0)
    else s.endAt key 0x86 0
  else if l.phase == .waiting .area then s.carryStop key .quota
  else if l.phase == .waiting .debugArea then s.carryStop key .halt
  else if !(s.atBoundary key) then s
  else
    let s1 := if l.shielded then s else s.takeDue key
    match (s1.slot key).stopReason with
    | some r => s1.carryStop key r
    | none => s1

/-- BOUNDARY_EVENT (R329). -/
def execBoundaryEvent (tile : BitVec 11) (slot : BitVec 3) (s : State) : Outcome := .next (s.boundary (tile.toNat * 8 + slot.toNat))

/-- WATCHDOG_EXPIRY (R341): WDOG has run out, and the expiry is taken at the next boundary. -/
def execWatchdogExpiry (tile : BitVec 11) (slot : BitVec 3) (s : State) : Outcome :=
  let key := tile.toNat * 8 + slot.toNat
  let l := s.slot key
  if l.occupied && l.phase != .halted && l.wdog == 1 then .next (s.modSlot key (fun m => { m with wdog := 0, wdogDue := true }))
  else .next s

end Sys2Proof.Machine
end

