-- ==== Sys2Proof/Machine/Sync.lean ====
section
/-! DEFINITION. COMMIT and the fences (R109, R110), and the waits WAITA, WAITANY and REFL (R111 to R115). -/

namespace Sys2Proof.Machine

/-- COMMIT (R109). -/
def execCommit (s : State) : Outcome := sequential s (fun t => t.commitBefore.map State.retire)

/-- Lines that the task has committed are written back (R110, system scope). -/
def State.writeBackTask (s : State) (task : Word) : State :=
  { s with dirty := s.dirty.filter (fun e => match e.2 with
      | some d => !(d.wrote.any (fun w => w.2.2 == task))
      | none => false) }

/-- A fence commits before. Its FENCE.G part waits until every bank operation of the slot has been applied, and at system scope
writes back what the task has committed; its FENCE.B part has nothing to wait for, since typed-buffer accesses are performed at
once (R92, R110). -/
def fenceOp (g : Bool) (s : State) : Outcome :=
  let scope := s.me.scopeHint.getD 3
  sequential s (fun t0 => t0.commitBefore.bind (fun t =>
    if g && t.opPending t.me (homeOf t.cur) (fun _ => true) then .error (t.waitFor .completion)
    else .ok (if g && scope == 4 then t.writeBackTask t.me.taskid else t).retire))

/-- FENCE: both parts (R110). -/
def execFence (s : State) : Outcome := fenceOp true s

/-- FENCE.G (R110). -/
def execFenceG (s : State) : Outcome := fenceOp true s

/-- FENCE.B (R110). -/
def execFenceB (s : State) : Outcome := fenceOp false s

/-- A granule of a receive page counts as orphaned when the page's STAT is 0xA2 (R368). -/
def State.orphaned (s : State) (part : Nat) (x : Xlat) : Bool :=
  let c := (s.part part).cfg
  x.ty == 2 && s.rd (c.rxdir.toNat + 16 * ((x.pa - c.rxbase.toNat) / 0x10000) + 4) 1 == 0xA2

/-- WAITA: it ends when the dword has reached the target, or when its memory is lost or orphaned (R111). -/
def execWaita (rd ra rb : BitVec 4) (s : State) : Outcome :=
  sequential s (fun t0 => (t0.commitBefore.map State.openHere).bind (fun t =>
    let ea := t.me.gr ra
    let task := t.me.taskid
    match t.checkMine .wait ea.toNat 8 with
    | .error c => .error (t.trapMe c ea)
    | .ok (t1, x) =>
      let t2 := if t1.deepGone x.pa then t1.acquire t1.cur x.pa else (t1.acquire t1.cur x.pa).loadMine x ea.toNat
      let lost := t2.deepGone x.pa
      let orph := t2.orphaned t2.me.part x
      let m := BitVec.ofNat 64 (t2.readGlobal t2.me x ea.toNat 8)
      if lost || orph then
        .ok ((((t2.noteRead x ea.toNat).modMe (fun l => l.gw rd allOnes)).deliverAC task (homeOf t2.cur) (if lost then 0x2A else 0xA2) ea).retire)
      else if 0 ≤ (m - t2.me.gr rb).toInt then .ok (((t2.noteRead x ea.toNat).modMe (fun l => l.gw rd m)).retire)
      else .error (t2.waitFor (.address ea))))

/-- The first selected barrier from the start pointer upward whose COUNT is 0 (R112). -/
def Slot.readyBarrier (sl : Slot) (mask : Nat) : Option Nat :=
  ((List.range 8).map (fun i => (sl.startPtr.toNat + i) % 8)).find? (fun j => bit mask j && barCount (sl.br j) == 0)

/-- WAITANY: its report is an acquire (R88, R112). -/
def execWaitany (rd ra : BitVec 4) (s : State) : Outcome :=
  sequential s (fun t0 => (t0.commitBefore.map State.openHere).bind (fun t =>
    let mask := field (t.me.gr ra) 0 8
    if mask = 0 then .ok ((t.modMe (fun l => l.gw rd 0x8000000000000000)).retire)
    else match t.me.readyBarrier mask with
      | none => .error (t.waitFor .completion)
      | some j =>
        let b := t.me.br j
        .ok (((t.acquireAt t.cur).modMe (fun l =>
          { (l.bw j (mkBar 0 0 false)).gw rd (BitVec.ofNat 64 (j + barErr b * 2 ^ 16 + (barEv b).toNat * 2 ^ 24)) with
            startPtr := BitVec.ofNat 3 (j + 1) })).retire)))

/-- REFL result (R115 Table 6). -/
def ReflRec.word (r : ReflRec) : Word :=
  BitVec.ofNat 64 (r.cause.toNat + r.failed % 65536 * 2 ^ 16)

/-- REFL: it waits until every window store committed by the task has been applied or has failed, and clears the record (R115). -/
def execRefl (rd : BitVec 4) (s : State) : Outcome :=
  sequential s (fun t =>
    let r := t.reflRec t.me.taskid
    if r.outstanding = 0 then
      .ok (((t.modRefl t.me.taskid (fun _ => {})).modMe (fun l => l.gw rd r.word)).retire)
    else .error (t.waitFor .completion))

end Sys2Proof.Machine
end

