-- ==== Sys2Proof/Machine/Tasks.lean ====
section
/-! DEFINITION. The meanings of majors 0x2C and 0x2D: SEND, MIGR, FORK, JOIN, TEND, YIELD, SPAWN (R226 to R239). -/

namespace Sys2Proof.Machine

/-! Barriers at issue (R25). -/

/-- The barrier that an instruction attaches, if any (R223). -/
def attachOf (att : BitVec 1) (bn : BitVec 3) : Option (BitVec 3) := if att = 1 then some bn else none

/-- A full COUNT: the instruction waits. -/
def Slot.barFull (l : Slot) (b : Option (BitVec 3)) : Bool :=
  match b with
  | some i => barCount (l.br i.toNat) == 0xFFFF
  | none => false

def Slot.attachTo (l : Slot) (b : Option (BitVec 3)) : Slot := match b with | some i => l.attach i.toNat | none => l

/-! Messages. -/

/-- Entries of a tile's send queue of a network. -/
def Tile.sendQ (t : Tile) (net : BitVec 1) : List Message := if net = 0 then t.sendReq else t.sendRpy
def Tile.pushSend (t : Tile) (m : Message) : Tile :=
  if m.net = 0 then { t with sendReq := t.sendReq ++ [m] } else { t with sendRpy := t.sendRpy ++ [m] }

/-- The send queue of a network is full (R226). -/
def State.sendFull (s : State) (home : Nat) (net : BitVec 1) (part : Nat) : Bool :=
  decide ((s.part part).cfg.sqd ≤ ((s.tile home).sendQ net).length)

/-- SEND on a network (R226, R227). -/
def sendOn (net : BitVec 1) (rd ra rb k : BitVec 4) (att : BitVec 1) (bn : BitVec 3) (s : State) : Outcome :=
  sequential s (fun t0 => t0.commitBefore.bind (fun t =>
    let l := t.me
    let home := homeOf t.cur
    let d := l.gr rd
    let a := l.gr ra
    let b := attachOf att bn
    if field d 11 53 != 0 || !(t.ownsArcade l.part (field d 7 4)) then .error (t.trapMe 0x82 d)
    else if !(legalTarget a.toNat) then .error (t.trapMe 0x82 a)
    else if t.sendFull home net l.part then
      (if net = 1 || l.msg then .error (t.trapMe 0x80 d) else .error (t.waitFor .completion))
    else if l.barFull b then .error (t.waitFor .completion)
    else
      let m : Message := {
        net := net, dest := BitVec.ofNat 11 d.toNat, pc := a, payload := fgetN 0 l.g 1 k.toNat, sender := BitVec.ofNat 11 home,
        cookie := l.gr rb, barrier := b, task := l.taskid, pcls := l.pcls, asid := l.asid, fromSlot := t.cur, sentAt := t.steps }
      .ok (((t.modTile home (fun x => x.pushSend m)).modMe (fun q => q.attachTo b)).retire)))

/-- SEND.REQ (R226). -/
def execSendReq (rd ra rb k : BitVec 4) (att : BitVec 1) (bn : BitVec 3) (s : State) : Outcome := sendOn 0 rd ra rb k att bn s

/-- SEND.RPY (R226). -/
def execSendRpy (rd ra rb k : BitVec 4) (att : BitVec 1) (bn : BitVec 3) (s : State) : Outcome := sendOn 1 rd ra rb k att bn s

/-! Free slots, leases and units (R233 to R235, R312, R313). -/

/-- Free slots of a tile, lowest first. -/
def State.freeSlots (s : State) (home : Nat) : List Nat := (slotsOfTile home).filter (fun k => (s.slot k).isFree)

/-- A reservation of the tile's stall still needs a slot of this tile (R315, R316). -/
def State.owesSlot (s : State) (home : Nat) : Bool :=
  (s.lstall (stallOf home)).reserved.isSome && !((slotsOfTile home).any (fun k => (s.slot k).held))

/-- Two ranges of a buffer meet. -/
def overlaps (a n b m : Nat) : Bool := decide (a < b + m) && decide (b < a + n)

/-- The lowest offset, in steps of `unit`, at which `len` bytes are unleased in every one of the lists (R234). -/
def findRoom (ls : List (List (Word × Nat × Nat))) (unit len : Nat) : Option Nat :=
  if len = 0 then some 0
  else ((List.range 64).map (fun i => i * unit)).find? (fun o =>
    decide (o + len ≤ 64 * unit) && ls.all (fun l => l.all (fun e => !(overlaps o len e.2.1 e.2.2))))

/-- Offsets of leases of LAB and LWB units that hold on all the tiles. -/
def State.leaseRoom (s : State) (homes : List Nat) (lab lwb : Nat) : Option (Nat × Nat) :=
  match findRoom (homes.map (fun h => (s.tile h).abLeases)) 4096 (lab * 4096),
        findRoom (homes.map (fun h => (s.tile h).wbLeases)) 1024 (lwb * 1024) with
  | some a, some w => some (a, w)
  | _, _ => none

/-- A record that a slot of the tile may take now: gangs wait for a reservation, and leases need room (R234, R316). -/
def State.startable (s : State) (home : Nat) (r : Record) : Bool :=
  !r.gang && (match r.kind with
    | .saved _ | .cont _ => true
    | _ => (s.leaseRoom [home] r.lab r.lwb).isSome)

/-- Slots that new work may take: a slot that a mailbox entry, a reservation or a queued record takes first is not idle (R315). -/
def State.idleSlots (s : State) (home : Nat) : List Nat :=
  if (s.tile home).mailbox.isEmpty && !((s.tile home).runq.any (s.startable home)) && !(s.owesSlot home) then s.freeSlots home else []

/-- A stall is withheld: hot, or its quadrant over budget (R313). -/
def State.withheld (s : State) (ls : Nat) : Bool :=
  (s.pstall (s.physStall ls)).hot || (s.quad (quadOfArcade (ls / 8))).overBudget

/-- A stall that starts nothing now: dead or being swapped. -/
def State.stallDeadOrMoving (s : State) (ls : Nat) : Bool := (s.lstall ls).dead || s.midSwap ls

/-- A stall that takes no new work now: dead, being swapped, or withheld. -/
def State.stallClosed (s : State) (ls : Nat) : Bool := (s.lstall ls).dead || s.midSwap ls || s.withheld ls

def State.takeLease (s : State) (home : Nat) (task : Word) (ab wb : Nat × Nat) : State :=
  s.modTile home (fun t => { t with
    abLeases := if ab.2 = 0 then t.abLeases else t.abLeases ++ [(task, ab.1, ab.2)]
    wbLeases := if wb.2 = 0 then t.wbLeases else t.wbLeases ++ [(task, wb.1, wb.2)] })

/-! Forks. -/

/-- What a FORK, or a FORK node, asks for. -/
structure Fork where
  entry : Word
  arg : Word
  cont : Word
  carg : Word
  trips : Nat
  grain : Nat
  maxw : Nat
  lab : Nat
  lwb : Nat
  gang : Bool
  part : Nat
  asid : BitVec 16
  pcls : BitVec 3
  queue : Option Nat
  demand : Option (BitVec 3)
  creator : Word
  node : Option (BitVec 16 × Word)
  barrier : Option (BitVec 3)
  sched : Option (Word × Nat)
  deriving DecidableEq, Repr

/-- Tiles of a stall. -/
def tilesOf (ls : Nat) : List Nat := (List.range 16).map (fun t => ls * 16 + t)

/-- Stalls in the order of R234: the first one, its arcade, its quadrant, the other arcades of the partition. -/
def State.searchOrder (s : State) (part ls : Nat) : List Nat :=
  let a := ls / 8
  let stalls (x : Nat) : List Nat := (List.range 8).map (fun i => x * 8 + i)
  let others := (List.range 16).filter (fun x => x != a && s.ownsArcade part x)
  [ls] ++ (stalls a).filter (fun x => x != ls) ++
    ((others.filter (fun x => quadOfArcade x == quadOfArcade a)) ++ (others.filter (fun x => quadOfArcade x != quadOfArcade a))).flatMap stalls

/-- The units found: tiles, or stalls for a gang, each at most once (R234). -/
def State.units (s : State) (f : Fork) (ls want : Nat) : List Nat :=
  let open' := (s.searchOrder f.part ls).filter (fun x => !(s.stallClosed x))
  (if f.gang then
    open'.filter (fun x => (s.lstall x).reserved.isNone && !((s.pstall (s.physStall x)).omuRetired) &&
      (tilesOf x).all (fun h => !(s.idleSlots h).isEmpty) && (s.leaseRoom (tilesOf x) f.lab f.lwb).isSome)
   else (open'.flatMap tilesOf).filter (fun h => !(s.idleSlots h).isEmpty && (s.leaseRoom [h] f.lab f.lwb).isSome)).take want

/-- The switch whose join cells serve a set of stalls, as the first of its 64 keys (R233). -/
def cellBase (home : Nat) (stalls : List Nat) : Nat :=
  match stalls with
  | [] => stallOf home * 64
  | x :: xs =>
    if xs.all (fun y => y == x) then x * 64
    else if xs.all (fun y => y / 8 == x / 8) then 8192 + x / 8 * 64
    else 8192 + arcadeOf home * 64

/-- A free join cell of a switch. -/
def State.freeCellAt (s : State) (base : Nat) : Option Nat := ((List.range 64).map (fun i => base + i)).find? (fun k => (s.cell k).isNone)

/-- The handle of a cell (R234). -/
def handleOf (cell p : Nat) (task : Word) : Word := BitVec.ofNat 64 (cell % 65536 + p % 65536 * 2 ^ 16 + field task 0 32 * 2 ^ 32)

/-- First iteration and count of worker `i` of `p` (R234). -/
def shareOf (n p i : Nat) : Nat × Nat :=
  let q := n / p
  let m := n % p
  (i * q + Nat.min i m, if i < m then q + 1 else q)

/-- Arguments g1 to g8 of worker `i`. -/
def workerArgs (f : Fork) (p i : Nat) (ab wb : Nat) (handle : Word) : List Word :=
  let sh := shareOf f.trips p i
  [BitVec.ofNat 64 sh.1, BitVec.ofNat 64 sh.2, f.arg, BitVec.ofNat 64 i, BitVec.ofNat 64 p, BitVec.ofNat 64 ab, BitVec.ofNat 64 wb, handle]

/-- The command of a FORK node's worker is queued on channel 7 of its tile, attached to b7 (R304). -/
def State.queueSched (s : State) (home key : Nat) (sched : Option (Word × Nat)) : State :=
  match sched with
  | none => s
  | some (a, n) =>
    let l := s.slot key
    let c : Command := {
      first := a, count := n, task := l.taskid, asid := l.asid, part := BitVec.ofNat 4 l.part, barrier := some 7,
      leaseRel := some (l.abLease.1, l.wbLease.1), slot := some key }
    (s.modTile home (fun t => { t with chans := fmod {} 7 (fun ch => { ch with cmds := ch.cmds ++ [c] }) t.chans })).modSlot key (fun m => m.attach 7)

/-- Start one task with its lease in each of the given slots: one slot, or one on every tile of a gang's stall. Each start is an acquire of what
the task that asked for it has committed (R224). -/
def State.startIn (s : State) (keys : List Nat) (r : Record) (entry : Word) (args : List Word) (off : Nat × Nat) : State :=
  let n := s.newTask r.part.toNat
  keys.foldl (fun t k =>
    let l := { t.freshSlot r.part.toNat r.pcls r.asid n.2 entry args r.gang false with
      origin := r.origin, queue := r.queue, demand := r.demand, leaseTile := homeOf k,
      abLease := (off.1, r.lab * 4096), wbLease := (off.2, r.lwb * 1024) }
    ((((t.acquireAt k).setSlot k l).takeLease (homeOf k) n.2 (off.1, r.lab * 4096) (off.2, r.lwb * 1024)).queueSched (homeOf k) k r.sched)) n.1

/-- The record of a worker. -/
def Fork.record (f : Fork) (cell p i : Nat) (ab wb : Nat) (handle : Word) (now : Nat) : Record :=
  { kind := .worker f.entry (workerArgs f p i ab wb handle) cell, gang := f.gang, pcls := f.pcls, part := BitVec.ofNat 4 f.part,
    asid := f.asid, origin := .cell cell, queue := f.queue, demand := f.demand, lab := f.lab, lwb := f.lwb, sched := f.sched, since := now }

/-- Worker `i` starts in a unit that was found. -/
def State.startWorker (s : State) (f : Fork) (cell p i unit : Nat) (handle : Word) : State :=
  let homes := if f.gang then tilesOf unit else [unit]
  let off := (s.leaseRoom homes f.lab f.lwb).getD (0, 0)
  let r := f.record cell p i off.1 off.2 handle s.now
  s.startIn (homes.filterMap (fun h => (s.freeSlots h).head?)) r f.entry (workerArgs f p i off.1 off.2 handle) off

/-- The cell of a fork. -/
def Fork.cell (f : Fork) (p home : Nat) : Cell :=
  { creator := f.creator, node := f.node, total := p, cont := f.cont, carg := f.carg, barrier := f.barrier, asid := f.asid,
    part := BitVec.ofNat 4 f.part, pcls := f.pcls, queue := f.queue, demand := f.demand, tile := home }

/-- Workers wanted (R234). -/
def Fork.want (f : Fork) : Nat := if f.trips = 0 then 0 else Nat.min f.maxw ((f.trips + f.grain - 1) / f.grain)

/-- The fork itself: units, cell, workers, handle. None when no cell is free, or when its only worker finds the run queue of
`home` full. The search starts at stall `ls`; a fork with N = 0 completes at once. -/
def State.forkWorkers (s : State) (f : Fork) (ls home : Nat) : Option (State × Word) :=
  let us := s.units f ls f.want
  let p := if f.want = 0 then 0 else Nat.max 1 us.length
  let queued := us.isEmpty && decide (0 < f.want)
  if queued && decide (16 ≤ (s.tile home).runq.length) then none
  else match s.freeCellAt (cellBase home (us.map (fun u => if f.gang then u else stallOf u))) with
  | none => none
  | some id =>
    let c := f.cell p home
    let h := handleOf id p f.creator
    let s1 := s.setCell id (some c)
    let s2 := if queued then s1.enqueue home (f.record id 1 0 0 0 h s.now)
      else (us.foldl (fun (a : State × Nat) u => (a.1.startWorker f id p a.2 u h, a.2 + 1)) (s1, 0)).1
    some (if p = 0 then s2.completeCell id c none else s2, h)

/-- A fork record (R233 Table 3). -/
structure ForkRec where
  entry : Word
  arg : Word
  cont : Word
  carg : Word
  grain : Nat
  maxw : Nat
  lab : Nat
  lwb : Nat
  gang : Bool
  bad : Bool
  deriving DecidableEq, Repr

/-- The fork record at `x` (R233 Table 3), `bad` where it violates a limit. Of CONT the table asks no legal target; that a nonzero CONT which is
none violates a limit, cause 0x84, is the model's choice (notes/assumptions/81.md). -/
def ForkRec.ofNat (x : Nat) : ForkRec :=
  let w (o : Nat) : Word := BitVec.ofNat 64 (bits x (64 * o + 63) (64 * o))
  { entry := w 0, arg := w 1, cont := w 2, carg := w 3, grain := bits x 287 256, maxw := bits x 303 288, lab := bits x 311 304,
    lwb := bits x 319 312, gang := bit x 320,
    bad := !(legalTarget (w 0).toNat) || (w 2 != 0 && !(legalTarget (w 2).toNat)) || bits x 287 256 == 0 || bits x 303 288 == 0 ||
      decide (16384 < bits x 303 288) || decide (64 < bits x 311 304) || decide (64 < bits x 319 312) || bits x 383 321 != 0 ||
      bits x 511 448 != 0 }

/-- A record of `n` bytes read as committed memory: the checks of R87, all ones from removed deep memory (R91). -/
def State.readRecord (s : State) (a : Word) (n : Nat) : Except (BitVec 8) (State × Nat) :=
  match s.checkGlobal none s.me .load a.toNat n with
  | .error c => .error c
  | .ok (s1, x) =>
    let s2 := s1.countAccess x.pa (s1.stallAt s1.cur) ((n + 31) / 32)
    if s2.deepGone x.pa then .ok (s2.deliverAC s2.me.taskid (homeOf s2.cur) 0x2A a, 2 ^ (8 * n) - 1)
    else .ok (s2, s2.rd x.pa n)

/-- FORK (R233, R234). -/
def execFork (rd ra rb : BitVec 4) (att : BitVec 1) (bn : BitVec 3) (s : State) : Outcome :=
  sequential s (fun t0 => t0.commitBefore.bind (fun t =>
    let l := t.me
    let a := l.gr ra
    let n := l.gr rb
    let b := attachOf att bn
    if field a 0 6 != 0 || field n 32 32 != 0 then .error (t.trapMe 0x84 a)
    else match t.readRecord a 64 with
    | .error c => .error (t.trapMe c a)
    | .ok (t1, x) =>
      let r := ForkRec.ofNat x
      if r.bad then .error (t1.trapMe 0x84 a)
      else if l.barFull b then .error (t1.waitFor .completion)
      else
        let f : Fork := {
          entry := r.entry, arg := r.arg, cont := r.cont, carg := r.carg, trips := n.toNat, grain := r.grain, maxw := r.maxw,
          lab := r.lab, lwb := r.lwb, gang := r.gang, part := l.part, asid := l.asid, pcls := l.pcls, queue := l.queue,
          demand := l.demand, creator := l.taskid, node := none, barrier := b, sched := none }
        match (t1.modMe (fun m => m.attachTo b)).forkWorkers f (stallOf (homeOf t1.cur)) (homeOf t1.cur) with
        | none => .error (t1.waitFor .completion)
        | some (t2, h) => .ok ((t2.modMe (fun m => m.gw rd h)).retire)))

/-- JOIN: the end of its wait is an acquire (R224, R236). -/
def execJoin (ra : BitVec 4) (s : State) : Outcome :=
  sequential s (fun t0 => t0.commitBefore.bind (fun t =>
    let h := t.me.gr ra
    let id := field h 0 16
    if t.cellHeld id then .error (t.waitFor .completion)
    else match t.cell id with
    | none => .error (t.trapMe 0x87 h)
    | some c =>
      if c.creator != t.me.taskid || c.node.isSome || handleOf id c.total c.creator != h || c.cont != 0 then .error (t.trapMe 0x87 h)
      else if c.complete then .ok ((((t.acquireAt t.cur).modMe (fun l => l.gw ra c.status)).freeCell id).retire)
      else .error (t.waitFor .completion)))

/-! Task ends and YIELD. -/

/-- TEND (R237): the final segment commits, and the task ends; a member's end breaks its gang's barrier. -/
def execTend (s : State) : Outcome := finish (s.commitBefore.map (fun t => (t.countIssue t.cur).endAt t.cur 0 0))

/-- YIELD (R238): it stops the task when a record of its class or a higher one waits and the pool has room (R334). -/
def execYield (s : State) : Outcome :=
  sequential s (fun t =>
    let l := t.me
    if (t.tile (homeOf t.cur)).runq.any (fun r => decide (l.pcls.toNat ≤ r.pcls.toNat)) && (t.pickAreas l.part l.gang).isSome then
      .ok (t.retire.requestStop t.cur .yield)
    else .ok t.retire)

/-! Migration (R231, R232). -/

/-- The context that a migrant carries: it goes on at `pc` with the values of R232. -/
def State.migrantOf (s : State) (l : Slot) (pc : Word) : Slot :=
  let c := (s.part l.part).cfg
  let m := l.calm
  ({ phase := .ready, pc := pc, g := m.g, status := putField m.status 9 1 1, flags := m.flags, taskid := m.taskid, asid := m.asid,
     tvec := c.tvec0, rngs := m.rngs, quota := m.quota, wdog := m.wdog, gto := c.gto0, ebcmin := c.ebcmin0,
     seg := { start := pc, image := { g := m.g, flags := m.flags, rngs := m.rngs }, began := s.commits },
     pend := m.pend, kill := m.kill, wdogDue := m.wdogDue, stops := m.stops, issued := m.issued, origin := m.origin, queue := m.queue,
     leaseTile := m.leaseTile, abLease := m.abLease, wbLease := m.wbLease, debt := m.debt, units := m.units, carry := m.carry } : Slot)

/-- A context that may not migrate (R231). -/
def Slot.settledHere (l : Slot) : Bool := l.vs || l.gang || (List.range 8).any (fun i => bit (l.qr i).toNat 0) || !l.b.isEmpty

/-- The tile of a stall with the most free slots, the lowest-numbered on a tie. -/
def State.roomiest (s : State) (ls : Nat) : Nat :=
  (tilesOf ls).foldl (fun r h => if (s.freeSlots r).length < (s.freeSlots h).length then h else r) (ls * 16)

/-- The migrant is sent, and the slot waits for its answer, holding the pc at which it goes on (R231). -/
def State.sendMigrant (s : State) (dest : Nat) : State :=
  let l := s.me
  let m : Message := {
    net := 0, dest := BitVec.ofNat 11 dest, pc := l.pc + 4, sender := BitVec.ofNat 11 (homeOf s.cur), task := l.taskid, pcls := l.pcls,
    asid := l.asid, fromSlot := s.cur, sentAt := s.steps, migrant := some (s.migrantOf l (l.pc + 4)) }
  ((s.countIssue s.cur).modTile (homeOf s.cur) (fun x => x.pushSend m)).modMe (fun q =>
    { q.waitAt .migrate with sent := true, reply := some (l.pc + 4) })

/-- MIGR (R231). -/
def execMigr (ra : BitVec 4) (s : State) : Outcome :=
  sequential s (fun t0 => t0.commitBefore.bind (fun t =>
    let l := t.me
    let a := l.gr ra
    match t.translate l.part l.asid.toNat a.toNat false with
    | .error c => .error (t.trapMe c a)
    | .ok (t, x) =>
      if x.ty == 1 && (t.windowEntry l.part a.toNat).isNone then .error (t.trapMe 0x21 a)
      else if l.settledHere then .error (t.trapMe 0x83 0)
      else
        let ps := nearStall x.pa
        if t.storage x.pa != .near || ps == t.stallAt t.cur || !(t.ownsArcade l.part (ps / 8)) then .ok t.retire
        else if t.sendFull (homeOf t.cur) 0 l.part then (if l.msg then .ok t.retire else .error (t.waitFor .completion))
        else .ok (t.sendMigrant (t.roomiest (t.logStall ps)))))

/-! SPAWN (R239). -/

/-- A task record breaks R239. -/
def badTaskRec (x : Nat) : Bool := decide (2 ≤ bits x 7 0) || bits x 63 8 != 0

/-- SPAWN: both checks come before the commit, then the status and, with status 0, the record (R239). -/
def execSpawn (rd ra rb : BitVec 4) (s : State) : Outcome :=
  sequential s (fun t0 =>
    let a := t0.me.gr ra
    if field a 0 6 != 0 then .error (t0.trapMe 0x20 a)
    else match t0.checkGlobal none t0.me .load a.toNat 64 with
    | .error c => .error (t0.trapMe c a)
    | .ok (t1, _) => t1.commitBefore.bind (fun t => match t.readRecord a 64 with
      | .error c => .error (t.trapMe c a)
      | .ok (u, x) =>
        let b := u.me.gr rb
        let q := u.queue (field b 0 16)
        let answer (v : State) (st : Word) : Except State State := .ok ((v.modMe (fun l => l.gw rd st)).retire)
        let at' := q.ring + 64 * (q.tail.toNat % q.qlen)
        if field b 16 48 != 0 || q.part != u.me.part || q.hostq || !q.en then answer u 2
        else if badTaskRec x then answer u 3
        else if q.qlen ≤ (q.tail - q.head).toNat then answer u 1
        else if u.writeWaits at' then .error (u.waitFor .completion)
        else answer ((u.commitDevice at' 64 x).modQueue (field b 0 16) (fun w =>
          { w with
            tail := w.tail + 1
            demands := fset 0 (q.tail.toNat % q.qlen) (match u.me.demand with | some d => d.toNat + 8 | none => 0) w.demands })) 0))

end Sys2Proof.Machine
end

