-- ==== Sys2Proof/Machine/Copy.lean ====
section
/-! DEFINITION. The copy engine (R240 to R249): the instructions of major 0x28, and the steps by which a channel moves a descriptor's
data and commits it. -/

namespace Sys2Proof.Machine

/-! Descriptors. -/

/-- A copy descriptor (R241 Tables 5 and 6). -/
structure CopyDesc where
  src : Word
  dst : Word
  len0 : Nat
  cnt1 : Nat
  sstr1 : Word
  dstr1 : Word
  shape : Word
  cword : Word
  expect : BitVec 32
  inj : Nat
  ssp : Nat
  dsp : Nat
  nd : Nat
  otag : Nat
  sum : BitVec 2
  cont : Bool
  chk : Bool
  retry : Nat
  wmg : Bool
  waitStep : Bool
  deriving DecidableEq, Repr

/-- A signed 48-bit stride as a word. -/
def stride48 (x : Nat) : Word := (BitVec.ofNat 48 x).signExtend 64

def CopyDesc.ofNat (x : Nat) : CopyDesc :=
  let c := bits x 383 352
  { src := BitVec.ofNat 64 x, dst := BitVec.ofNat 64 (bits x 127 64), len0 := bits x 159 128, cnt1 := bits x 191 160,
    sstr1 := stride48 (bits x 239 192), dstr1 := stride48 (bits x 287 240), shape := BitVec.ofNat 64 (bits x 351 288),
    cword := BitVec.ofNat 64 (bits x 447 384), expect := BitVec.ofNat 32 (bits x 479 448), inj := bits x 511 480,
    ssp := bits c 1 0, dsp := bits c 3 2, nd := bits c 8 4, otag := bits c 12 9, sum := BitVec.ofNat 2 (bits c 14 13), cont := bit c 15,
    chk := bit c 16, retry := bits c 19 17, wmg := bit c 20, waitStep := bit c 21 }

/-- Bytes of an output element of a CB source (R244). -/
def CopyDesc.esz (d : CopyDesc) : Nat := if d.otag ≤ 3 then 4 else 2

/-- Bytes of one 16-row block of output. -/
def CopyDesc.blockBytes (d : CopyDesc) : Nat := 64 * d.esz

/-- Entries of a shape record: count, source stride, destination stride (R242). -/
def shapeDims (x : Nat) : Nat → List (Nat × Word × Word)
  | 0 => []
  | n + 1 => (bits x 31 0, stride48 (bits x 79 32), stride48 (bits x 127 80)) :: shapeDims (x / 2 ^ 128) n

/-- Dimensions 0 and 1. -/
def CopyDesc.lowDims (d : CopyDesc) : List (Nat × Word × Word) :=
  (d.len0, 1, 1) :: (if 2 ≤ d.nd then [(d.cnt1, d.sstr1, d.dstr1)] else [])

/-- Bytes of a descriptor's data. -/
def dimBytes (ds : List (Nat × Word × Word)) : Nat := ds.foldl (fun p e => p * e.1) 1

/-- Address of byte `j` of a traversal, `i₀` fastest (R242). -/
def byteAddr (f : Word × Word → Word) (base : Word) : List (Nat × Word × Word) → Nat → Word
  | [], _ => base
  | (n, s) :: ds, j => byteAddr f (base + BitVec.ofNat 64 (j % n) * f s) ds (j / n)

/-- The rules of R241 and R244 that the 64 bytes alone break; `first` and `prev` are those of the command (R245). -/
def CopyDesc.bad (d : CopyDesc) (first node : Bool) (prev : BitVec 2) : Bool :=
  let cb := d.ssp == 3
  d.dsp == 3 || d.nd == 0 || decide (16 < d.nd) || d.len0 == 0 || (decide (2 ≤ d.nd) && d.cnt1 == 0) ||
  (decide (2 < d.nd) && d.shape.toNat % 16 != 0) || d.sum == 3 || d.cword.toNat % 8 != 0 || (d.cont && (first || d.sum != prev)) ||
  (d.wmg && (!cb || node)) ||
  (if cb then !(d.otag == 1 || d.otag == 3 || d.otag == 4 || d.otag == 5) || d.nd != 1 || field d.src 12 6 != 0 ||
      d.src.toNat % 16 != 0 || d.len0 % d.blockBytes != 0
   else d.otag != 0)

/-- The rules that its dimensions break: a count of 0, or a sum over a part of a word (R242, R245). -/
def CopyDesc.badDims (d : CopyDesc) (ds : List (Nat × Word × Word)) : Bool :=
  ds.any (fun e => e.1 == 0) || (d.sum == 1 && dimBytes ds % 4 != 0)

/-! Channels. -/

def Tile.chan (t : Tile) (c : Nat) : Channel := fget {} t.chans c
def Tile.modChan (t : Tile) (c : Nat) (f : Channel → Channel) : Tile := { t with chans := fmod {} c f t.chans }
def State.modChan (s : State) (home c : Nat) (f : Channel → Channel) : State := s.modTile home (fun t => t.modChan c f)

/-- The command in progress is replaced by what the step has made of it. -/
def State.setHead (s : State) (home c : Nat) (m : Command) : State :=
  s.modChan home c (fun ch => { ch with cmds := m :: ch.cmds.drop 1 })

/-- The accesses of a command: its partition, address space, privilege and task. -/
def Command.who (m : Command) : Slot :=
  { status := putField (statusOf m.part.toNat 0 false false false) 0 2 m.pl.toNat, asid := m.asid, taskid := m.task }

/-- A task ends with cause 0x2D, wherever it is (R296). -/
def State.loseTask (s : State) (task : Word) (home : Nat) (va : Word) : State :=
  match s.findSlot task home with
  | some k => s.endAt k 0x2D va
  | none => match s.findSaved task home with
    | some t => s.finishSaved (taskPart task) t 0x2D va
    | none => s.finishMailed task 0x2D va

/-- The command begins to end with a cause; what it has not committed is discarded (R243). A lost page ends its task too. -/
def failCommand (s : State) (m : Command) (home : Nat) (c : BitVec 8) (va : Word) : State × Command :=
  (if c = 0x2D then s.loseTask m.task home va else s, { m with status := c, writes := [], moved := false })

/-- Committed bytes read for a command: the checks of R87 for a load of `n` bytes, all ones from removed deep memory (R299). -/
def State.commandRead (s : State) (m : Command) (home : Nat) (a : Word) (n : Nat) : Except (BitVec 8) (State × Nat) :=
  match s.checkGlobal none m.who .load a.toNat n with
  | .error c => .error c
  | .ok (s1, x) =>
    let s2 := s1.countAccess x.pa (s1.physStall (stallOf home)) ((n + 31) / 32)
    if s2.deepGone x.pa then .ok (s2.deliverAC m.task home 0x2A a, 2 ^ (8 * n) - 1)
    else .ok (s2, s2.rd x.pa n)

/-- Records of 16 bytes read one after another, the first lowest. -/
def State.readShape (s : State) (m : Command) (home : Nat) (a : Word) : Nat → Except (BitVec 8 × Word) (State × Nat)
  | 0 => .ok (s, 0)
  | n + 1 => match s.commandRead m home a 16 with
    | .error c => .error (c, a)
    | .ok (s1, x) => (s1.readShape m home (a + 16) n).map (fun r => (r.1, x + 2 ^ 128 * r.2))

/-! Bytes. -/

/-- What the movement of one byte meets. -/
inductive ByteStep (α : Type) where
  | ok (s : State) (x : α)
  | fail (s : State) (c : BitVec 8) (va : Word)
  | hold (s : State)
  deriving Repr

/-- The watermark that gates a command: of the source slot, or of its issuing task; none holds the gate shut (R204, R249). -/
def State.watermark (s : State) (home : Nat) (ch : Channel) (m : Command) : Option Nat :=
  match ch.wm with
  | some i => let l := s.slot (home * 8 + i.toNat); if l.occupied then some l.cwm.toNat else none
  | none => (s.contextOf m.task home).map (fun l => l.cwm.toNat)

/-- The command's access, as a switch holds it (R323). -/
def Command.access (m : Command) (home : Nat) : HeldBy := .copy home m.task m.first m.idx

/-- A byte of a CB source: at the start of a block its gate, its tile and its marks, at the start of an element its rounding
(R244, R346). -/
def State.readCb (s : State) (m : Command) (home : Nat) (ch : Channel) (d : CopyDesc) : ByteStep (Command × Nat) :=
  let row := field d.src 0 12 + 16 * (m.pos / d.blockBytes)
  match tselHome home (field d.src 56 8) with
  | none => .fail s 0x21 d.src
  | some h =>
    if field d.src 18 38 != 0 || s.tileDead h || decide (4096 < row + 16) then .fail s 0x21 d.src
    else if s.heldUp (stallOf h) (m.access home) then .hold (s.hold (stallOf h) (m.access home))
    else if m.pos % d.blockBytes == 0 && d.wmg && (match s.watermark home ch m with | some w => decide (w ≤ row + 15) | none => true) then .hold s
    else match (if m.pos % d.blockBytes == 0 then (s.tile h).cbMarked row 16 else none) with
    | some a => .fail s 0xC0 (BitVec.ofNat 64 a)
    | none =>
      if m.pos % d.esz = 0 then
        let e := m.pos / d.esz % 64
        let r := roundTo d.otag m.mode .default m.gen ((s.tile h).entryNum (e % 4) (row + e / 4))
        .ok (s.creditNumeric m.task home r.flags) ({ m with elem := BitVec.ofNat 32 (r.bits / 256), gen := r.rng }, r.bits % 256)
      else .ok s ({ m with elem := m.elem >>> 8 }, m.elem.toNat % 256)

/-- The byte at the command's place is the first that it moves of its 32-byte line (R285). -/
def Command.newLine (m : Command) (d : CopyDesc) : Bool :=
  let at' (j : Nat) : Nat := (byteAddr (fun e => e.1) d.src m.dims j).toNat / 32
  m.pos == 0 || at' m.pos != at' (m.pos - 1)

/-- A byte read: from its own uncommitted writes, committed memory, a buffer or CB (R242, R243). -/
def State.readByte (s : State) (m : Command) (home : Nat) (ch : Channel) (d : CopyDesc) : ByteStep (Command × Nat) :=
  let a := byteAddr (fun e => e.1) d.src m.dims m.pos
  if d.ssp = 3 then s.readCb m home ch d
  else if d.ssp = 0 then
    match s.checkGlobal none { m.who with seg := { version := m.writes } } .load a.toNat 1 with
    | .error c => .fail s c a
    | .ok (s1, x) => match fget none m.writes a.toNat with
      | some b => .ok s1 (m, b.toNat)
      | none =>
        let s2 := if m.newLine d then s1.countAccess x.pa (s1.physStall (stallOf home)) 1 else s1
        if s2.deepGone x.pa then
          .ok (if m.newLine d then s2.deliverAC m.task home 0x2A a else s2) (m, 255)
        else .ok s2 (m, s2.rd x.pa 1)
  else match s.bufPlace home d.ssp a 1 with
    | none => .fail s 0x21 a
    | some (h, o) =>
      if s.heldUp (stallOf h) (m.access home) then .hold (s.hold (stallOf h) (m.access home))
      else match s.markedIn h d.ssp o 1 with
      | some w => .fail s 0xC0 (bufAddr a w)
      | none => .ok s (m, s.bufRead h d.ssp o 1)

/-- The checks of a byte written to global memory (R87, R243). No element check applies to a copy's bytes. -/
def State.checkCopyWrite (s : State) (m : Command) (a : Word) : Except (BitVec 8) State :=
  if a.toNat ≥ 2 ^ 52 then .error 0x21
  else match s.translate m.part.toNat m.asid.toNat a.toNat true with
  | .error c => .error c
  | .ok (s1, x) =>
    if x.ty == 1 && (s1.windowEntry m.part.toNat a.toNat).isNone then .error 0x21
    else if !x.wr || (x.priv && m.pl == 0) then .error 0x22
    else if x.ty == 2 then .error 0x28
    else .ok s1

/-- Destination of a byte: a SCHED command's offsets in AB and WB are taken from the lease (R304). -/
def Command.destAddr (m : Command) (d : CopyDesc) : Word :=
  let a := byteAddr (fun e => e.2) d.dst m.dims m.pos
  match m.leaseRel with
  | none => a
  | some (ab, wb) => if d.dsp = 1 then a + BitVec.ofNat 64 ab else if d.dsp = 2 then a + BitVec.ofNat 64 wb else a

/-- The part of a descriptor that has moved holds 2,048 lines, and this byte lies in another (R246). -/
def Command.partFull (m : Command) (a : Word) : Bool :=
  !(m.writes.any (fun e => e.1 / 32 == a.toNat / 32)) && decide (2048 ≤ (versionGranules m.writes).length)

/-- A byte written (R243, R246): to the uncommitted writes of the descriptor, or to a buffer at once. -/
def State.writeByte (s : State) (m : Command) (home : Nat) (d : CopyDesc) (b : Nat) : ByteStep Command :=
  let a := m.destAddr d
  if d.dsp = 0 then
    match s.checkCopyWrite m a with
    | .error c => .fail s c a
    | .ok s1 => .ok s1 { m with writes := fset none a.toNat (some (BitVec.ofNat 8 b)) m.writes }
  else match s.bufPlace home d.dsp a 1 with
    | none => .fail s 0x21 a
    | some (h, o) =>
      if s.heldUp (stallOf h) (m.access home) then .hold (s.hold (stallOf h) (m.access home)) else .ok (s.bufWrite h d.dsp o 1 b) m

/-! Checksums (R245). -/

/-- The running sum after byte `b` at position `pos`. -/
def sumByte (kind : BitVec 2) (pos : Nat) (x : BitVec 32) (b : Nat) : BitVec 32 :=
  if kind = 1 then x + BitVec.ofNat 32 (b * 2 ^ (8 * (pos % 4)))
  else if kind = 2 then crcByte (x ^^^ BitVec.ofNat 32 b) 8
  else x

/-- The checksum that a running sum stands for. -/
def sumValue (kind : BitVec 2) (x : BitVec 32) : BitVec 32 :=
  if kind = 1 then x else if kind = 2 then x ^^^ 0xFFFFFFFF#32 else 0

/-- Injection: one bit of the data is inverted on the first attempt of the check group that ends here (R245). -/
def injected (d : CopyDesc) (m : Command) (b : Nat) : Nat :=
  if bit d.inj 31 && fget 0 m.begins m.idx == 1 && bits d.inj 30 3 == m.pos then b ^^^ 2 ^ (d.inj % 8) else b

/-! COPY_DESCRIPTOR. -/

/-- Up to `n` bytes move, until the descriptor is done, a part is full, a gate is shut or an access fails. -/
def State.copyBytes (home : Nat) (ch : Channel) (d : CopyDesc) : Nat → State → Command → State × Command
  | 0, s, m => (s, { m with moved := true })
  | n + 1, s, m =>
    if d.dsp = 0 && m.partFull (m.destAddr d) then (s, { m with moved := true })
    else match s.readByte m home ch d with
    | .hold s1 => (s1, m)
    | .fail s1 c va => failCommand s1 m home c va
    | .ok s1 (m1, b0) =>
      let b := injected d m1 b0
      match s1.writeByte m1 home d b with
      | .hold s2 => (s2, m)
      | .fail s2 c va => failCommand s2 m1 home c va
      | .ok s2 m2 => State.copyBytes home ch d n s2 { m2 with pos := m2.pos + 1, sum := sumByte d.sum m2.pos m2.sum b }

/-- The descriptor in progress begins: its place in a check group, its sum, and its dimensions (R241, R242, R245). -/
def Command.begin' (m : Command) (d : CopyDesc) (x : Nat) (ds : List (Nat × Word × Word)) : Command :=
  { m with
    begun := true
    reached := none
    image := BitVec.ofNat 512 x
    dims := ds
    pos := 0
    moved := false
    writes := []
    groupStart := if d.cont then m.groupStart else m.idx
    begins := fmod 0 m.idx (fun n => n + 1) m.begins
    sum := if d.cont then m.sum else if d.sum = 2 then 0xFFFFFFFF else 0
    prevKind := d.sum }

/-- The dimensions of a descriptor with shape record `y` (R242). -/
def CopyDesc.allDims (d : CopyDesc) (y : Nat) : List (Nat × Word × Word) :=
  d.lowDims ++ (if 2 < d.nd then shapeDims y (d.nd - 2) else [])

/-- The channel reaches a descriptor: it and its shape record are read as committed memory and checked; the error is the command that fails
(R240 to R242). -/
def State.readDesc (s : State) (home : Nat) (m : Command) : Except (State × Command) (State × BitVec 512 × Nat) :=
  let a := m.first + BitVec.ofNat 64 (64 * m.idx)
  match s.commandRead m home a 64 with
  | .error e => .error (failCommand s m home e a)
  | .ok (s1, x) =>
    let d := CopyDesc.ofNat x
    let broken : State × Command := failCommand s1 (m.begin' d x []) home 0x2E a
    if d.bad (m.idx == 0) m.node.isSome m.prevKind then .error broken
    else match (if 2 < d.nd then s1.readShape m home d.shape (d.nd - 2) else .ok (s1, 0)) with
    | .error (e, v) => .error (failCommand s1 (m.begin' d x []) home e v)
    | .ok (s2, y) => if d.badDims (d.allDims y) then .error broken else .ok (s2, BitVec.ofNat 512 x, y)

/-- A descriptor begins once it has been reached and, with WAITSTEP, a step credit is there for it to take; what was read at that point is
what is performed (R240, R249). -/
def State.reach (s : State) (home c : Nat) (m : Command) : State × Command :=
  match (match m.reached with | some r => Except.ok (s, r) | none => s.readDesc home m) with
  | .error r => r
  | .ok (t, x, y) =>
    let d := CopyDesc.ofNat x.toNat
    if d.waitStep && ((t.tile home).chan c).credits == 0 then (t, { m with reached := some (x, y) })
    else
      (if d.waitStep then t.modChan home c (fun ch => { ch with credits := ch.credits - 1 }) else t, m.begin' d x.toNat (d.allDims y))

/-- The movement of the descriptor in progress. -/
def State.copyStep (s : State) (home c : Nat) (m : Command) : State × Command :=
  let r := if m.begun then (s, m) else s.reach home c m
  if r.2.status != 0 || !r.2.begun then r
  else
    let d := CopyDesc.ofNat r.2.image.toNat
    State.copyBytes home ((r.1.tile home).chan c) d (dimBytes r.2.dims - r.2.pos) r.1 r.2

/-- One energy unit for each 64 bytes that a command of a task moves, over its descriptors (R402). -/
def State.chargeCopy (s : State) (home : Nat) (m : Command) (n : Nat) : State :=
  if n = 0 || m.node.isSome then s else s.updateTask m.task home (fun l => { l with units := l.units + n })

/-- The command after it has moved on from position `pos`, with the bytes that make no whole unit yet. -/
def Command.moveOn (m : Command) (pos : Nat) : Command := { m with odd := (m.odd + (m.pos - pos)) % 64 }

/-- COPY_DESCRIPTOR (R240 to R246): a channel paused by a swap, ending, or with a part to commit moves nothing. -/
def execCopyDescriptor (tile : BitVec 11) (ch : BitVec 3) (s : State) : Outcome :=
  let home := tile.toNat
  let c := ch.toNat
  match ((s.tile home).chan c).cmds.head? with
  | none => .next s
  | some m =>
    if m.status != 0 || m.moved || s.midSwap (stallOf home) then .next s
    else
      let r := s.copyStep home c m
      .next (((r.1.letGo (m.access home)).setHead home c (r.2.moveOn m.pos)).chargeCopy home r.2 ((r.2.odd + (r.2.pos - m.pos)) / 64))

/-! Completion. -/

/-- A completion word (R247). -/
def completionWord (attempts : Nat) (status : BitVec 8) (sum : BitVec 32) : Nat :=
  sum.toNat + status.toNat * 2 ^ 32 + attempts % 256 * 2 ^ 40 + 2 ^ 56

/-- A committed write to a virtual address of the command must wait (R287, R417). -/
def State.commandWaits (s : State) (m : Command) (va : Nat) : Bool :=
  match s.walk m.part.toNat m.asid.toNat va with
  | .ok x => s.writeWaits x.pa
  | .error _ => false

/-- A completion word is written as a release, or refused with a cause (R247). -/
def State.putWord (s : State) (m : Command) (home : Nat) (a : Word) (v : Nat) : Except (BitVec 8) State :=
  match s.checkGlobal none m.who .store a.toNat 8 with
  | .error c => .error c
  | .ok (s1, x) =>
    let s2 := (s1.countAccess x.pa (s.physStall (stallOf home)) 1).commitAt m.part.toNat m.asid a.toNat x 8 v none
    if x.ty == 1 then
      .ok (s1.reflectAll { (if (s1.windowEntry m.part.toNat a.toNat).any (fun e => e.lb) then s2 else s1) with commits := s1.commits + 1 } m.task
        m.part.toNat home (wrV [] a.toNat 8 v)).endGroups
    else .ok (s2.noteRelease (s.physStall (stallOf home)) m.task x.pa)

/-- Address of the completion word of descriptor `j`, when it names one: as it was read when the channel reached it, or, of one never
reached, when it can be read. -/
def State.wordOf (s : State) (m : Command) (j : Nat) : Option Word :=
  let named (x : BitVec 512) : Option Word := let w := (CopyDesc.ofNat x.toNat).cword; if w = 0 then none else some w
  match (if j == m.idx then (if m.begun then some m.image else m.reached.map (fun r => r.1)) else none) with
  | some x => named x
  | none => match s.walk m.part.toNat m.asid.toNat (m.first.toNat + 64 * j) with
  | .error _ => none
  | .ok x => let w := BitVec.ofNat 64 (s.rd (x.pa + 48) 8); if w = 0 || s.poisoned x.pa 64 then none else some w

/-- Attempts made of the descriptor in progress, at most 8, and its checksum: open while the descriptor has been attempted and has not moved
all its data (notes/assumptions/63.md). -/
def State.wordState (s : State) (m : Command) : Nat × BitVec 32 :=
  let d := CopyDesc.ofNat m.image.toNat
  let n := fget 0 m.begins m.idx
  (Nat.min 8 n,
    if n = 0 || (m.begun && d.sum == 0) then 0
    else if m.begun && m.pos == dimBytes m.dims && m.pos != 0 then sumValue d.sum m.sum
    else (Config.openBits s.steps m.idx).setWidth 32)

/-- The completion words of a command that ends early: of the descriptor in progress and of those never reached (R247). -/
def State.endWords (s : State) (m : Command) (home : Nat) : State :=
  let w := s.wordState m
  (List.range (m.count - m.idx)).foldl (fun t i =>
    let (n, sm) := if i = 0 then w else (0, 0#32)
    match t.wordOf m (m.idx + i) with
    | none => t
    | some a => match t.putWord m home a (completionWord n m.status sm) with
      | .ok u => u
      | .error _ => t) s

/-- The command of a COPY node has ended: the node's status (R304). -/
def State.nodeEnded (s : State) (part : BitVec 4) (a : BitVec 16) (va : Word) (c : BitVec 8) : State :=
  { s with nodes := s.nodes.map (fun n =>
      if n.asid == a && n.va == va && n.part == part && n.state == .running && c != 0 then
        { n with failed := 1, cause := if n.cause = 0 then c else n.cause } else n) }

/-- The attached barrier detaches with the status, which is also credited (R247, R35). -/
def State.reportCommand (s : State) (m : Command) (home : Nat) : State :=
  let s1 := match m.barrier with
    | some b => s.updateTask m.task home (fun l => l.detach b.toNat m.status)
    | none => s
  match m.node with
  | some (a, v) => s1.nodeEnded m.part a v m.status
  | none => if m.status = 0 then s1 else s1.creditError m.task home m.status

/-- Some completion word of a command that ends early must wait. -/
def State.endWaits (s : State) (m : Command) : Bool :=
  m.status != 0 && (List.range (m.count - m.idx)).any (fun i =>
    match s.wordOf m (m.idx + i) with
    | some a => s.commandWaits m a.toNat
    | none => false)

/-- A command that is ending ends, unless its words must wait. -/
def State.endCommand (s : State) (home : Nat) (m : Command) : Option State :=
  if s.endWaits m then none else some ((if m.status = 0 then s else s.endWords m home).reportCommand m home)

/-- Every command of a channel that is ending ends; the others stay. -/
def State.endCommands (s : State) (home c : Nat) : State :=
  let r := ((s.tile home).chan c).cmds.foldl (fun (a : State × List Command) m =>
    if m.status = 0 then (a.1, a.2 ++ [m])
    else match a.1.endCommand home m with
      | some t => (t, a.2)
      | none => (a.1, a.2 ++ [m])) (s, [])
  r.1.modChan home c (fun ch => { ch with cmds := r.2 })

/-- The part that has moved commits as a segment that is never refused; it dooms the segments that touched it (R246), and each of its lines is
an access of its page (R285). -/
def State.commitPart (s : State) (m : Command) (home : Nat) : State :=
  if m.writes.isEmpty then s
  else
    let gs := versionGranules m.writes
    let seg : Segment := { version := m.writes, writes := gs.foldl (fun w g => fset false g true w) [] }
    let counted := gs.foldl (fun t g => match t.walk m.part.toNat m.asid.toNat (g * 32) with
      | .ok x => t.countAccess x.pa (s.physStall (stallOf home)) 1
      | .error _ => t) s
    counted.publish { m.who with seg := seg } home none

/-- The commit of the part, or the completion word, must wait. -/
def State.partWaits (s : State) (m : Command) : Bool :=
  (!m.writes.isEmpty && (versionGranules m.writes).any (fun g => s.commandWaits m (g * 32))) ||
  (let w := (CopyDesc.ofNat m.image.toNat).cword; w != 0 && s.commandWaits m w.toNat)

/-- The descriptor has completed: the sum is compared, the group retried, the word written, and the channel moves on (R245, R247). -/
def State.descriptorDone (s : State) (home c : Nat) (m : Command) : State × Command :=
  let d := CopyDesc.ofNat m.image.toNat
  let v := sumValue d.sum m.sum
  let next : Command := { m with idx := m.idx + 1, begun := false, pos := 0, dims := [], moved := false, writes := [] }
  if d.chk && d.sum != 0 && v != d.expect then
    if fget 0 m.retries m.idx < d.retry then
      (s, { next with idx := m.groupStart, retries := fmod 0 m.idx (fun n => n + 1) m.retries })
    else (s, { m with status := 0x2F, writes := [] })
  else
    let s1 := match (if d.sum != 0 then m.slot else none) with
      | some k => s.modChan home c (fun ch => { ch with sums := fset 0 k v ch.sums })
      | none => s
    if d.cword = 0 then (s1, next)
    else match s1.putWord m home d.cword (completionWord (Nat.min 8 (fget 0 m.begins m.idx)) 0 v) with
      | .ok s2 => (s2, next)
      | .error e => failCommand s1 next home e d.cword

/-- COPY_DESCRIPTOR_COMPLETE (R246, R247): the part that has moved commits; commands that are ending end. -/
def execCopyDescriptorComplete (tile : BitVec 11) (ch : BitVec 3) (s : State) : Outcome :=
  let home := tile.toNat
  let c := ch.toNat
  if s.midSwap (stallOf home) then .next s
  else match ((s.tile home).chan c).cmds.head? with
  | none => .next s
  | some m =>
    if m.status != 0 || !m.moved then .next (s.endCommands home c)
    else if s.partWaits m then .next s
    else
      let s1 := s.commitPart m home
      let m1 : Command := { m with writes := [], moved := false }
      if m1.pos < dimBytes m1.dims then .next (s1.setHead home c m1)
      else
        let r := s1.descriptorDone home c m1
        let s2 := r.1.setHead home c r.2
        if r.2.status = 0 && r.2.count ≤ r.2.idx then
          .next ((s2.modChan home c (fun x => { x with cmds := x.cmds.drop 1 })).reportCommand r.2 home)
        else .next (s2.endCommands home c)

/-! The instructions of major 0x28. -/

/-- Steps 1 and 3 of R87 alone, for a byte: mapped, under no forbidden second mapping (R275), and with a mapping entry on a transmit page.
The walk sets no accessed bit, since no access is made. -/
def State.checkMapped (s : State) (l : Slot) (va : Nat) : Except (BitVec 8) (State × Xlat) :=
  match s.translate l.part l.asid.toNat va false with
  | .error c => .error c
  | .ok (s1, x) => if x.ty == 1 && (s.windowEntry l.part va).isNone then .error 0x21 else .ok (s1, x)

/-- Parts of a run, each named by an address in it; the error is the first that fails. -/
def State.checkPages (s : State) (l : Slot) : List Nat → Except (BitVec 8 × Word) State
  | [] => .ok s
  | v :: vs => match s.checkMapped l v with
    | .error c => .error (c, BitVec.ofNat 64 v)
    | .ok (s1, _) => s1.checkPages l vs

/-- A run of `n` bytes from `a`, checked in the 4 KiB units in which a mapping entry covers addresses (R366). -/
def State.checkRun (s : State) (l : Slot) (a n : Nat) : Except (BitVec 8 × Word) State :=
  s.checkPages l ((List.range ((a + n - 1) / 0x1000 - a / 0x1000 + 1)).map (fun i => Nat.max a ((a / 0x1000 + i) * 0x1000)))

/-- CPY (R240). -/
def execCpy (ch : BitVec 3) (rd ra rb : BitVec 4) (att : BitVec 1) (bn : BitVec 3) (s : State) : Outcome :=
  sequential s (fun t0 => t0.commitBefore.bind (fun t =>
    let l := t.me
    let home := homeOf t.cur
    let a := l.gr ra
    let b := l.gr rb
    let bar := attachOf att bn
    if b = 0 || decide (4096 < b.toNat) then .error (t.trapMe 0x2E b)
    else if a.toNat % 64 != 0 then .error (t.trapMe 0x20 a)
    else match t.checkRun l a.toNat (64 * b.toNat) with
    | .error (c, v) => .error (t.trapMe c v)
    | .ok t =>
      if 4 ≤ ((t.tile home).chan ch.toNat).cmds.length then .error (t.waitFor .completion)
      else if l.barFull bar then .error (t.waitFor .completion)
      else
        let m : Command := {
          first := a, count := b.toNat, task := l.taskid, asid := l.asid, part := BitVec.ofNat 4 l.part, barrier := bar, mode := l.rm,
          gen := l.rngs, pl := BitVec.ofNat 2 l.pl, slot := some t.cur }
        let t1 := t.modChan home ch.toNat (fun x => { x with cmds := x.cmds ++ [m] })
        .ok ((t1.modMe (fun q =>
          { (q.attachTo bar).gw rd (a + BitVec.ofNat 64 (64 * b.toNat)) with rngs := if l.rm = 4 then rngNext l.rngs else l.rngs })).retire)))

/-- CPY.STEP (R249). -/
def execCpyStep (ch : BitVec 3) (ra : BitVec 4) (s : State) : Outcome :=
  sequential s (fun t => .ok ((t.modChan (homeOf t.cur) ch.toNat (fun x =>
    { x with credits := BitVec.ofNat 16 (Nat.min 0xFFFF (x.credits.toNat + field (t.me.gr ra) 0 16)) })).retire))

/-- CPY.WM (R249). -/
def execCpyWm (ch : BitVec 3) (ra : BitVec 4) (s : State) : Outcome :=
  sequential s (fun t =>
    let a := t.me.gr ra
    if a = 0 then .ok ((t.modChan (homeOf t.cur) ch.toNat (fun x => { x with wm := none })).retire)
    else if a.toNat / 8 = 32 then
      .ok ((t.modChan (homeOf t.cur) ch.toNat (fun x => { x with wm := some (BitVec.ofNat 3 a.toNat) })).retire)
    else .error (t.trapMe 0x68 a))

/-- CPY.SUM: of the commands that the slot issued on the channel (R249). -/
def execCpySum (ch : BitVec 3) (rd : BitVec 4) (s : State) : Outcome :=
  sequential s (fun t =>
    let x := (t.tile (homeOf t.cur)).chan ch.toNat
    if x.cmds.any (fun m => m.slot == some t.cur) then .error (t.waitFor .completion)
    else .ok ((t.modMe (fun l => l.gw rd ((fget 0 x.sums t.cur).setWidth 64))).retire))

/-- A command of a task is told to end with cause 0x2C (R249). -/
def Command.stopped (m : Command) (task : Word) : Command :=
  if m.task == task && m.status = 0 then { m with status := 0x2C, writes := [], moved := false } else m

/-- CPY.STOP: the commands of the task end with cause 0x2C and move nothing more, so the channel has stopped; a completion word whose write has
to wait is written by the channel when it can (R247, R249, R287). -/
def execCpyStop (ch : BitVec 3) (s : State) : Outcome :=
  sequential s (fun t =>
    let home := homeOf t.cur
    let c := ch.toNat
    let task := t.me.taskid
    .ok ((t.modChan home c (fun x => { x with
      credits := 0
      cmds := x.cmds.map (fun m => m.stopped task) })).endCommands home c).retire)

end Sys2Proof.Machine
end

