-- ==== Sys2Proof/Machine/System.lean ====
section
/-! DEFINITION. System registers (R31, R32, R36 to R40) and the instructions of majors 0x30 and 0x31 (R250 to R255). -/

namespace Sys2Proof.Machine

/-- An instruction's word, as EVAL of causes 0x01 to 0x05 holds it (R46). -/
def encodedWord (i : Instr) : Word := ((encode i).getD 0).setWidth 64

/-! The register table (R38 Table 9). -/

/-- Read level and write level of a register; no write level means read-only. None: no such register. -/
def sysLevels (n : Nat) : Option (Nat × Option Nat) :=
  match n with
  | 0x000 | 0x001 => some (0, some 0)
  | 0x002 | 0x003 | 0x004 | 0x005 | 0x006 | 0x007 => some (0, none)
  | 0x010 | 0x011 | 0x012 => some (1, some 1)
  | 0x013 => some (0, some 1)
  | 0x014 => some (1, some 1)
  | 0x015 => some (1, some 2)
  | 0x020 | 0x021 => some (0, none)
  | 0x022 => some (0, some 0)
  | 0x030 => some (0, some 3)
  | 0x031 | 0x032 | 0x033 => some (0, some 2)
  | 0x034 => some (0, none)
  | 0x035 => some (0, some 2)
  | 0x036 => some (0, some 0)
  | 0x040 => some (0, none)
  | 0x041 => some (0, some 0)
  | 0x042 => some (2, some 2)
  | 0x043 => some (0, some 2)
  | 0x044 => some (2, some 2)
  | 0x045 => some (2, none)
  | _ => none

/-- The registers of a slot. -/
def Slot.sysRead (l : Slot) (n : Nat) : Option Word :=
  match n with
  | 0x000 => some l.status
  | 0x001 => some l.flags
  | 0x002 => some l.taskid
  | 0x007 => some (l.asid.setWidth 64)
  | 0x010 => some l.epc
  | 0x011 => some (l.ecause.setWidth 64)
  | 0x012 => some l.eval
  | 0x013 => some (l.pidx.setWidth 64)
  | 0x014 => some l.estatus
  | 0x015 => some l.tvec
  | 0x022 => some (l.rngs.setWidth 64)
  | 0x032 => some (l.quota.setWidth 64)
  | 0x033 => some (l.wdog.setWidth 64)
  | 0x034 => some (l.gmask.setWidth 64)
  | 0x035 => some (l.gto.setWidth 64)
  | 0x036 => some (l.cwm.setWidth 64)
  | 0x041 => some (l.ebcmin.setWidth 64)
  | _ => none

/-- The registers of wider scope, as the slot with key `key` reaches them. -/
def State.sysShared (s : State) (key n : Nat) : Word :=
  let home := homeOf key
  let tile := s.physTile home
  match n with
  | 0x003 => BitVec.ofNat 64 home
  | 0x004 => BitVec.ofNat 64 tile
  | 0x005 => BitVec.ofNat 64 (tile / 16)
  | 0x006 => BitVec.ofNat 64 (arcadeOf home)
  | 0x020 => fget 0 s.cycles tile
  | 0x021 => s.time
  | 0x030 => (s.quad (quadOfArcade (arcadeOf home))).drth.setWidth 64
  | 0x031 => (s.arcade (arcadeOf home)).rotivl.setWidth 64
  | 0x040 => s.omuStatus (stallOf home)
  | 0x042 => (s.part (s.slot key).part).wmtb
  | 0x043 => (s.tile home).mqcap.setWidth 64
  | 0x044 => (s.part (s.slot key).part).peqHead.setWidth 64
  | _ => (s.part (s.slot key).part).peqTail.setWidth 64

/-- A system register as its slot reads it. -/
def State.sysValue (s : State) (key n : Nat) : Word := ((s.slot key).sysRead n).getD (s.sysShared key n)

/-- Bits of WMTB (R365) that are not reserved: the others read as zero (R8). -/
def wmtbMask : Word := 0x8000FFFFFFFFFFFF#64

/-- SRW to STATUS: RM, EDL and EWF; a reserved RM value leaves RM (R31). -/
def Slot.writeStatus (l : Slot) (v : Word) : Slot :=
  let a := if field v 2 3 ≤ 4 then l.setStatus 2 3 (field v 2 3) else l
  (a.setStatus 16 1 (field v 16 1)).setStatus 17 1 (field v 17 1)

/-- SRW to QUOTA: the task's own DEBT is applied (R342). -/
def Slot.writeQuota (l : Slot) (v : Word) : Slot :=
  let r := settleDebt (v.setWidth 48) l.debt
  { l with quota := r.1, debt := r.2 }

/-- SRW to a register of the slot. -/
def Slot.sysWrite (l : Slot) (n : Nat) (v : Word) : Slot :=
  match n with
  | 0x000 => l.writeStatus v
  | 0x001 => { l with flags := v &&& flagsMask }
  | 0x010 => { l with epc := v }
  | 0x011 => { l with ecause := v.setWidth 8 }
  | 0x012 => { l with eval := v }
  | 0x013 => { l with pidx := v.setWidth 32 }
  | 0x014 => { l with estatus := v &&& statusMask }
  | 0x015 => { l with tvec := v }
  | 0x022 => { l with rngs := if v.setWidth 32 = 0#32 then 1 else v.setWidth 32 }
  | 0x032 => l.writeQuota v
  | 0x033 => { l with wdog := v.setWidth 48 }
  | 0x035 => { l with gto := v.setWidth 32 }
  | 0x036 => { l with cwm := v.setWidth 16 }
  | 0x041 => { l with ebcmin := if decide (8 < field v 0 4) then 8 else v.setWidth 4 }
  | _ => l

/-- ROTIVL as stored (R39). -/
def clampRotivl (v : Word) : BitVec 14 := BitVec.ofNat 14 (Nat.max 50 (Nat.min 10000 (field v 0 14)))

/-- The first time of the form n × I + a × I / 16 after `t`, in whole nanoseconds (R321). -/
def tickAfter (a ivl t : Nat) : Nat :=
  let i := ivl * 1000
  let n := (16 * t + 16 * i - a * i) / (16 * i)
  (16 * n * i + a * i + 15) / 16

/-- TIME of the tick that is due in an arcade. -/
def State.tickDue (s : State) (a : Nat) : Nat := (s.arcade a).due.getD (tickAfter a (s.arcade a).rotivl.toNat 0)

/-- DRTH as it governs comparisons now: the latest write of at least 100 ns ago, the value at reset before the first (R38, R398). -/
def Quad.threshold (q : Quad) (now : Nat) : BitVec 8 :=
  match q.drths.find? (fun w => decide (w.1 ≤ now)) with
  | some w => w.2
  | none => 0x19

/-- The writes of DRTH that govern comparisons now or will: the later ones, and the latest that governs (R398). -/
def Quad.keepDrths (q : Quad) (now : Nat) : List (Nat × BitVec 8) :=
  q.drths.filter (fun w => decide (now < w.1)) ++ (q.drths.find? (fun w => decide (w.1 ≤ now))).toList

/-- SRW to a register of wider scope: the whole value is replaced (R39, R40). A tick already due stays due (R321). -/
def State.sysSharedWrite (s : State) (key n : Nat) (v : Word) : State :=
  let home := homeOf key
  let p := (s.slot key).part
  match n with
  | 0x030 => s.modQuad (quadOfArcade (arcadeOf home)) (fun q =>
      { q with
        drth := v.setWidth 8
        drths := (s.now + 100, v.setWidth 8) :: q.keepDrths s.now })
  | 0x031 => s.modArcade (arcadeOf home) (fun a =>
      { a with rotivl := clampRotivl v, due := some (s.tickDue (arcadeOf home)) })
  | 0x042 => s.modPart p (fun q => { q with wmtb := v &&& wmtbMask })
  | 0x043 => s.modTile home (fun t => { t with mqcap := BitVec.ofNat 16 (Nat.min 1024 (field v 0 16)) })
  | 0x044 => s.modPart p (fun q => { q with peqHead := v.setWidth 32 })
  | _ => s

/-- SRW at slot `key`. QUOTA that reaches 0 stops the task (R342). -/
def State.sysSet (s : State) (key n : Nat) (v : Word) : State :=
  let s1 := (s.modSlot key (fun l => l.sysWrite n v)).sysSharedWrite key n v
  if n = 0x032 && (s1.slot key).quota == 0 && ((s.slot key).quota != 0 || v.setWidth 48 != 0#48) then s1.requestStop key .quota else s1

/-! The instructions. -/

/-- SRR (R250, R37). -/
def execSrr (rd : BitVec 4) (sr : BitVec 12) (s : State) : Outcome :=
  match sysLevels sr.toNat with
  | none => .next (s.trapMe 0x01 (encodedWord (.srr rd sr)))
  | some (r, _) =>
    if s.me.pl < r then .next (s.trapMe 0x01 (encodedWord (.srr rd sr)))
    else sequential s (fun t => .ok ((t.modMe (fun l => l.gw rd (t.sysValue t.cur sr.toNat))).retire))

/-- SRW (R250, R37). -/
def execSrw (ra : BitVec 4) (sr : BitVec 12) (s : State) : Outcome :=
  match sysLevels sr.toNat with
  | some (_, some w) =>
    if s.me.pl < w then .next (s.trapMe 0x01 (encodedWord (.srw ra sr)))
    else sequential s (fun t => .ok (t.retire.sysSet t.cur sr.toNat (t.me.gr ra)))
  | _ => .next (s.trapMe 0x01 (encodedWord (.srw ra sr)))

/-- TRAP: the segment commits, then cause 0xE0 + n (R251). -/
def execTrap (n : BitVec 5) (s : State) : Outcome :=
  finish (s.commitBefore.map (fun t => t.trapMe (BitVec.ofNat 8 (0xE0 + n.toNat)) 0))

/-- ERET (R252). -/
def execEret (s : State) : Outcome := .next (if s.me.pl = 0 then s.trapMe 0x01 (encodedWord .eret) else s.returnTrap)

/-- BKPT: it halts the task when DBGCTL.BKH is 1, and traps otherwise (R253, R344). -/
def execBkpt (s : State) : Outcome :=
  if wbit (s.part s.me.part).dbgctl 0 then
    .next ((((s.countIssue s.cur).modMe (fun l => { l with pc := l.unitStart, hints := [] })).requestStop s.cur .halt).boundary s.cur)
  else .next (s.trapMe 0x0A 0)

/-- TIME (R254). -/
def execTime (rd : BitVec 4) (s : State) : Outcome := sequential s (fun t => .ok ((t.modMe (fun l => l.gw rd t.time)).retire))

/-- IDLE: the slot stands at pc + 4 and goes on when it is woken, with its PRIO grant if its run holds one (R56, R255). -/
def execIdle (s : State) : Outcome :=
  sequential s (fun t =>
    let p := t.me.hasHint 5
    .ok (t.retire.modMe (fun l => if l.phase == .ready then { l with phase := .waiting .idle, idleAt := t.now, prioRun := p } else l)))

end Sys2Proof.Machine
end

