-- ==== Sys2Proof/Machine/TaskEvents.lean ====
section
/-! DEFINITION. The steps that bring work to slots: messages and migrants (R227 to R232), the filling of freed slots (R315), gang
reservations (R316), and the ends of waits (R10, R111, R255). -/

namespace Sys2Proof.Machine

/-- Slot key of a tile and slot number. -/
def keyOf (tile : BitVec 11) (slot : BitVec 3) : Nat := tile.toNat * 8 + slot.toNat

/-! Messages in the networks. -/

/-- An earlier message of the same slot to the same tile waits in another send queue, left there by a rotation (R230, R322). -/
def State.sentBefore (s : State) (m : Message) : Bool :=
  s.tiles.any (fun t => (t.2.sendQ m.net).any (fun e => e.fromSlot == m.fromSlot && e.dest == m.dest && decide (e.sentAt < m.sentAt)))

/-- MESSAGE_INJECTION (R227): the oldest entry of a send queue enters its network, and its queue entry is freed. -/
def execMessageInjection (tile : BitVec 11) (net : BitVec 1) (s : State) : Outcome :=
  let home := tile.toNat
  match ((s.tile home).sendQ net).head? with
  | none => .next s
  | some m =>
    if s.midSwap (stallOf home) || s.sentBefore m then .next s
    else
      let s1 := s.modTile home (fun t =>
        if net = 0 then { t with sendReq := t.sendReq.drop 1 } else { t with sendRpy := t.sendRpy.drop 1 })
      .next { s1 with net := s1.net ++ [m] }

/-- An earlier message of the same slot to the same tile on the same network must be accepted first (R230). -/
def State.overtakes (s : State) (idx : Nat) (m : Message) : Bool :=
  (s.net.take idx).any (fun e => e.fromSlot == m.fromSlot && e.dest == m.dest && e.net == m.net)

def State.dropNet (s : State) (idx : Nat) : State := { s with net := s.net.eraseIdx idx }

/-- What an arrival meets at its tile (R228). -/
inductive Landing where
  | slot (key : Nat)
  | mailbox
  | refused
  deriving DecidableEq, Repr

/-- Rules 1 to 4 of R228; a tile of a dead stall refuses (R348). -/
def State.landing (s : State) (home : Nat) : Landing :=
  let t := s.tile home
  let room := decide (t.mailbox.length < t.mqcap.toNat) && !(s.mailboxLost home)
  if s.tileDead home then .refused
  else if !t.mailbox.isEmpty then (if room then .mailbox else .refused)
  else match (s.freeSlots home).head? with
    | some k => .slot k
    | none => if room then .mailbox else .refused

/-- The acceptance of a message detaches its barrier (R229). -/
def State.accepted (s : State) (m : Message) : State :=
  match m.barrier with
  | some b => s.updateTask m.task m.sender.toNat (fun l => l.detach b.toNat 0)
  | none => s

/-- g1 to g9 of a handler (R228). -/
def handlerArgs (m : Message) : List Word := (List.range 8).map (fun i => m.payload.getD i 0) ++ [m.sender.setWidth 64]

/-- A message's handler, or a migrant, starts in a slot, with an acquire of the delivery (R224, R228, R232). -/
def State.startMessage (s0 : State) (key : Nat) (m : Message) : State :=
  let s := s0.acquireAt key
  match m.migrant with
  | some c => s.setSlot key c
  | none =>
    let p := taskPart m.task
    let r := s.newTask p
    r.1.setSlot key (r.1.freshSlot p m.pcls m.asid r.2 m.pc (handlerArgs m) false true)

/-- A message lands (R228, R229). -/
def State.land (s : State) (m : Message) : State :=
  match s.landing m.dest.toNat with
  | .slot k => (s.startMessage k m).accepted m
  | .mailbox => (s.modTile m.dest.toNat (fun t => { t with mailbox := t.mailbox ++ [m] })).accepted m
  | .refused => { s with refusals := s.refusals ++ [m] }

/-- A message, as a switch holds it (R323). -/
def Message.held (m : Message) : HeldBy := .message m.fromSlot m.sentAt

/-- An entry of the networks that may arrive now: in order (R230). -/
def State.arriving (s : State) (idx : Nat) (migrant : Bool) : Option Message :=
  match s.net[idx]? with
  | none => none
  | some m => if m.migrant.isSome != migrant || s.overtakes idx m then none else some m

/-- One that lands now: it does not at a stall that is being swapped, nor before what that stall's switch held (R28, R323). -/
def State.arrives (s : State) (idx : Nat) (migrant : Bool) : Option Message :=
  match s.arriving idx migrant with
  | none => none
  | some m => if s.heldUp (stallOf m.dest.toNat) m.held then none else some m

/-- One that arrives at a stall mid-swap waits at its switch (R323). -/
def State.holdArrival (s : State) (idx : Nat) (migrant : Bool) : State :=
  match s.arriving idx migrant with
  | none => s
  | some m => s.hold (stallOf m.dest.toNat) m.held

/-- MESSAGE_ARRIVAL (R228). -/
def execMessageArrival (idx : Nat) (s : State) : Outcome :=
  match s.arrives idx false with
  | none => .next (s.holdArrival idx false)
  | some m => .next (((s.letGo m.held).dropNet idx).land m)

/-- MIGRANT_ARRIVAL (R232): one whose task has ended at its old slot is dropped (R348). The context comes as it stands at its old slot, which from then on only waits to be freed. -/
def execMigrantArrival (idx : Nat) (s : State) : Outcome :=
  match s.arrives idx true with
  | none => .next (s.holdArrival idx true)
  | some m =>
    let s1 := (s.letGo m.held).dropNet idx
    let old := s1.slot m.fromSlot
    if !(old.phase == .waiting .migrate && old.taskid == m.task) then .next s1
    else if s1.landing m.dest.toNat = .refused then .next { s1 with refusals := s1.refusals ++ [m] }
    else
      let c := s1.migrantOf old m.pc
      .next ((s1.setSlot m.fromSlot { old.vacated with phase := .waiting .migrate }).land { m with migrant := some c })

/-- MIGRANT_ACCEPTANCE (R231): the old slot of an accepted migrant becomes free. -/
def execMigrantAcceptance (tile : BitVec 11) (slot : BitVec 3) (s : State) : Outcome :=
  let k := keyOf tile slot
  let l := s.slot k
  if l.phase == .waiting .migrate && l.taskid == 0 && !(s.midSwap (stallOf tile.toNat)) then .next (s.setSlot k l.vacated) else .next s

/-- A refused migrant goes on at its old slot, with no trap (R231). -/
def State.migrantRefused (s : State) (m : Message) : State :=
  s.modSlot m.fromSlot (fun l => if l.phase == .waiting .migrate && l.taskid == m.task then l.retireAt m.pc else l)

/-- A refused message: a barrier detaches with 0x81, which is credited too; without one it is a trap with the cookie (R229). -/
def State.messageRefused (s : State) (m : Message) : State :=
  let home := m.sender.toNat
  match m.barrier with
  | some b => (s.updateTask m.task home (fun l => l.detach b.toNat 0x81)).creditError m.task home 0x81
  | none => s.deliver m.task home 0x81 m.cookie

/-- MESSAGE_REFUSAL (R229): the refusal reaches the sender, once its stall is not mid-swap. -/
def execMessageRefusal (idx : Nat) (s : State) : Outcome :=
  match s.refusals[idx]? with
  | none => .next s
  | some m =>
    if s.midSwap (stallOf m.sender.toNat) then .next s
    else
      let s1 : State := { s with refusals := s.refusals.eraseIdx idx }
      .next (if m.migrant.isSome then s1.migrantRefused m else s1.messageRefused m)

/-! Freed slots (R315). -/

/-- One record comes before another: a higher class, then a pre-empted task before a new one or one that has yielded (R238, R315). -/
def Record.before (a b : Record) : Bool :=
  let saved (r : Record) : Bool := !r.yielded && (match r.kind with | .saved _ => true | _ => false)
  decide (b.pcls.toNat < a.pcls.toNat) || (a.pcls == b.pcls && saved a && !(saved b))

/-- Index of the best record, the oldest among equals. -/
def bestIndex (ok : Record → Bool) (rs : List Record) : Option Nat :=
  ((List.zip (List.range rs.length) rs).foldl (fun (b : Option (Nat × Record)) e =>
    if ok e.2 then (match b with
      | none => some e
      | some x => if e.2.before x.2 then some e else b)
    else b) none).map (fun e => e.1)

/-- Arguments of a record with the lease offsets in their places: g6 and g7 of a worker (R234). -/
def RecordKind.start (k : RecordKind) (off : Nat × Nat) : Word × List Word :=
  match k with
  | .task e as => (e, as)
  | .worker e as _ => (e, (as.set 5 (BitVec.ofNat 64 off.1)).set 6 (BitVec.ofNat 64 off.2))
  | .saved _ | .cont _ => (0, [])

/-- The switched-out task of an area. -/
def State.savedAt (s : State) (p area : Nat) : Option Saved := ((s.part p).saved).find? (fun t => t.area == area)

/-- A record starts in a slot: a restore, or a new task with its leases (R315, R337). -/
def State.startRecord (s : State) (key : Nat) (r : Record) : State :=
  match r.kind with
  | .saved a => (match s.savedAt r.part.toNat a with
      | some t => s.restoreSlot key r.part.toNat t
      | none => s)
  | .cont id => s.startCont key id
  | k =>
    let off := (s.leaseRoom [homeOf key] r.lab r.lwb).getD (0, 0)
    s.startIn [key] r (k.start off).1 (k.start off).2 off

/-- A freed slot is filled: the record that has pre-empted its task (R314), with a slot kept for a continuation left alone until its credit
comes (R235), else a mailbox entry, a reservation, or a record of the run queue
(R315). -/
def State.fillSlot (s : State) (key : Nat) : State :=
  let home := homeOf key
  let t := s.tile home
  match (s.slot key).next with
  | some r =>
    if (match r.kind with | .cont _ => true | _ => false) then s
    else if s.startable home r then (s.modSlot key (fun l => { l with next := none })).startRecord key r else s.returnNext key
  | none => match t.mailbox with
  | m :: rest => (s.modTile home (fun u => { u with mailbox := rest })).startMessage key m
  | [] =>
    if s.owesSlot home then s.modSlot key (fun l => { l with held := true })
    else match bestIndex (s.startable home) t.runq with
    | none => s
    | some i => match t.runq[i]? with
      | none => s
      | some r => (s.modTile home (fun u => { u with runq := u.runq.eraseIdx i })).startRecord key r

/-- SLOT_FILL (R315). -/
def execSlotFill (tile : BitVec 11) (slot : BitVec 3) (s : State) : Outcome :=
  let k := keyOf tile slot
  let l := s.slot k
  if (l.isFree || (l.phase == .free && l.next.isSome)) && !(s.stallDeadOrMoving (stallOf tile.toNat)) then .next ((s.fillSlot k).takeDueCont tile.toNat)
  else .next s

/-! Gang reservations (R316). -/

/-- Held slots of a stall, one to a tile. -/
def State.heldSlots (s : State) (ls : Nat) : List Nat := (slotsOfStall ls).filter (fun k => (s.slot k).held)

/-- The best gang record among the run queues of a stall: its tile and index. -/
def State.queuedGang (s : State) (ls : Nat) : Option (Nat × Nat × Record) :=
  (tilesOf ls).foldl (fun b h =>
    match bestIndex (fun r => r.gang) (s.tile h).runq with
    | none => b
    | some i => match (s.tile h).runq[i]? with
      | none => b
      | some r => match b with
        | none => some (h, i, r)
        | some x => if r.before x.2.2 then some (h, i, r) else b) none

/-- The held slots become free (R316). -/
def State.dropReservation (s : State) (ls : Nat) : State :=
  ((s.heldSlots ls).foldl (fun t k => t.modSlot k (fun l => { l with held := false })) s).modLStall ls (fun l => { l with reserved := none })

/-- All members of a switched-out gang come back into the held slots, with their banks (R338). An area that cannot be read ends
the gang with cause 0xC0 (R337). -/
def State.restoreGang (s : State) (ls p area : Nat) (keys : List Nat) : State :=
  match s.savedAt p area with
  | none => s
  | some t =>
    let ms := s.savedMembers p t.ctx.taskid
    if ms.any (fun m => s.poisoned m.area 0x2000 || s.isLost m.area) then ms.foldl (fun u m => u.finishSaved p m 0xC0 0) s
    else if ms.any s.overdrawn then ms.foldl (fun u m => (u.settleArea m).1.keepOut m) s
    else
      let s1 := match t.ext with | some e => s.readExt e ls | none => s
      ms.foldl (fun u m => match keys.find? (fun k => homeOf k % 16 == m.home.toNat % 16) with
        | some k => u.restoreSlot k p m
        | none => u) s1

/-- The gang of a reservation starts in the 16 held slots (R316). -/
def State.startGang (s : State) (ls : Nat) (r : Record) : State :=
  let keys := s.heldSlots ls
  let free := s.dropReservation ls
  match r.kind with
  | .saved a => free.restoreGang ls r.part.toNat a keys
  | k => match s.leaseRoom (tilesOf ls) r.lab r.lwb with
    | none => s
    | some off => free.startIn keys r (k.start off).1 (k.start off).2 off

/-- A record of a task that was switched out: a withheld stall takes its own ones back (R313). -/
def Record.resumes (r : Record) : Bool := match r.kind with | .saved _ => true | _ => false

/-- GANG_START (R316): a queued gang record takes the free reservation of its stall, unless that is withheld and the gang new (R313); a
reservation with 16 slots starts. -/
def execGangStart (stall : BitVec 7) (s : State) : Outcome :=
  let ls := stall.toNat
  if s.stallDeadOrMoving ls then .next s
  else match (s.lstall ls).reserved with
  | some r => .next (if (s.heldSlots ls).length = 16 then s.startGang ls r else s)
  | none => match s.queuedGang ls with
    | none => .next s
    | some (h, i, r) =>
      if (s.pstall (s.physStall ls)).omuRetired || (s.withheld ls && !r.resumes) then .next s
      else .next ((s.modTile h (fun u => { u with runq := u.runq.eraseIdx i })).modLStall ls (fun l => { l with reserved := some r }))

/-! Ends of waits. -/

/-- A waiting slot goes on, unless its stall is mid-swap. -/
def State.wakeIf (s : State) (key : Nat) (ok : Slot → Bool) : State :=
  if ok (s.slot key) && !(s.midSwap (stallOf (homeOf key))) then s.modSlot key Slot.wake else s

/-- WAITA_WAKE (R111): the slot reads again. -/
def execWaitaWake (tile : BitVec 11) (slot : BitVec 3) (s : State) : Outcome :=
  .next (s.wakeIf (keyOf tile slot) (fun l => match l.phase with | .waiting (.address _) => true | _ => false))

/-- WAIT_COMPLETION (R10): the instruction executes again, and waits again if what it needs is not there. -/
def execWaitCompletion (tile : BitVec 11) (slot : BitVec 3) (s : State) : Outcome :=
  .next (s.wakeIf (keyOf tile slot) (fun l => l.phase == .waiting .completion))

/-- IDLE_END (R255): 10 µs after IDLE began. -/
def execIdleEnd (tile : BitVec 11) (slot : BitVec 3) (s : State) : Outcome :=
  .next (s.wakeIf (keyOf tile slot) (fun l => l.phase == .waiting .idle && decide (l.idleAt + 10000 ≤ s.now)))

end Sys2Proof.Machine
end

