-- ==== Sys2Proof/Machine/MemEvents.lean ====
section
/-! DEFINITION. The steps of the memories: forwarded replies (R94), bank operations (R101 to R104), sealed commits (R114), gathers
(R294), scout accesses (R283), placement (R285), page exchanges (R286, R287) and refresh (R291). -/

namespace Sys2Proof.Machine

/-! FORWARDED_REPLY. -/

/-- The lanes still wanted that lie in granule `g`. -/
def PendingLoad.lanesAt (p : PendingLoad) (g : Nat) : List Nat :=
  (List.range 32).filter (fun i => (p.want &&& ~~~p.done).getLsbD i && (fget 0 p.addrs i).toNat / 32 == g)

/-- The reply of one granule completes its lanes: values, or a fault, and whether removed memory answered (R91, R166). It leaves one entry in
the log. -/
def State.takeReply (s : State) (l : Slot) (p : PendingLoad) (g : Nat) : PendingLoad × Option Word :=
  let r := (p.lanesAt g).foldl (fun (a : PendingLoad × List Nat × List (Nat × BitVec 8) × Option Word) i =>
    let va := fget 0 p.addrs i
    match s.reply l va.toNat p.lane with
    | .error c => (a.1, a.2.1, a.2.2.1 ++ [(i, c)], a.2.2.2)
    | .ok (v, gone) => (a.1.put i v, a.2.1 ++ [i], a.2.2.1, if gone then some va else a.2.2.2)) (p, [], [], none)
  let q := r.1.note (laneSet r.2.1) 0 0
  (match r.2.2.1 with
   | [] => q
   | (i, c) :: rest => q.note (laneSet (i :: rest.map (fun e => e.1))) c (fget 0 p.addrs i), r.2.2.2)

/-- The replies for some lanes, each of a 32-byte granule, which fills its line in the stall cache of `ps` (R281, R284). -/
def State.takeReplies (s : State) (ps : Nat) (l : Slot) (p : PendingLoad) (lanes : BitVec 32) : State × PendingLoad × Option Word :=
  let gs := ((List.range 32).filter (fun i => (lanes &&& p.want &&& ~~~p.done).getLsbD i)).map (fun i => (fget 0 p.addrs i).toNat / 32)
  gs.foldl (fun (a : State × PendingLoad × Option Word) g =>
    let r := a.1.takeReply l a.2.1 g
    let t := match a.1.walk l.part l.asid.toNat (g * 32) with
      | .ok x => if a.1.deepGone x.pa || a.1.poisoned x.pa 32 then a.1
        else a.1.fillCache ps l.part l.asid.toNat g (if p.policy = 2 then 1 else p.policy) (pageBits x.leaf)
      | .error _ => a.1
    (t, r.1, match r.2 with | some va => some va | none => a.2.2)) (s, p, none)

/-- The load of a slot that the next replies are for: one that still wants some, among those that traps have interrupted too. -/
def State.replyTo (s : State) (l : Slot) : Option Nat :=
  let ps := l.load.toList ++ l.kept
  let open' := (List.range ps.length).filter (fun i => !((ps[i]?).any PendingLoad.complete))
  open'[(Config.openBits s.steps 77).toNat % open'.length]?

/-- The loads of a slot, the one that waits first, and the slot with load `i` of them replaced. -/
def Slot.loadAt (l : Slot) (i : Nat) : Option PendingLoad := (l.load.toList ++ l.kept)[i]?
def Slot.setLoad (l : Slot) (i : Nat) (p : PendingLoad) : Slot :=
  if i = 0 && l.load.isSome then { l with load := some p } else { l with kept := l.kept.set (i - l.load.toList.length) p }

/-- Replies for a resident slot: the load is delivered once all have come (R94, R172). -/
def State.replyLive (s : State) (key : Nat) (lanes : BitVec 32) : State :=
  let l := s.slot key
  match s.replyTo l with
  | none => s
  | some i => match l.loadAt i with
    | none => s
    | some p =>
      let r := s.takeReplies (s.stallAt key) l p lanes
      let s1 := r.1.modSlot key (fun m => m.setLoad i r.2.1)
      let s2 := match r.2.2 with
        | some va => s1.deliverAC l.taskid (homeOf key) 0x2A va
        | none => s1
      if (s2.slot key).phase == .waiting .load then s2.deliverAt key else s2

/-- Replies for a switched-out task: the image of its area, then log entries (R336). -/
def State.replySaved (s : State) (t : Saved) (lanes : BitVec 32) : State :=
  match s.replyTo t.ctx with
  | none => s
  | some i => match t.ctx.loadAt i with
    | none => s
    | some p =>
      let r := s.takeReplies (s.physStall (stallOf t.home.toNat)) t.ctx p lanes
      let q := r.2.1
      let s1 := if i = 0 && t.ctx.load.isSome then
          (q.log.drop p.log.length).foldl (fun u e => (u.logAppend t.area (q.entry e)).1) (r.1.rawWrite (t.area + 0x1080) 128 q.image.toNat)
        else r.1
      let s2 := s1.modSaved (taskPart t.ctx.taskid) t.area (fun u => { u with ctx := u.ctx.setLoad i q })
      match r.2.2 with
      | some va => s2.deliverAC t.ctx.taskid t.home.toNat 0x2A va
      | none => s2

/-- FORWARDED_REPLY (R94, R172, R336). A reply for a stall mid-swap waits (R323). -/
def execForwardedReply (task : BitVec 64) (tile : BitVec 11) (lanes : BitVec 32) (s : State) : Outcome :=
  let home := tile.toNat
  match s.findSlot task home with
  | some k => .next (if s.midSwap (stallOf (homeOf k)) then s else s.replyLive k lanes)
  | none => match s.findSaved task home with
    | some t => .next (s.replySaved t lanes)
    | none => .next s

/-! BANK_OP_APPLY. -/

/-- A committed write of a task dooms the segments of every other task that touched the granule (R101). -/
def State.doomOthers (s : State) (part : Nat) (asid : BitVec 16) (task : Word) (g : Nat) : State :=
  { s with
    slots := s.slots.map (fun e =>
      if e.2.occupied && e.2.asid == asid && e.2.part == part && e.2.taskid != task then (e.1, { e.2 with seg := e.2.seg.doomBy asid g }) else e)
    parts := s.parts.map (fun p => { p with saved := p.saved.map (fun t =>
      if t.ctx.asid == asid && t.ctx.part == part && t.ctx.taskid != task then { t with ctx := { t.ctx with seg := t.ctx.seg.doomBy asid g } } else t) }) }

/-- The value an operation stores, if any, and whether it saturated (R102 to R104). -/
def BankOp.result (o : BankOp) (old : Nat) : Option Nat × Bool :=
  let n := 8 * o.size
  if o.op ≤ 7 then (some (redOp o.op n old o.b.toNat), false)
  else if o.op = 8 then (if old = o.expect.toNat % 2 ^ n then some (o.b.toNat % 2 ^ n) else none, false)
  else let r := sacOp n old o.b.toNat; (some r.1, r.2)

/-- The old value reaches the slot that waits for it: rd is written, and the instruction completes before anything else happens at the slot,
so that it is never applied again (R103, R104). -/
def State.giveOld (s : State) (o : BankOp) (v : Word) : State :=
  match (s.slot o.slot).phase with
  | .waiting (.bankValue rd a) =>
    if o.wants && (s.slot o.slot).taskid == o.task then (s.countIssue o.slot).modSlot o.slot (fun l => (l.gw rd v).retireAt (a + 4)) else s
  | _ => s

/-- The dirty committed copy of the granule is written back and every cached copy invalidated; an operation that writes nothing counts as a
committed write too (R101). -/
def State.recall (s : State) (pa : Nat) : State := { ((s.uncachePhys (pa / 32)).writeBack (pa / 32)) with commits := s.commits + 1 }

/-- An operation is applied at the frame that its page's entry names (R101, R287, R299). -/
def State.applyOp (s : State) (o : BankOp) : State :=
  let home := homeOf o.slot
  let x := match s.walk o.part.toNat o.asid.toNat o.va.toNat with
    | .ok x => some x
    | .error _ => none
  let pa := match x with | some y => y.pa | none => o.pa
  if s.deepGone pa then (s.deliverAC o.task home 0x2A o.va).giveOld o allOnes
  else if s.isLost pa then s.loseTask o.task home o.va
  else
    let old := s.rd pa o.size
    let r := o.result old
    let s1 := if s.poisoned pa o.size then s.creditError o.task home 0x29 else s
    let s2 := match r.1 with
      | some v => (match x with | some y => s1.setDirtyBit y | none => s1).commitBytes pa o.size v
      | none => s1.recall pa
    let s2 := s2.doomOthers o.part.toNat o.asid o.task (o.va.toNat / 32)
    ((if r.2 then s2.creditNumeric o.task home fSA else s2)).giveOld o (BitVec.ofNat 64 old)

/-- BANK_OP_APPLY (R101): the oldest operation of a unit, unless its page is being exchanged or a checkpoint runs. -/
def execBankOpApply (unit : BitVec 14) (s : State) : Outcome :=
  match fget [] s.bankops unit.toNat with
  | [] => .next s
  | o :: rest =>
    if s.writeWaits o.pa then .next s
    else .next (({ s with bankops := fset [] unit.toNat rest s.bankops } : State).applyOp o)

/-! SEALED_COMMIT. -/

/-- The slot takes note of its sealed commit: made, or refused because the segment is doomed (R114). -/
def Slot.unseal (l : Slot) (made : Bool) : Slot :=
  let t : Slot := { l with seg := { l.seg with sealedCommit := false, release := none, opened := false } }
  if made then { t with committed := true } else t

/-- SEALED_COMMIT (R114), of a resident slot or of a switched-out task. -/
def execSealedCommit (task : BitVec 64) (tile : BitVec 11) (s : State) : Outcome :=
  let home := tile.toNat
  match s.findSlot task home with
  | some k =>
    let l := s.slot k
    if !l.seg.sealedCommit || s.commitBlocked l (homeOf k) then .next s
    else if l.doomed then .next (s.modSlot k (fun m => (m.unseal false).wake))
    else .next (((s.commitSlot k).releaseSealed l (homeOf k)).modSlot k (fun m => (m.unseal true).wake))
  | none => match s.findSaved task home with
    | none => .next s
    | some t =>
      if !t.ctx.seg.sealedCommit || s.commitBlocked t.ctx t.home.toNat then .next s
      else
        let made := !t.ctx.doomed
        let s1 := if made then (s.publish t.ctx t.home.toNat none).releaseSealed t.ctx t.home.toNat else s
        if t.ctx.kill then .next (s1.finishSaved (taskPart task) t 0x86 0)
        else
          let s2 := s1.rawWrite (t.area + 8) 8 (s1.rd (t.area + 8) 8 - (if bit (s1.rd (t.area + 8) 8) 12 then 2 ^ 12 else 0))
          .next (s2.modSaved (taskPart task) t.area (fun u =>
            { u with ctx := (if made then (u.ctx.newSegment u.ctx.pc s1.commits) else u.ctx).unseal made }))

/-! GATHER_COMPLETE. -/

/-- GATHER_COMPLETE (R107, R108, R294): the engine performs the elements of the slot's GTH from PIDX, all of them or up to a stop point; with
the last, GTH completes. -/
def execGatherComplete (tile : BitVec 11) (slot : BitVec 3) (s : State) : Outcome :=
  let k := keyOf tile slot
  match (s.slot k).gathering with
  | none => .next s
  | some g =>
    if s.midSwap (stallOf tile.toNat) then .next s
    else .next { ({ s with cur := k } : State).gatherPerform g s.cut with cur := s.cur }

/-! SCOUT_ACCESS. -/

/-- A traversal of `len` contiguous bytes over further dimensions reads a byte of granule `g` (R242). -/
def copyCovers (g len : Nat) : List (Nat × Word × Word) → Word → Bool
  | [], b => decide (b.toNat / 32 ≤ g) && decide (g ≤ (b.toNat + len - 1) / 32)
  | (n, st, _) :: ds, b => (List.range n).any (fun i => copyCovers g len ds (b + BitVec.ofNat 64 i * st))

/-- The source of the copy descriptor in progress, if it is global memory, holds a granule. -/
def Command.reads (m : Command) (part asid g : Nat) : Bool :=
  let d := CopyDesc.ofNat m.image.toNat
  m.begun && m.part.toNat == part && m.asid.toNat == asid && d.ssp == 0 && copyCovers g d.len0 (m.dims.drop 1) d.src

/-- The index list or the table of a gather in progress holds a granule. -/
def Gather.reads (d : Gather) (g : Nat) : Bool :=
  let within (a : Word) (n : Nat) : Bool := decide (a.toNat / 32 ≤ g) && decide (g * 32 < a.toNat + n)
  within d.ibase (d.count * 2 ^ (d.iw + 1)) || within d.tbase (d.tlen * 2 ^ d.elog)

/-- A run of two misses or more leads within 4 superblocks to a superblock. -/
def MissRun.leads (r : MissRun) (part asid block : Nat) : Bool :=
  r.part == part && r.asid == asid && decide (2 ≤ r.length) && decide (r.block < block) && decide (block ≤ r.block + 4)

/-- The privilege at which a stall cache has a scout access to make at `va`: that of a run of misses which it continues, or of a copy or a
gather of the stall whose descriptor in progress holds it; none when it has no such access (R283; notes/assumptions/76.md). -/
def State.scoutFor (s : State) (ps part asid va : Nat) : Option Nat :=
  let ls := s.logStall ps
  match (fget [] s.misses ps).find? (fun r => r.leads part asid (va / 128)) with
  | some r => some r.pl
  | none => match (tilesOf ls).findSome? (fun h => (s.tile h).chans.findSome? (fun c => (c.2.cmds.head?).bind (fun m =>
      if m.reads part asid (va / 32) then some m.pl.toNat else none))) with
    | some p => some p
    | none => (slotsOfStall ls).findSome? (fun k => let l := s.slot k; (l.gathering).bind (fun g =>
        if l.part == part && l.asid.toNat == asid && g.desc.reads (va / 32) then some l.pl else none))

/-- SCOUT_ACCESS (R275, R283): it fills the stall cache; one that finds its page unmapped, forbidden, under a forbidden second mapping, lost or
poisoned is counted. -/
def execScoutAccess (pstall : BitVec 7) (asid : BitVec 16) (va : BitVec 64) (s : State) : Outcome :=
  let ps := pstall.toNat
  let p := s.partOfArcade (ps / 8)
  match s.scoutFor ps p asid.toNat va.toNat with
  | none => .next s
  | some pl => match s.translate p asid.toNat va.toNat false with
  | .error _ => .next (s.dropPrefetch ps)
  | .ok (t, x) =>
    .next (if !x.rdok || (x.priv && pl == 0) || s.poisoned (x.pa / 32 * 32) 32 || s.deepGone x.pa then t.dropPrefetch ps
      else if (t.cacheBits ps p asid.toNat (va.toNat / 32)).isSome then t
      else t.fillCache ps p asid.toNat (va.toNat / 32) 0 (pageBits x.leaf))

/-! Placement. -/

/-- PLACEMENT_HALVING (R285): every 256 µs. -/
def execPlacementHalving (s : State) : Outcome :=
  if s.now < s.dev.halved + 256000 then .next s
  else .next (({ s with
    place := (s.place.map (fun e => (e.1, { e.2 with count := BitVec.ofNat 12 (e.2.count.toNat / 2) }))).filter (fun e => e.2 != {}) } : State).modDev
      (fun d => { d with halved := s.now }))

def State.countOf (s : State) (f : Nat) : Nat := (fget {} s.place f).count.toNat

/-- Mappings of a frame: partition, ASID, virtual page, address of the leaf entry. -/
def State.mapped (s : State) (f : Nat) : List (Nat × Nat × Nat × Nat) := (s.leaves.filter (fun l => l.1 == f)).map (fun l => l.2)

/-- PLACE and TYPE of a mapped frame. -/
def State.placeOf (s : State) (m : Nat × Nat × Nat × Nat) : Nat × Nat :=
  let leaf := s.rd m.2.2.2 8
  (bits leaf 13 12, bits leaf 15 14)

/-- A frame of the checkpoint range, of the other frames that the configuration record reserves, or of a table or mailbox region that a
partition record or the device block names: it never holds a task's page (R272, R414, R415). -/
def State.reservedFrame (s : State) (f : Nat) : Bool :=
  let pa := f * 0x10000
  let within (base len : Nat) : Bool := decide (base < pa + 0x10000) && decide (pa < base + len)
  within s.dev.ckBase 520589934592 || within (field s.dev.mcqBase 5 43 * 32) (32 * 2 ^ field s.dev.mcqLen 0 5) ||
  s.dev.reserved.any (fun r => decide (r.1 ≤ f) && decide (f < r.1 + r.2)) ||
  s.parts.any (fun p => within p.cfg.asidt.toNat 0x80000 || within p.cfg.sapool.toNat (p.cfg.salen * 0x2000) ||
    within p.cfg.rxbase.toNat (p.cfg.rxlen * 0x10000) || within p.cfg.rxdir.toNat (p.cfg.rxlen * 16) ||
    within p.cfg.peqbase.toNat (p.cfg.peqlen * 16) ||
    (List.range 16).any (fun a => p.cfg.arcades.getLsbD a && within (p.cfg.mbox.toNat + a * 0x4000000) 0x4000000))

/-- PLACE lets a page move to a memory (R286 Table 5). -/
def placeAllows (place : Nat) (dest : Storage4) : Bool :=
  match place with
  | 0 => true
  | 1 => dest == .near || dest == .hbm
  | 2 => dest == .hbm
  | _ => false

/-- Every mapping of the frame lets it move. -/
def State.movable (s : State) (f : Nat) (dest : Storage4) : Bool :=
  let ms := s.mapped f
  !ms.isEmpty && !(s.reservedFrame f) && ms.all (fun m => (s.placeOf m).2 == 0 && placeAllows (s.placeOf m).1 dest)

/-- A memory that pages move to: its first frame, and how many it has. -/
structure Pool where
  first : Nat
  size : Nat
  kind : Storage4
  deriving DecidableEq, Repr

def hbmPool : Pool := { first := 0x800000, size := 7812500, kind := .hbm }

/-- One layer of a stall's column. -/
def layerPool (layer ps : Nat) : Pool := { first := layer * 0x8000 + ps * 0x100, size := 256, kind := .near }

/-- The hottest bank sensor of a layer of a column. -/
def State.layerTemp (s : State) (layer ps : Nat) : Nat :=
  (List.range 16).foldl (fun r b => Nat.max r (fget 0 (s.pstall ps).bankTemp (layer * 16 + b)).toNat) 0

/-- Layers of a column, coolest first. -/
def State.coolLayers (s : State) (ps : Nat) : List Nat :=
  (List.range 4).foldl (fun (r : List Nat) l =>
    (r.takeWhile (fun k => decide (s.layerTemp k ps ≤ s.layerTemp l ps))) ++ [l] ++ (r.dropWhile (fun k => decide (s.layerTemp k ps ≤ s.layerTemp l ps)))) []

/-- A destination in one memory: the free frame that the pool offers, or the victim of the next 16 frames (R286). The spec gives no order of
scanning: a quadrant's pointer names the first of 16 frames, rising modulo the memory (notes/assumptions/35.md). -/
def State.destination (s : State) (q mover : Nat) (p : Pool) : Option Nat :=
  let home := s.storage (mover * 0x10000)
  let free := match Config.freeFrame s.steps p.first with
    | some f => if decide (p.first ≤ f) && decide (f < p.first + p.size) && !(s.leaves.any (fun l => l.1 == f)) && !(fget false s.tables (2 * f)) &&
        !(fget false s.tables (2 * f + 1)) && !(s.reservedFrame f) && !(s.isLost (f * 0x10000)) && !(s.exchanging f) then some f else none
    | none => none
  match free with
  | some f => some f
  | none =>
    let scan := (List.range 16).map (fun i => p.first + ((s.quad q).scan + i) % p.size)
    let best := (scan.filter (fun f => s.movable f home && f != mover && !(s.exchanging f))).foldl (fun (r : Option Nat) f => match r with
      | none => some f
      | some g => if s.countOf f < s.countOf g || (s.countOf f = s.countOf g && f < g) then some f else some g) none
    match best with
    | some f => if 2 * s.countOf f < s.countOf mover then some f else none
    | none => none

/-- Refresh step of a bank: its reading rounded up to a multiple of 5 °C, never below 65 (R290). -/
def State.refreshStep (s : State) (ps bank : Nat) : Nat := Nat.max 65 (((fget 0 (s.pstall ps).bankTemp bank).toNat + 4) / 5 * 5)

/-- The memories that a page may move to, in the order in which they are tried (R286 Table 4). -/
def State.moves (s : State) (f : Nat) : List Pool :=
  let r := fget {} s.place f
  let n := r.count.toNat
  match s.storage (f * 0x10000) with
  | .lpddr | .cxl => if 32 ≤ n then [hbmPool] else []
  | .hbm =>
    if (128 ≤ n ∨ (32 ≤ n ∧ (s.mapped f).any (fun m => (s.placeOf m).1 == 1))) ∧ r.run = 15 then
      (s.coolLayers r.own.toNat).map (fun l => layerPool l r.own.toNat)
    else []
  | .near =>
    let pa := f * 0x10000
    let ps := nearStall pa
    let layer := bits pa 32 31
    let bank := bits pa 23 20
    let first := layer * 0x8000 + ps * 0x100 + bank * 16
    if 95 ≤ s.refreshStep ps (layer * 16 + bank) ∧ ((List.range 16).all (fun i => decide (s.countOf (first + i) ≤ n))) then
      ((s.coolLayers ps).filter (fun l => decide (s.layerTemp l ps < s.layerTemp layer ps))).map (fun l => layerPool l ps)
    else []
  | .hole => []

/-- The leaf entries of TYPE 0 that name a frame, without their A and D bits; an entry that several spaces reach stands once. -/
def State.leavesOf (s : State) (f : Nat) : List (Nat × Nat) :=
  (s.leaves.filter (fun l => l.1 == f)).foldr (fun l r =>
    let a := l.2.2.2.2
    let e := s.rd a 8
    if bits e 15 14 = 0 && !(r.any (fun x => x.1 == a)) then (a, e - bits e 7 6 * 64) :: r else r) []

/-- The exchange of two frames begins: their dirty lines are written back (R287). The quadrant's scan pointer, which all memories share, moves on
by 16 then and at no other time: the model's choice (notes/assumptions/35.md). -/
def State.beginExchange (s : State) (q a b : Nat) : State :=
  ({ s with dirty := s.dirty.filter (fun e => e.1 / 2048 != a && e.1 / 2048 != b) } : State).modQuad q (fun u =>
    { u with
      exch := some { a := a, b := b, leaves := s.leavesOf a ++ s.leavesOf b }
      scan := u.scan + 16 })

/-- PAGE_EXCHANGE_START (R286, R287): the page of a frame is moved when a rule of Table 4 asks for it and a destination is found.
None starts while a checkpoint runs (R417). -/
def execPageExchangeStart (quad : BitVec 2) (frame : BitVec 32) (s : State) : Outcome :=
  let q := quad.toNat
  let f := frame.toNat
  if (s.quad q).exch.isSome || s.dev.ckBusy || s.exchanging f || s.isLost (f * 0x10000) || s.deepGone (f * 0x10000) then .next s
  else match ((s.moves f).filter (fun p => s.movable f p.kind)).findSome? (s.destination q f) with
  | none => .next s
  | some g => .next (s.beginExchange q f g)

/-- Queued bank operations of the two frames go to the units of the frames' new places, in their order (R101, R287). -/
def State.moveOps (s : State) (e : Exchange) : State :=
  let moves (o : BankOp) : Bool := o.pa / 0x10000 == e.a || o.pa / 0x10000 == e.b
  let moved : List BankOp := s.bankops.flatMap (fun q => (q.2.filter moves).map (fun o =>
    { o with pa := (if o.pa / 0x10000 = e.a then e.b else e.a) * 0x10000 + o.pa % 0x10000 }))
  let rest : FMap (List BankOp) := (s.bankops.map (fun q => (q.1, q.2.filter (fun o => !(moves o))))).filter (fun q => !q.2.isEmpty)
  { s with bankops := moved.foldl (fun m o => fmod [] (s.unitOf o.pa) (fun q => q ++ [o]) m) rest }

/-- A host write that waits goes to the frame that the page's entry then names (R287). -/
def State.moveHostWrites (s : State) (e : Exchange) : State :=
  s.modDev (fun d => { d with hostWaits := d.hostWaits.map (fun w =>
    let f := w.1 / 0x10000
    if f = e.a then (e.b * 0x10000 + w.1 % 0x10000, w.2) else if f = e.b then (e.a * 0x10000 + w.1 % 0x10000, w.2) else w) })

/-- The two frames change places: data, poison marks, placement records, every leaf entry that names one, the reverse map and queued
operations. -/
def State.swapFrames (s : State) (e : Exchange) : State :=
  let leaf (m : FMap Byte) (x : Nat × Nat) : FMap Byte :=
    let old := rdN m x.1 8
    let f := bits old 47 16
    wrN m x.1 8 (old - f * 0x10000 + (if f = e.a then e.b else e.a) * 0x10000)
  let t : State := { s with
    mem := fswap 0 (e.a * 0x10000) (e.b * 0x10000) 0x10000 ((s.leavesOf e.a ++ s.leavesOf e.b).foldl leaf s.mem)
    poison := fswap false (e.a * 2048) (e.b * 2048) 2048 s.poison
    releases := fswap [] (e.a * 2048) (e.b * 2048) 2048 s.releases
    place := fswap {} e.a e.b 1 s.place
    rmap := fswap [] e.a e.b 1 s.rmap }
  (t.moveOps e).moveHostWrites e

/-- Every leaf entry is as it was at the start, but for its A and D bits (R287 step 4). -/
def State.leavesStand (s : State) (e : Exchange) : Bool :=
  e.leaves.all (fun x => let v := s.rd x.1 8; v - bits v 7 6 * 64 == x.2)

/-- The quadrant's engine is free again. -/
def State.endExchange (s : State) (q : Nat) : State := s.modQuad q (fun u => { u with exch := none })

/-- Bytes of a host write within one granule, at `pa`: the committed write, and the segments it dooms (R260, R261, R271). -/
def State.hostBytes (s : State) (pa : Nat) (data : List Byte) : State :=
  if s.storage pa == .hole then s
  else (s.commitBytes pa data.length (data.foldr (fun b r => b.toNat + 256 * r) 0)).doomPhys [pa / 32]

/-- Bytes of a host write to one granule are written, or wait with every committed write, behind what waits for that granule (R287, R417). -/
def State.hostPut (s : State) (pa : Nat) (data : List Byte) : State :=
  if s.writeWaits pa || s.dev.hostWaits.any (fun w => w.1 / 32 == pa / 32) then s.modDev (fun d => { d with hostWaits := d.hostWaits ++ [(pa, data)] })
  else s.hostBytes pa data

/-- Host writes that waited are written in their order, or wait on. -/
def State.flushHost (s : State) : State :=
  s.dev.hostWaits.foldl (fun t w => t.hostPut w.1 w.2) (s.modDev (fun d => { d with hostWaits := [] }))

/-- Records and host writes that waited for the exchange or the checkpoint are written. -/
def State.flushWaiting (s : State) : State :=
  if s.dev.ckBusy then s else (s.queues.foldl (fun t e => t.flushComps e.1 e.2.comps.length) s).flushPower.flushHost

/-- PAGE_EXCHANGE_COMMIT (R287): both pages move, or neither when software has changed an entry. Its own writes wait for a checkpoint (R417). -/
def execPageExchangeCommit (quad : BitVec 2) (s : State) : Outcome :=
  match (s.quad quad.toNat).exch with
  | none => .next s
  | some e =>
    if s.dev.ckBusy then .next s else
    let s1 := if s.leavesStand e then s.swapFrames e else s
    .next (s1.endExchange quad.toNat).flushWaiting

/-- REFRESH_ROW_DUE (R291): one row falls due. A bank with no access waiting refreshes until no row is due; a busy one refreshes at a debt
of 4. -/
def execRefreshRowDue (pstall : BitVec 7) (bank : BitVec 6) (busy : Bool) (s : State) : Outcome :=
  .next (s.modPStall pstall.toNat (fun p =>
    let d := fget 0 p.debt bank.toNat + 1
    { p with debt := fset 0 bank.toNat (if !busy then 0 else if 4 ≤ d then d - 1 else d) p.debt }))

end Sys2Proof.Machine
end

