-- ==== Sys2Proof/Machine/GraphEvents.lean ====
section
/-! DEFINITION. Work queues and the graph unit: the fetch of queue records (R411), graph nodes (R302 to R306), their operating
points (R308), and the COPY, SIGNAL and GRAPH nodes (R304). FORK nodes pass the dispenser (Sched.lean). -/

namespace Sys2Proof.Machine

/-! Graph nodes as software writes them (R302 Table 1). -/

/-- Fields of the 64 bytes. -/
def Node.kind (n : Node) : Nat := bits n.image.toNat 7 0
def Node.nflg (n : Node) : Nat := bits n.image.toNat 15 8
def Node.ndeps (n : Node) : Nat := bits n.image.toNat 31 16
def Node.nsucc (n : Node) : Nat := bits n.image.toNat 47 32
def Node.aux (n : Node) : Nat := bits n.image.toNat 63 48
def Node.succ (n : Node) : Word := BitVec.ofNat 64 (bits n.image.toNat 127 64)
def Node.est (n : Node) : Nat := bits n.image.toNat 191 128
def Node.entry (n : Node) : Word := BitVec.ofNat 64 (bits n.image.toNat 255 192)
def Node.arg (n : Node) : Word := BitVec.ofNat 64 (bits n.image.toNat 319 256)
def Node.trips (n : Node) : Nat := bits n.image.toNat 351 320
def Node.maxw (n : Node) : Nat := bits n.image.toNat 367 352
def Node.lab (n : Node) : Nat := bits n.image.toNat 375 368
def Node.lwb (n : Node) : Nat := bits n.image.toNat 383 376
def Node.sched (n : Node) : Word := BitVec.ofNat 64 (bits n.image.toNat 447 384)

/-- A limit of Table 1 is broken, a reserved byte is set, or ARG of a GRAPH node is 0 (R302, R305). -/
def Node.broken (n : Node) : Bool :=
  decide (1024 < n.nsucc) || n.succ.toNat % 8 != 0 || (n.nsucc == 0 && n.succ != 0) || decide (4 ≤ n.nflg) ||
  (match n.kind with
   | 0 => bit n.nflg 1 || decide (4096 < n.aux) || n.maxw == 0 || decide (16384 < n.maxw) || decide (64 < n.lab) || decide (64 < n.lwb) ||
      n.sched.toNat % 64 != 0
   | 1 => n.nflg != 0 || n.aux == 0 || decide (4096 < n.aux) || bits n.image.toNat 447 256 != 0
   | 2 => bit n.nflg 0 || n.entry.toNat % 8 != 0 || bits n.image.toNat 447 320 != 0
   | 3 => n.nflg != 0 || n.aux != 0 || n.arg == 0 || bits n.image.toNat 447 320 != 0
   | _ => true)

/-- The graph unit's own accesses: the queue's partition and address space, at PL 0, for no task (R301). -/
def graphAccess (part : BitVec 4) (asid : BitVec 16) : Command := { part := part, asid := asid }

def Node.access (n : Node) : Command := graphAccess n.part n.asid

/-- The node is one that a step names. -/
def Node.is (n : Node) (asid : BitVec 16) (va : Word) : Bool := n.asid == asid && n.va == va

/-- The same node of the same graph. -/
def Node.same (n m : Node) : Bool := n.gid == m.gid && n.va == m.va

def State.modNode (s : State) (m : Node) (f : Node → Node) : State := { s with nodes := s.nodes.map (fun n => if n.same m then f n else n) }

/-- Nodes that the graph unit keeps in flight (R306). -/
def Node.inFlight (n : Node) : Bool := n.state != .fetching && n.state != .done

/-! Operating points (R307, R308). -/

/-- Tile clock of a point, in MHz (R307 Table 2). -/
def pointMHz (k : Nat) : Nat := [800, 960, 1120, 1280, 1440, 1600, 1800, 2000].getD k 1600

/-- Times of the graph unit are kept in 1/2,016,000 ns, in which every estimate of R308 is whole. -/
def graphScale : Nat := 2016000

/-- D(n, k) of a node's estimate. -/
def Node.dur (n : Node) (k : Nat) : Nat := n.est * (graphScale / pointMHz k * 1600)

def State.pmax (s : State) (p : Nat) : Nat := (s.part p).cfg.pmax

/-- The node names `va` as a successor. -/
def Node.leadsTo (n : Node) (va : Word) : Bool := n.succs.contains va

/-- One round of ES and EF over a graph; an actual finish stands (R308). -/
def relaxEarly (pm : Nat) (ns : List Node) : List Node :=
  ns.map (fun n =>
    let ps := ns.filter (fun p => p.leadsTo n.va)
    let es := if n.top || ps.isEmpty then n.es else (ps.map (fun p => p.ef)).foldl Nat.max 0
    { n with es := es, ef := if n.state == .done then n.ef else es + n.dur pm })

/-- One round of LF: the finish of the graph for a sink. -/
def relaxLate (pm fin : Nat) (ns : List Node) : List Node :=
  ns.map (fun n =>
    let ss := ns.filter (fun q => n.leadsTo q.va)
    { n with lf := match ss with
      | [] => fin
      | q :: qs => qs.foldl (fun r u => Nat.min r (u.lf - u.dur pm)) (q.lf - q.dur pm) })

/-- `k` rounds. -/
def rounds (f : List Node → List Node) : Nat → List Node → List Node
  | 0, ns => ns
  | k + 1, ns => rounds f k (f ns)

/-- The point of a node: the lowest that fits its window, PMAX when none does or when EST is 0 (R308). -/
def Node.choose (n : Node) (pm : Nat) : BitVec 3 :=
  if n.est = 0 then BitVec.ofNat 3 pm
  else BitVec.ofNat 3 (((List.range (pm + 1)).find? (fun k => decide (n.es + n.dur k ≤ n.lf))).getD pm)

/-- The values of R308 over one graph. -/
def pointsOf (pm : Nat) (ns : List Node) : List Node :=
  let a := rounds (relaxEarly pm) ns.length ns
  let fin := (a.map (fun n => n.ef)).foldl Nat.max 0
  (rounds (relaxLate pm fin) a.length (a.map (fun n => { n with lf := fin }))).map (fun n => { n with point := n.choose pm })

/-- The points of graph `gid` are computed again. -/
def State.computePoints (s : State) (gid : Nat) : State :=
  match s.nodes.find? (fun n => n.gid == gid) with
  | none => s
  | some m =>
    let ns := pointsOf (s.pmax m.part.toNat) (s.nodes.filter (fun n => n.gid == gid))
    { s with nodes := s.nodes.map (fun n => (ns.find? (fun u => u.same n)).getD n) }

/-! Submission and fetch (R305, R306). -/

/-- A graph is submitted: its root is to be fetched. -/
def State.submitGraph (s : State) (part : BitVec 4) (queue : Nat) (asid : BitVec 16) (va : Word) (parent : Option (Nat × Word)) : State :=
  { s with nodes := s.nodes ++ [{ asid := asid, va := va, part := part, queue := queue, gid := s.steps, top := true, parent := parent, es := s.now * graphScale }] }

/-- The successor list of a node: `n` addresses; none when it cannot be read. -/
def State.readSuccs (s : State) (m : Command) (a : Word) : Nat → Option (State × List Word)
  | 0 => some (s, [])
  | n + 1 => match s.commandRead m 0 a 8 with
    | .error _ => none
    | .ok (t, x) => match t.readSuccs m (a + 8) n with
      | none => none
      | some (u, xs) => some (u, BitVec.ofNat 64 x :: xs)

/-- The node as its fetch leaves it: its image and successors, and whether it fails; a broken limit keeps none of its successors from being
released (R305). -/
def State.fetchNode (s : State) (n : Node) : State × Node :=
  match s.commandRead n.access 0 n.va 64 with
  | .error _ => (s, { n with bad := true })
  | .ok (t, x) =>
    let m := { n with image := BitVec.ofNat 512 x }
    let elsewhere := s.nodes.any (fun u => u.is n.asid n.va && u.part == n.part && u.gid != n.gid && u.inFlight)
    match t.readSuccs m.access m.succ m.nsucc with
    | none => (t, { m with bad := true })
    | some (u, xs) => (u, { m with succs := xs, bad := m.broken || elsewhere })

/-- Place in the order in which records and nodes become ready: the step, and within it the place among the counters decremented (R306). -/
def readyOrder (step i : Nat) : Nat := step * 65536 + i

/-- A fetched node enters the graph: DEPS less the predecessors that have completed already (R306). -/
def Node.enter (n : Node) (step now : Nat) : Node :=
  let d := n.deps + (n.ndeps : Int)
  let m := { n with deps := if d < 0 then 0 else d, bad := n.bad || decide (d < 0) }
  if m.bad then { m with state := .waiting }
  else if d = 0 then { m with state := .ready, readyAt := readyOrder step 0, since := now }
  else { m with state := .waiting }

/-- Successors that the graph has not met yet are to be fetched. -/
def State.meet (s : State) (n : Node) : State :=
  n.succs.foldl (fun t va =>
    if t.nodes.any (fun u => u.gid == n.gid && u.va == va) then t
    else { t with nodes := t.nodes ++ [{ asid := n.asid, va := va, part := n.part, queue := n.queue, gid := n.gid, parent := n.parent, es := n.es }] }) s

/-- Nodes of a graph that a set of addresses leads to, `k` links far. -/
def reachable (ns : List Node) : Nat → List Word → List Word
  | 0, xs => xs
  | k + 1, xs => reachable ns k ((ns.filter (fun n => xs.contains n.va)).foldl (fun r n => n.succs.foldl (fun q v => if q.contains v then q else v :: q) r) xs)

/-- The node lies on a cycle of successor links (R305). -/
def Node.onCycle (n : Node) (ns : List Node) : Bool := (reachable ns ns.length n.succs).contains n.va

/-- At each fetch the nodes found on a cycle fail, a running one once it completes, and the points are computed (R305, R308). -/
def State.graphFetched (s : State) (gid : Nat) : State :=
  let ns := s.nodes.filter (fun n => n.gid == gid)
  let mark (n : Node) : Node :=
    if n.gid == gid && n.onCycle ns then (match n.state with
      | .waiting | .ready => { n with bad := true }
      | .running => { n with looped := true }
      | .fetching | .done => n)
    else n
  ({ s with nodes := s.nodes.map mark } : State).computePoints gid

/-- NSTAT := 0 at the fetch; nothing is written when it is not writable (R303). -/
def State.clearStat (s : State) (n : Node) : State :=
  match s.putWord n.access 0 (n.va + 56) 0 with
  | .ok t => t
  | .error _ => s

/-- The unit holds as many nodes of a partition as it can (R306). -/
def State.graphFull (s : State) (p : BitVec 4) : Bool := decide (65536 ≤ (s.nodes.filter (fun u => u.part == p && u.inFlight)).length)

/-- GRAPH_NODE_FETCH (R306): the oldest node to be fetched, while fewer than 65,536 are in flight. -/
def execGraphNodeFetch (part : BitVec 4) (s : State) : Outcome :=
  match s.nodes.find? (fun n => n.part == part && n.state == .fetching) with
  | none => .next s
  | some n =>
    if s.graphFull part || s.commandWaits n.access (n.va + 56).toNat then .next s
    else
      let r := s.fetchNode n
      let m := r.2.enter s.steps s.now
      .next (((((r.1.clearStat n).modNode n (fun _ => m)).meet m).graphFetched n.gid))

/-- A node may start: it is ready, and its graph is fetched, or the unit is full and its fetch waits for nodes in flight (R305, R306). -/
def State.mayStart (s : State) (n : Node) : Bool :=
  n.state == .ready && !n.bad && (s.graphFull n.part || !(s.nodes.any (fun u => u.gid == n.gid && u.state == .fetching)))

def State.nodeClass (s : State) (n : Node) : BitVec 3 := (s.queue n.queue).pcls

/-! QUEUE_RECORD_FETCH. -/

/-- Records of a queue wait: in its ring, at the dispenser, or as FORK nodes that may start (R304, R310). -/
def State.queueWaits (s : State) (p q : Nat) : Bool :=
  (s.queue q).head != (s.queue q).tail || (s.part p).waiting.any (fun r => r.queue.getD 0 == q) ||
  s.nodes.any (fun n => n.queue == q && n.part.toNat == p && n.kind == 0 && s.mayStart n)

/-- A queue with no waiting record keeps no positive DEF (R311). -/
def State.idleQueue (s : State) (p q : Nat) : State :=
  if s.queueWaits p q then s else s.modQueue q (fun u => { u with deficit := min 0 u.deficit })

/-- The task record as words: KIND and the reserved bytes, ENTRY, six arguments (R239 Table 4). -/
def taskRecordArgs (x : Nat) : List Word := (List.range 6).map (fun i => BitVec.ofNat 64 (bits x (64 * i + 191) (64 * i + 128)))

/-- A record that a queue gives to the device (R301, R309, R411). -/
def State.takeRecord (s : State) (q : Nat) (x d : Nat) : State :=
  let u := s.queue q
  let entry := BitVec.ofNat 64 (bits x 127 64)
  if badTaskRec x then
    (s.modQueue q (fun w => { w with qerr := w.qerr ||| 2 })).complete q true (Config.openBits s.steps q) (statusWord true 1 1 0 0x88)
  else if bits x 7 0 = 1 then s.submitGraph (BitVec.ofNat 4 u.part) q u.asid entry none
  else
    s.modPart u.part (fun p => { p with waiting := p.waiting ++ [{
      kind := .task entry (taskRecordArgs x), pcls := u.pcls, part := BitVec.ofNat 4 u.part, asid := u.asid, origin := .queue q, queue := some q,
      demand := some (if d = 0 then BitVec.ofNat 3 (s.pmax u.part) else BitVec.ofNat 3 (d - 8)), since := s.now, seq := s.steps }] })

/-- QUEUE_RECORD_FETCH (R411): the record at HEAD, unless the queue is off or empty, or its completion ring is full (R412). A record
in poisoned storage is a bad record. -/
def execQueueRecordFetch (queue : BitVec 16) (s : State) : Outcome :=
  let q := queue.toNat
  let u := s.queue q
  if !u.en || u.head == u.tail || decide (u.qlen ≤ (u.ctail - u.chead).toNat) then .next s
  else
    let i := u.head.toNat % u.qlen
    let a := u.ring + 64 * i
    let x := if s.poisoned a 64 || s.isLost a then 2 else s.rd a 64
    .next ((s.modQueue q (fun w => { w with head := w.head + 1, demands := fset 0 i 0 w.demands })).takeRecord q x (fget 0 u.demands i) |>.idleQueue u.part q)

/-! Completion (R303 to R306). -/

/-- NSTAT of a completed node. -/
def Node.status (n : Node) : Word := statusWord true n.total n.failed n.killed n.cause.toNat

/-- The node with a failure counted in. -/
def Node.failWith (n : Node) (c : BitVec 8) : Node := { n with failed := n.failed + 1, cause := if n.cause = 0 then c else n.cause }

/-- A node that fails before it runs (R305). -/
def Node.gnode (n : Node) : Node := { n with total := 1, failed := 1, killed := 0, cause := 0x88 }

/-- The node with the counts and first cause of its cell, or of the exit node of its graph. -/
def Node.merge (n : Node) (total failed killed : Nat) (cause : BitVec 8) : Node :=
  { n with total := total, failed := failed + n.failed, killed := killed, cause := if cause = 0 then n.cause else cause }

/-- The complete cell of a running FORK node. -/
def State.cellOfNode (s : State) (n : Node) : Option (Nat × Cell) :=
  s.cells.findSome? (fun e => match e.2 with
    | some c => if c.node == some (n.asid, n.va) && c.part == n.part && c.complete then some (e.1, c) else none
    | none => none)

/-- A command of the node is queued on some channel. -/
def State.commandLeft (s : State) (n : Node) : Bool :=
  s.tiles.any (fun t => t.2.chans.any (fun c => c.2.cmds.any (fun m => m.node == some (n.asid, n.va) && m.part == n.part)))

/-- A node that ran before it was found to lie on a cycle fails as it completes (R305). -/
def Node.settle (n : Node) : Node := if n.looped then n.failWith 0x88 else n

/-- The status with which a node completes now, and the machine without its cell; none while it has not ended. -/
def State.nodeResult (s : State) (n : Node) : Option (State × Node) :=
  if n.state == .fetching || n.state == .done then none
  else if n.bad then some (s, n.gnode)
  else if n.state != .running then none
  else match n.kind with
  | 0 => (s.cellOfNode n).map (fun e => (s.freeCell e.1, n.settle.merge e.2.total e.2.failed e.2.killed e.2.cause))
  | 1 => if s.commandLeft n then none else some (s, n.settle)
  | 2 => some (s, n.settle)
  | _ =>
    let sub := s.nodes.filter (fun u => u.gid == n.sub)
    match sub.find? (fun u => u.va == n.arg && u.state == .done) with
    | some u => some (s, n.settle.merge u.total u.failed u.killed u.cause)
    | none => if sub.any (fun u => u.state == .fetching || u.va == n.arg) then none else some (s, n.gnode)

/-- A predecessor of the node has completed; `order` is its place in the order of readiness (R306). -/
def Node.release (n : Node) (order now : Nat) : Node :=
  match n.state with
  | .fetching => { n with deps := n.deps - 1 }
  | .waiting =>
    if n.deps ≤ 0 then { n with bad := true }
    else if n.deps = 1 && !n.bad then { n with deps := 0, state := .ready, readyAt := order, since := now }
    else { n with deps := n.deps - 1 }
  | .ready => { n with bad := true }
  | .running => n.failWith 0x88
  | .done => n

/-- The counter of each successor is decremented, once for each time that the list names it. -/
def State.releaseSuccs (s : State) (n : Node) : State :=
  (List.zip (List.range n.succs.length) n.succs).foldl (fun t x =>
    { t with nodes := t.nodes.map (fun u => if u.gid == n.gid && u.va == x.2 then u.release (readyOrder s.steps x.1) s.now else u) }) s

/-- A failure that NSTAT cannot record is credited to the submitter: the GRAPH node, or the record's root node (R305). -/
def State.creditSubmitter (s : State) (n : Node) : State :=
  let note (u : Node) : Node := { u with cause := if u.cause = 0 then 0x88 else u.cause }
  { s with nodes := s.nodes.map (fun u =>
      match n.parent with
      | some (g, v) => if u.gid == g && u.va == v && u.state != .done then note u else u
      | none => if u.gid == n.gid && u.top && u.state != .done then note u else u) }

/-- Graphs all of whose nodes are done leave the unit, once the GRAPH node that submitted them is done too. -/
def State.pruneGraphs (s : State) : State :=
  { s with nodes := s.nodes.filter (fun n =>
      s.nodes.any (fun u => u.gid == n.gid && u.state != .done) ||
      (match n.parent with
       | some (g, v) => s.nodes.any (fun u => u.gid == g && u.va == v && u.state != .done)
       | none => false)) }

/-- The node has completed: NSTAT, then the successors, the completion record of a queue's root, and the points (R303, R306, R412). -/
def State.completeNode (s : State) (n : Node) : State :=
  let s1 := match s.putWord n.access 0 (n.va + 56) n.status.toNat with
    | .ok t => t
    | .error _ => if n.bad || n.cause == 0x88 then s.creditSubmitter n else s
  let s2 := s1.modNode n (fun _ => { n with state := .done, ef := s.now * graphScale })
  let s3 := { (s2.releaseSuccs n) with ended := s2.ended.filter (fun e => e.2 != Origin.node n.asid n.va || taskPart (BitVec.ofNat 64 e.1) != n.part.toNat) }
  let s4 := if n.top && n.parent.isNone then s3.complete n.queue true n.va n.status else s3
  (s4.computePoints n.gid).pruneGraphs

/-- NODE_COMPLETE (R306): the first node in flight at the address that has ended; its NSTAT may have to wait. -/
def execNodeComplete (asid : BitVec 16) (node : BitVec 64) (s : State) : Outcome :=
  match (s.nodes.filter (fun n => n.is asid node)).findSome? s.nodeResult with
  | none => .next s
  | some (t, n) => .next (if s.commandWaits n.access (n.va + 56).toNat then s else t.completeNode n)

/-! COPY, SIGNAL and GRAPH nodes (R304). -/

/-- One ready node comes before another: the higher class, then the one that became ready first (R306). -/
def State.nodeBefore (s : State) (a b : Node) : Bool :=
  decide ((s.nodeClass b).toNat < (s.nodeClass a).toNat) || (s.nodeClass a == s.nodeClass b && decide (a.readyAt < b.readyAt))

/-- A COPY, SIGNAL or GRAPH node whose turn it is: no other of its partition comes before it (R306). -/
def State.nodeTurn (s : State) (n : Node) : Bool :=
  s.mayStart n && !(s.nodes.any (fun u => u.part == n.part && u.kind != 0 && s.mayStart u && s.nodeBefore u n))

/-- A node of a kind at an address whose turn it is. -/
def State.readyNode (s : State) (asid : BitVec 16) (va : Word) (kind : Nat) : Option Node :=
  s.nodes.find? (fun n => n.is asid va && n.kind == kind && s.nodeTurn n)

/-- The tile of the partition with the fewest commands on channel 7. -/
def State.copyTile (s : State) (part : Nat) : Option Nat :=
  let load (h : Nat) : Nat := ((s.tile h).chan 7).cmds.length
  ((List.range 2048).filter (fun h => s.ownsArcade part (arcadeOf h) && !(s.tileDead h))).foldl (fun (r : Option Nat) h => match r with
    | none => some h
    | some b => if load h < load b then some h else some b) none

/-- COPY_NODE: the node's descriptors become one command on channel 7, once that channel has room. -/
def execCopyNode (asid : BitVec 16) (node : BitVec 64) (s : State) : Outcome :=
  match s.readyNode asid node 1 with
  | none => .next s
  | some n => match s.copyTile n.part.toNat with
    | none => .next s
    | some h =>
      if 4 ≤ ((s.tile h).chan 7).cmds.length || s.midSwap (stallOf h) then .next s
      else
        let t := s.newTask n.part.toNat
        let m : Command := { first := n.entry, count := n.aux, task := t.2, node := some (asid, node), asid := asid, part := n.part }
        .next (({ t.1 with ended := fset .nobody t.2.toNat (Origin.node asid node) t.1.ended } : State).modChan h 7 (fun c => { c with cmds := c.cmds ++ [m] })
          |>.modNode n (fun u => { u with state := .running }))

/-- SIGNAL_NODE: the write, refused with a cause that the node keeps, and then the interrupt. -/
def execSignalNode (asid : BitVec 16) (node : BitVec 64) (s : State) : Outcome :=
  match s.readyNode asid node 2 with
  | none => .next s
  | some n =>
    if n.entry != 0 && s.commandWaits n.access n.entry.toNat then .next s
    else
      let r : State × Node := if n.entry = 0 then (s, n) else match s.putWord n.access 0 n.entry n.arg.toNat with
        | .ok t => (t, n)
        | .error c => (s, n.failWith c)
      let t := if bit n.nflg 1 then r.1.queueIrq n.queue n.part.toNat n.aux else r.1
      .next (t.modNode n (fun _ => { r.2 with state := .running }))

/-- GRAPH_NODE: the sub-graph rooted at ENTRY is submitted. -/
def execGraphNode (asid : BitVec 16) (node : BitVec 64) (s : State) : Outcome :=
  match s.readyNode asid node 3 with
  | none => .next s
  | some n =>
    .next ((s.modNode n (fun u => { u with state := .running, sub := s.steps })).submitGraph n.part n.queue asid n.entry (some (n.gid, n.va)))

end Sys2Proof.Machine
end

