-- ==== Sys2Proof/Machine/Sched.lean ====
section
/-! DEFINITION. The dispenser (R310 to R314) with FORK nodes (R304), and rotation (R320 to R324). -/

namespace Sys2Proof.Machine

/-! What waits at a dispenser. -/

/-- A record or a ready FORK node, with its queue, class and place in the order of arrival. -/
inductive Work where
  | record (r : Record)
  | node (n : Node)
  deriving DecidableEq, Repr

def State.workClass (s : State) (w : Work) : Nat := match w with | .record r => r.pcls.toNat | .node n => (s.nodeClass n).toNat
def Work.queue (w : Work) : Nat := match w with | .record r => r.queue.getD 0 | .node n => n.queue
def Work.order (w : Work) : Nat := match w with | .record r => readyOrder r.seq 0 | .node n => n.readyAt
def Work.since (w : Work) : Nat := match w with | .record r => r.since | .node n => n.since
def Work.gang (w : Work) : Bool := match w with | .record r => r.gang | .node n => bit n.nflg 0
def Work.demand (w : Work) : Option (BitVec 3) := match w with | .record r => r.demand | .node n => some n.point
def Work.asid (w : Work) : BitVec 16 := match w with | .record r => r.asid | .node n => n.asid
def Work.lab (w : Work) : Nat := match w with | .record r => r.lab | .node n => n.lab
def Work.lwb (w : Work) : Nat := match w with | .record r => r.lwb | .node n => n.lwb

/-- First argument word: ARG of a node, ARGS word 0 of a record (R312). -/
def Work.arg0 (w : Work) : Word :=
  match w with
  | .record r => (match r.kind with | .task _ as => as.headD 0 | .worker _ as _ => as.headD 0 | .saved _ | .cont _ => 0)
  | .node n => n.arg

/-- What waits at the dispenser of a partition (R304, R310). -/
def State.pendingWork (s : State) (p : Nat) : List Work :=
  (s.part p).waiting.map .record ++
  (s.nodes.filter (fun n => n.part.toNat == p && n.kind == 0 && s.mayStart n)).map .node

/-- The highest class among the work (R310). -/
def State.topClass (s : State) (ws : List Work) : Nat := ws.foldl (fun r w => Nat.max r (s.workClass w)) 0

/-! Sharing among queues (R311). -/

/-- A queue's weight in a refill; weight 0, which R301 does not give, counts as 1. -/
def Queue.share (q : Queue) : Int := (Nat.max 1 q.wt : Int) * 65536

/-- Queues with waiting work, in the order of the search from pointer `ptr`. -/
def searchQueues (ws : List Work) (ptr : Nat) : List Nat :=
  let qs := dedup (sortBy (fun a b => decide (a ≤ b)) (ws.map Work.queue))
  qs.filter (fun q => decide (ptr ≤ q)) ++ qs.filter (fun q => decide (q < ptr))

/-- Refills until some queue has a positive DEF: none when one has. -/
def State.refills (s : State) (qs : List Nat) : Int :=
  let need (q : Nat) : Int := if 0 < (s.queue q).deficit then 0 else -(s.queue q).deficit / (s.queue q).share + 1
  match qs with
  | [] => 0
  | q :: rest => rest.foldl (fun r u => min r (need u)) (need q)

/-- DEF of every queue after the refills. -/
def State.refill (s : State) (qs : List Nat) : State :=
  let k := s.refills qs
  qs.foldl (fun t q => t.modQueue q (fun u => { u with deficit := u.deficit + k * u.share })) s

/-- The earliest work of a queue. -/
def earliest (ws : List Work) : Option Work :=
  ws.foldl (fun (r : Option Work) w => match r with
    | none => some w
    | some x => if w.order < x.order then some w else some x) none

/-- The work that the dispenser takes next, with the queues' counters as the choice leaves them (R310, R311). -/
def State.nextWork (s : State) (p : Nat) : Option (Work × State) :=
  let all := s.pendingWork p
  let c := s.topClass all
  let ws := all.filter (fun w => s.workClass w == c)
  let qs := searchQueues ws (fget 0 (s.part p).ptr c)
  let t := s.refill qs
  match qs.find? (fun q => decide (0 < (t.queue q).deficit)) with
  | none => none
  | some q => (earliest (ws.filter (fun w => w.queue == q))).map (fun w => (w, t.modPart p (fun u => { u with ptr := fset 0 c q u.ptr })))

/-! Placement (R312, R313). -/

/-- A tile that may take new work with these leases. -/
def State.candidate (s : State) (lab lwb home : Nat) : Bool :=
  !(s.idleSlots home).isEmpty && (s.lstall (stallOf home)).reserved.isNone && !(s.stallClosed (stallOf home)) &&
  decide ((s.tile home).runq.length < 16) && (s.leaseRoom [home] lab lwb).isSome

/-- Free slots of a stall. -/
def State.stallFree (s : State) (ls : Nat) : Nat := ((tilesOf ls).map (fun h => (s.freeSlots h).length)).sum

/-- One tile is taken before another: the stall with the most free slots, the coolest, the lowest tile. -/
def State.betterTile (s : State) (a b : Nat) : Bool :=
  let x := stallOf a
  let y := stallOf b
  let tx := (s.pstall (s.physStall x)).temp.toNat
  let ty := (s.pstall (s.physStall y)).temp.toNat
  decide (s.stallFree y < s.stallFree x) || (s.stallFree x == s.stallFree y && (decide (tx < ty) || (tx == ty && decide (a < b))))

def State.bestTile (s : State) (hs : List Nat) : Option Nat :=
  hs.foldl (fun (r : Option Nat) h => match r with
    | none => some h
    | some b => if s.betterTile h b then some h else some b) none

/-- Place of a quadrant in the order of R312 step 3: equal, then higher ascending, then lower, the highest first. -/
def quadRank (point demand : Nat) : Nat := if demand ≤ point then point - demand else 8 + (demand - point)

/-- The tile that R312 chooses. -/
def State.placeTile (s : State) (p : Nat) (w : Work) : Option Nat :=
  let cs := (List.range 2048).filter (fun h => s.ownsArcade p (arcadeOf h) && s.candidate w.lab w.lwb h)
  let near := match s.walk p w.asid.toNat w.arg0.toNat with
    | .ok x => if s.storage x.pa == .near && x.ty == 0 then cs.filter (fun h => s.physStall (stallOf h) == nearStall x.pa) else []
    | .error _ => []
  match s.bestTile near with
  | some h => some h
  | none =>
    let d := match w.demand with | some k => k.toNat | none => s.pmax p
    let rank (h : Nat) : Nat := quadRank (s.quad (quadOfArcade (arcadeOf h))).point.toNat d
    match cs.map rank with
    | [] => none
    | r :: rs => s.bestTile (cs.filter (fun h => rank h == rs.foldl Nat.min r))

/-! DISPENSE and FORK_NODE. -/

def State.dropWaiting (s : State) (p : Nat) (r : Record) : State := s.modPart p (fun u => { u with waiting := u.waiting.erase r })

/-- DISPENSE (R312): the record that comes next goes to a tile's run queue; with no candidate it waits. -/
def execDispense (part : BitVec 4) (s : State) : Outcome :=
  let p := part.toNat
  match s.nextWork p with
  | some (.record r, t) => (match s.placeTile p (.record r) with
    | some h => .next (((t.dropWaiting p r).enqueue h r).idleQueue p (Work.record r).queue)
    | none => .next s)
  | _ => .next s

/-- The fork that a FORK node asks for: GRAIN 1 and no continuation (R304). -/
def State.nodeFork (s : State) (n : Node) : Fork :=
  { entry := n.entry, arg := n.arg, cont := 0, carg := 0, trips := n.trips, grain := 1, maxw := n.maxw, lab := n.lab, lwb := n.lwb,
    gang := bit n.nflg 0, part := n.part.toNat, asid := n.asid, pcls := s.nodeClass n, queue := some n.queue, demand := some n.point,
    creator := 0, node := some (n.asid, n.va), barrier := none, sched := if n.sched != 0 && n.aux != 0 then some (n.sched, n.aux) else none }

/-- A FORK node at an address that comes next at the dispenser of its partition, with the queues' counters then. -/
def State.nextFork (s : State) (asid : BitVec 16) (va : Word) : Option (Node × State) :=
  (s.nodes.filter (fun n => n.is asid va && n.kind == 0 && s.mayStart n)).findSome? (fun n =>
    match s.nextWork n.part.toNat with
    | some (.node m, t) => if m.same n then some (n, t) else none
    | _ => none)

/-- FORK_NODE (R304): the node that comes next recruits its workers; with no candidate it waits. -/
def execForkNode (asid : BitVec 16) (node : BitVec 64) (s : State) : Outcome :=
  match s.nextFork asid node with
  | none => .next s
  | some (n, t) => match s.placeTile n.part.toNat (.node n) with
    | none => .next s
    | some h => match t.forkWorkers (s.nodeFork n) (stallOf h) h with
      | none => .next s
      | some (u, _) => .next ((u.modNode n (fun x => { x with state := .running })).idleQueue n.part.toNat n.queue)

/-! Pre-emption (R314). -/

/-- Areas of the pool that stops already requested will take (R334). -/
def State.promised (s : State) (p : Nat) : Nat :=
  (s.slots.filter (fun e => e.2.occupied && e.2.part == p && e.2.stops.any (fun r => r != .halt))).length

/-- The pool has room for one more task, or gang, to be switched out. -/
def State.poolRoom (s : State) (p : Nat) (gang : Bool) : Bool :=
  let free := (s.freeAreas p).drop (s.promised p)
  if gang then (findRun5 free).isSome && decide (21 ≤ free.length) else !free.isEmpty

/-- Resident tasks of a partition below class `c` among some slots that may be stopped: not being stopped already, with room for their
context in the pool and for their record in the run queue of their tile (R314, R315, R334). -/
def State.lowerTasks (s : State) (p c : Nat) (keys : List Nat) : List Nat :=
  keys.filter (fun k =>
    let l := s.slot k
    l.occupied && l.part == p && decide (l.pcls.toNat < c) && l.taskid != 0 && l.stops.isEmpty && l.next.isNone &&
    !(s.midSwap (stallOf (homeOf k))) && !(s.runqFull (homeOf ((s.together k).headD k))) && s.poolRoom p l.gang)

/-- One victim is taken before another: the lower class, then the most instructions issued, then the lowest TASKID. -/
def State.victimBefore (s : State) (a b : Nat) : Bool :=
  let x := s.slot a
  let y := s.slot b
  decide (x.pcls.toNat < y.pcls.toNat) || (x.pcls == y.pcls && (decide (y.issued < x.issued) ||
    (x.issued == y.issued && decide (x.taskid.toNat < y.taskid.toNat))))

def State.victim (s : State) (p c : Nat) (keys : List Nat) : Option Nat :=
  (s.lowerTasks p c keys).foldl (fun (r : Option Nat) k => match r with
    | none => some k
    | some b => if s.victimBefore k b then some k else some b) none

/-- The single worker of a node that no unit takes: its cell and its record (R234, R304). -/
def State.lonelyWorker (s : State) (f : Fork) (home : Nat) : Option (State × Record) :=
  match s.freeCellAt (cellBase home []) with
  | none => none
  | some id => some (s.setCell id (some (f.cell 1 home)), f.record id 1 0 0 0 (handleOf id 1 f.creator) s.now)

/-- The work leaves the dispenser as a record for tile `home`. -/
def State.recordFor (s : State) (p : Nat) (w : Work) (home : Nat) : Option (State × Record) :=
  match w with
  | .record r => some (s.dropWaiting p r, r)
  | .node n => (s.lonelyWorker (s.nodeFork n) home).map (fun x => (x.1.modNode n (fun u => { u with state := .running }), x.2))

/-- A stall through which a gang record may pre-empt. -/
def State.gangStall (s : State) (p c ls : Nat) : Bool :=
  s.ownsArcade p (ls / 8) && !(s.stallClosed ls) && !(s.pstall (s.physStall ls)).omuRetired && (s.lstall ls).reserved.isNone &&
  (tilesOf ls).all (fun h => !(s.freeSlots h).isEmpty || !(s.lowerTasks p c (slotsOfTile h)).isEmpty)

/-- Tiles of a stall that lack a free slot. -/
def State.lacking (s : State) (ls : Nat) : List Nat := (tilesOf ls).filter (fun h => (s.freeSlots h).isEmpty)

/-- The qualifying stall that lacks the fewest free slots, the lowest-numbered on a tie (R314): by logical number, the model's choice
(notes/assumptions/83.md). -/
def State.gangStallFor (s : State) (p c : Nat) : Option Nat :=
  ((List.range 128).filter (s.gangStall p c)).foldl (fun (r : Option Nat) ls => match r with
    | none => some ls
    | some b => if (s.lacking ls).length < (s.lacking b).length then some ls else some b) none

/-- A tile of a stall reserved by pre-emption gets a victim, unless it has a slot to give or one is on its way (R314). -/
def State.pressTile (s : State) (p c h : Nat) : State :=
  if (slotsOfTile h).any (fun k => (s.slot k).held || (s.slot k).isFree || (s.slot k).stops.contains .preempt) then s
  else match s.victim p c (slotsOfTile h) with
    | some k => s.requestStop k .preempt
    | none => s

/-- Each tile of the stall without a free slot gets a victim. -/
def State.pressStall (s : State) (ls : Nat) : State :=
  match (s.lstall ls).reserved with
  | some r => if r.urgent then (tilesOf ls).foldl (fun t h => t.pressTile r.part.toNat r.pcls.toNat h) s else s
  | none => s

/-- A gang record pre-empts through a stall that it reserves; none when no stall qualifies. -/
def State.preemptGang (s : State) (p c : Nat) (w : Work) : Option State :=
  match s.gangStallFor p c with
  | none => none
  | some ls => (s.recordFor p w (ls * 16)).map (fun x =>
      (x.1.modLStall ls (fun l => { l with reserved := some { x.2 with urgent := true } })).pressStall ls)

/-- Any other record takes the slot of one victim, in a stall that is not withheld (R313) and with room for its leases; none without one. -/
def State.preemptTask (s : State) (p c : Nat) (w : Work) : Option State :=
  let open' (k : Nat) : Bool :=
    let h := homeOf k
    s.ownsArcade p (arcadeOf h) && !(s.stallClosed (stallOf h)) && (s.leaseRoom [h] w.lab w.lwb).isSome
  match s.victim p c ((s.slots.map (fun e => e.1)).filter open') with
  | none => none
  | some k => (s.recordFor p w (homeOf k)).map (fun x => (x.1.modSlot k (fun l => { l with next := some x.2 })).requestStop k .preempt)

/-- One piece of work pre-empts, when it has waited for PREWAIT. -/
def State.preemptFor (s : State) (p : Nat) (w : Work) : Option State :=
  if s.now < w.since + (s.part p).cfg.prewait then none
  else (if w.gang then s.preemptGang p (s.workClass w) w else s.preemptTask p (s.workClass w) w).map (fun t => t.idleQueue p w.queue)

/-- One piece of work comes before another: the higher class, then the order of arrival (R310). -/
def State.workBefore (s : State) (a b : Work) : Bool :=
  decide (s.workClass b < s.workClass a) || (s.workClass a == s.workClass b && decide (a.order ≤ b.order))

/-- PREEMPTION (R314): reservations made by pre-emption get the victims they still lack. Then the work that comes next, or else the first
of the others, pre-empts if it has waited for PREWAIT and finds a victim. -/
def execPreemption (part : BitVec 4) (s0 : State) : Outcome :=
  let p := part.toNat
  let s := (List.range 128).foldl (fun t ls => if t.ownsArcade p (ls / 8) then t.pressStall ls else t) s0
  match (match s.nextWork p with | some (w, t) => t.preemptFor p w | none => none) with
  | some t => .next t
  | none => .next (((sortBy s.workBefore (s.pendingWork p)).findSome? (s.preemptFor p)).getD s)

/-! Rotation (R321, R323, R348). -/

/-- Physical stalls of an arcade that self-test has not retired. -/
def State.rotatable (s : State) (a : Nat) : List Nat := ((List.range 8).map (fun i => a * 8 + i)).filter (fun k => !(s.pstall k).retired)

def State.logicTemp (s : State) (ps : Nat) : Nat := (s.pstall ps).temp.toNat

/-- The stall that comes first by a comparison of temperatures, the lowest-numbered on a tie. -/
def State.extreme (s : State) (lt : Nat → Nat → Bool) (ks : List Nat) : Option Nat :=
  ks.foldl (fun (r : Option Nat) k => match r with
    | none => some k
    | some b => if lt (s.logicTemp k) (s.logicTemp b) then some k else some b) none

/-- H and C of a tick; none when it makes no swap. -/
def State.rotation (s : State) (a : Nat) : Option (Nat × Nat) :=
  let e := s.rotatable a
  let hot := e.filter (fun k => (s.pstall k).hot)
  match s.extreme (fun x y => decide (y < x)) (if hot.isEmpty then e else hot) with
  | none => none
  | some h => match s.extreme (fun x y => decide (x < y)) (e.filter (fun k => k != h && !(s.pstall k).hot)) with
    | none => none
    | some c => if (s.pstall h).hot || decide (s.logicTemp c + 3 ≤ s.logicTemp h) then some (h, c) else none

/-- The image on a physical stall holds a gang member or a valid phase bank. -/
def State.holdsGang (s : State) (ps : Nat) : Bool :=
  let ls := s.logStall ps
  (s.lstall ls).active.valid || (s.lstall ls).shadow.valid || (slotsOfStall ls).any (fun k => (s.slot k).occupied && (s.slot k).gang)

/-- The swap would move such an image onto a stall whose OMU is retired (R348). -/
def State.swapBarred (s : State) (h c : Nat) : Bool :=
  ((s.pstall h).omuRetired && s.holdsGang c) || ((s.pstall c).omuRetired && s.holdsGang h)

/-- ROTATION_TICK (R321): the swap that the tick calls for begins, and the next tick becomes due. -/
def execRotationTick (arcade : BitVec 4) (s : State) : Outcome :=
  let a := arcade.toNat
  let due := s.tickDue a
  if s.now < due then .next s
  else
    let s1 := s.modArcade a (fun x => { x with due := some (tickAfter a x.rotivl.toNat due) })
    if (s.arcade a).swap.isSome then .next s1
    else match s.rotation a with
      | none => .next s1
      | some (h, c) =>
        if s.swapBarred h c then .next s1
        else .next (s1.modArcade a (fun x => { x with swap := some (s.logStall h, s.logStall c, due) }))

/-- A slot as the stop of R323 step 2 leaves it: a gang instruction stops with its arrival kept, a gather at its PIDX (R108), IDLE ends (R255);
the other waits go on as they stand. -/
def State.stopSlot (s : State) (key : Nat) : State :=
  let t := s.landLate key
  let l := t.slot key
  if l.performing && !l.uncut then t.modSlot key (fun m => { m with performing := false })
  else match l.phase with
  | .waiting (.gather g) => { ({ t with cur := key } : State).gatherStop g l.pidx.toNat with cur := t.cur }.modSlot key Slot.wake
  | .waiting .idle => t.modSlot key Slot.wake
  | _ => t

def State.stopStall (s : State) (ls : Nat) : State := (slotsOfStall ls).foldl State.stopSlot s

/-- What is no part of the stall image stays at its place: send queues and issue pointers of the tiles, and the WAITANY pointers of the slots
(R322). -/
def State.keepPlaces (s : State) (h c : Nat) : State :=
  let keep (t : State) (a b : Nat) : State := t.modTile a (fun x =>
    { x with sendReq := (s.tile b).sendReq, sendRpy := (s.tile b).sendRpy, ptr := (s.tile b).ptr })
  let s1 := (List.zip (tilesOf h) (tilesOf c)).foldl (fun t x => keep (keep t x.1 x.2) x.2 x.1) s
  let start (t : State) (a b : Nat) : State := t.modSlot a (fun l => { l with startPtr := (s.slot b).startPtr })
  (List.zip (slotsOfStall h) (slotsOfStall c)).foldl (fun t x =>
    if (s.slot x.1).startPtr = (s.slot x.2).startPtr then t else start (start t x.1 x.2) x.2 x.1) s1

/-- The L1s of the tiles of a physical stall are invalidated (R279, R322). -/
def State.flushL1 (s : State) (ps : Nat) : State := { s with l1 := s.l1.filter (fun e => e.1 / 1024 / 16 != ps) }

/-- The two map entries change places, and the settings of both images settle on their new OMUs (R322, R324). -/
def State.exchangeStalls (s : State) (a h c : Nat) : State :=
  let ph := s.physStall h
  let pc := s.physStall c
  let s1 := s.modArcade a (fun x => { x with map := (x.map.set (h % 8) (pc % 8)).set (c % 8) (ph % 8), swap := none })
  let s2 := (s1.modPStall ph (fun p => { p with settling := true })).modPStall pc (fun p => { p with settling := true })
  ((s2.keepPlaces h c).flushL1 ph).flushL1 pc

/-- SWAP_RELEASE (R323): it waits for instructions that complete first; the credits that waited are then delivered. The record's TIME is the
tick (R403). -/
def execSwapRelease (arcade : BitVec 4) (s : State) : Outcome :=
  let a := arcade.toNat
  match (s.arcade a).swap with
  | none => .next s
  | some (h, c, t) =>
    if (slotsOfStall h ++ slotsOfStall c).any (fun k => (s.slot k).uncut || !((s.slot k).hints.isEmpty)) then .next s
    else
      let s1 := ((s.stopStall h).stopStall c).exchangeStalls a h c
      .next (s1.releaseCredits.powerRecord (s.partOfArcade a) t 3 a (s.physStall h + s.physStall c * 2 ^ 7 + (s.now - t) % 2 ^ 32 * 2 ^ 16))

end Sys2Proof.Machine
end

