-- ==== Sys2Proof/Machine/Errors.lean ====
section
/-! DEFINITION. Errors and loss: machine-check records (R349), the loss of banks, layers and channels (R296 to R298), removed CXL
memory (R299, R418), errors of storage (R295, R346), and targeted self-test with retirement (R347, R348). -/

namespace Sys2Proof.Machine

/-! Machine-check records (R349, R406). -/

def Device.mcqOn (d : Device) : Bool := wbit d.mcqLen 63
def Device.mcqSize (d : Device) : Nat := 2 ^ field d.mcqLen 0 5

/-- Write one formed record; with the ring full or off it is counted as dropped. Vector 0 follows, on port 0. -/
def State.mcqPut (s : State) (r : BitVec 256) : State :=
  let d := s.dev
  if !d.mcqOn || (d.mcqTail - d.mcqHead).toNat == d.mcqSize then
    s.modDev (fun u => { u with mcqDrop := if u.mcqDrop = 0xFFFFFFFF then u.mcqDrop else u.mcqDrop + 1 })
  else
    ((s.commitDevice (field d.mcqBase 5 43 * 32 + 32 * (d.mcqTail.toNat % d.mcqSize)) 32 r.toNat).modDev (fun u => { u with mcqTail := u.mcqTail + 1 })).sendIrq
      0 0

/-- UNIT code of a unit. -/
def unitCode (u : UnitKind) : Nat :=
  match u with
  | .bank => 0
  | .bus => 1
  | .layer => 2
  | .channel => 3
  | .tile => 4
  | .omu => 5

/-- A record is formed; its write waits for a checkpoint (R417). -/
def State.machineCheck (s : State) (u : UnitKind) (cls : Nat) (c : BitVec 8) (number addr n : Nat) : State :=
  let r := BitVec.ofNat 256 (s.now + unitCode u * 2 ^ 64 + cls * 2 ^ 72 + c.toNat * 2 ^ 80 + number % 2 ^ 32 * 2 ^ 96 + addr % 2 ^ 64 * 2 ^ 128 + n % 2 ^ 64 * 2 ^ 192)
  if s.dev.ckBusy then s.modDev (fun d => { d with mcqWait := d.mcqWait ++ [r] }) else s.mcqPut r

/-- The records that waited for a checkpoint. -/
def State.flushMcq (s : State) : State := (s.dev.mcqWait.foldl State.mcqPut s).modDev (fun d => { d with mcqWait := [] })

/-! Loss (R296 to R298). -/

/-- The banks or channels of a unit, as keys of State.lost. -/
def lossKeys (u : UnitKind) (n : Nat) : List Nat :=
  match u with
  | .bank => [n % 8192]
  | .bus => (List.range 16).map (fun i => n % 512 * 16 + i)
  | .layer => (List.range 2048).map (fun i => i / 16 * 64 + n % 4 * 16 + i % 16)
  | .channel => [8192 + n]
  | .tile | .omu => []

/-- The mappings of frames whose storage is lost by `keys`: every leaf entry that names one. -/
def State.mappingsIn (s : State) (keys : List Nat) : List (Nat × Nat × Nat × Nat) :=
  (s.leaves.filter (fun l => (s.frameUnits (l.1 * 0x10000)).any keys.contains)).map (fun l => l.2)

/-- A segment's access set or version holds a granule of a page (R257, R258, R262). -/
def Segment.touchesPage (seg : Segment) (asid : BitVec 16) (vp : Nat) : Bool :=
  seg.accessed.any (fun e => e.1 / 2048 == vp) || seg.priv.any (fun e => e.1 / 2048 == vp) ||
  (!(seg.sigR.isEmpty && seg.sigW.isEmpty) &&
    (List.range 2048).any (fun i => let b := sigOf asid (vp * 2048 + i); fget false seg.sigR b || fget false seg.sigW b))

/-- The first lost page that a task's segment holds. -/
def Slot.lostPage (l : Slot) (ms : List (Nat × Nat × Nat × Nat)) : Option Nat :=
  (ms.find? (fun m => match m with
    | (p, a, vp, _) => p == l.part && a == l.asid.toNat && l.seg.touchesPage l.asid vp)).map (fun m => m.2.2.1 * 0x10000)

/-- Tasks whose segment holds a granule of a lost page end with cause 0x2D. -/
def State.endTouching (s : State) (ms : List (Nat × Nat × Nat × Nat)) : State :=
  let live := s.slots.foldl (fun t e => match (if e.2.occupied then e.2.lostPage ms else none) with
    | some v => t.endAt e.1 0x2D (BitVec.ofNat 64 v)
    | none => t) s
  (s.parts.flatMap (fun p => p.saved)).foldl (fun t x => match x.ctx.lostPage ms with
    | some v => t.finishSaved (taskPart x.ctx.taskid) x 0x2D (BitVec.ofNat 64 v)
    | none => t) live

/-- An entry of a mailbox both of whose copies are lost is reported to its sender as refused, with cause 0x81 (R229, R297). A migrant's sender is
the task itself, whose context is lost with the entry: it has ended, its leases are returned, and its creator gets the cause
(notes/assumptions/31.md). -/
def State.loseEntry (s : State) (m : Message) : State :=
  match m.migrant with
  | some c => s.endAway c 0x81
  | none => if m.barrier.isSome then s.creditError m.task m.sender.toNat 0x81 else s.deliver m.task m.sender.toNat 0x81 m.cookie

def State.loseMailboxes (s : State) : State :=
  s.tiles.foldl (fun t e =>
    if t.mailboxLost e.1 && !e.2.mailbox.isEmpty then
      e.2.mailbox.foldl (fun u m => u.loseEntry m) (t.modTile e.1 (fun x => { x with mailbox := [] }))
    else t) s

/-- Exchanges that involve a frame are abandoned. -/
def State.abandon (s : State) (p : Nat → Bool) : State :=
  (List.range 4).foldl (fun t q => match (t.quad q).exch with
    | some e => if p e.a || p e.b then t.endExchange q else t
    | none => t) s

/-- Steps 1 to 3 of R296: leaf entries, tasks, exchanges; and the mailboxes of R297. -/
def State.lose (s : State) (u : UnitKind) (n : Nat) : State :=
  let keys := lossKeys u n
  let ms := s.mappingsIn keys
  let s1 := ms.foldl (fun (t : State) m => t.rawWrite m.2.2.2 8 (t.rd m.2.2.2 8 % 2 ^ 14 + 3 * 2 ^ 14 + t.rd m.2.2.2 8 / 2 ^ 16 * 2 ^ 16)) s
  let s2 : State := { s1 with
    lost := keys.foldl (fun r k => fset false k true r) s1.lost
    rmap := s1.rmap.filter (fun e => !((s1.frameUnits (e.1 * 0x10000)).any keys.contains))
    dirty := s1.dirty.filter (fun e => !((s1.frameUnits (e.1 * 32)).any keys.contains)) }
  (((s2.endTouching ms).abandon (fun f => s2.isLost (f * 0x10000))).loseMailboxes).flushWaiting

/-- BANK_LOSS (R296): a unit that fails to answer for 10 µs. -/
def execBankLoss (unit : UnitKind) (number : BitVec 32) (s : State) : Outcome :=
  match unit with
  | .tile | .omu => .next s
  | u =>
    let n := number.toNat
    if (lossKeys u n).all (fun k => fget false s.lost k) then .next s
    else .next ((s.lose u n).machineCheck u 3 0 n 0 1)

/-! CXL (R299, R418). -/

def State.inCxl (s : State) (f : Nat) : Bool := s.storage (f * 0x10000) == .cxl

/-- CXL_REMOVAL (R299). -/
def execCxlRemoval (s : State) : Outcome :=
  if !s.dev.cxlLink then .next s
  else .next ((s.abandon s.inCxl).modDev (fun d => { d with cxlLink := false, cxlIn := false, cxlGone := true })).flushWaiting

/-- CXL_INSERTION (R418): the link is trained; the capacity joins the pool only at a write of CXLEN. -/
def execCxlInsertion (s : State) : Outcome :=
  .next (if s.dev.cxlPort1 then s.modDev (fun d => { d with cxlLink := true, portDown := d.portDown &&& 1 }) else s)

/-! Self-test (R347). -/

/-- The tested unit of an address: a near-memory bank or an HBM4 channel. -/
def State.testUnit (s : State) (pa : Nat) : Option (UnitKind × Nat) :=
  match s.storage pa with
  | .near => some (.bank, s.lossUnit pa)
  | .hbm => some (.channel, s.lossUnit pa - 8192)
  | .lpddr | .cxl | .hole => none

/-- The tested unit of a storage place: a stall cache is no unit that R347 tests. -/
def State.unitAt (s : State) (place : Storage) : Option (UnitKind × Nat) :=
  match place with
  | .regFile tile _ => some (.tile, s.physTile tile.toNat)
  | .buffer tile _ _ => some (.tile, s.physTile tile.toNat)
  | .l1Line pt _ _ => some (.tile, pt.toNat)
  | .versionLine _ _ _ | .committedLine _ => none
  | .memory pa => s.testUnit pa.toNat

/-- Address of a storage place, as a machine-check record gives it (R349). -/
def storageAddr (place : Storage) : Nat :=
  match place with
  | .memory pa | .committedLine pa => pa.toNat
  | .buffer _ _ off => off.toNat
  | .regFile _ _ | .l1Line _ _ _ | .versionLine _ _ _ => 0

/-- Errors of a unit in the last second. -/
def State.errorCount (s : State) (u : UnitKind) (n : Nat) : Nat :=
  (s.dev.errs.filter (fun e => e.1 == u && e.2.1 == n && decide (s.now < e.2.2 + 1000000000))).length

/-- An error that starts its unit's self-test; a tile's stops its stall as a swap does. -/
def State.testAfter (s : State) (u : UnitKind) (n : Nat) (c : BitVec 8) (addr : Nat) : State :=
  let s1 := (s.noteError u n).startTest u n c addr
  if u = .tile then s1.stopStall (s1.logStall (n / 16)) else s1

def State.testStorage (s : State) (pa : Nat) (c : BitVec 8) : State :=
  match s.testUnit pa with
  | some (u, n) => s.testAfter u n c pa
  | none => s

/-- CORRECTABLE_ERROR (R295, R346, R347): corrected and counted; one that repeats at its address within 1 s, a word of the place, starts the
self-test of its unit. -/
def execCorrectableError (pstall : BitVec 7) (place : Storage) (word : BitVec 32) (s : State) : Outcome :=
  let again := match s.dev.lastCe.find? (fun e => e.1 == place && e.2.1 == word) with
    | some e => decide (s.now < e.2.2 + 1000000000)
    | none => false
  let s1 := (s.modPStall pstall.toNat (fun p => { p with ceCount := p.ceCount + 1 })).modDev (fun d =>
    { d with lastCe := (place, word, s.now) :: d.lastCe.filter (fun e => !(e.1 == place && e.2.1 == word)) })
  .next (match s.unitAt place with
    | some (u, n) => if again then s1.testAfter u n 0 (storageAddr place) else s1.noteError u n
    | none => s1)

/-- Granules that an uncorrectable error of memory poisons (R295). The rule names no ECC unit of CXL memory: one granule there is the model's
choice (notes/assumptions/40.md). -/
def State.poisonAt (s : State) (pa : Nat) : State :=
  let g := pa / 32
  match s.storage pa with
  | .hole => s
  | .lpddr => { s with poison := fset false (g / 2 * 2) true (fset false (g / 2 * 2 + 1) true s.poison) }
  | .near | .hbm | .cxl => { s with poison := fset false g true s.poison }

/-- The segment that holds an uncommitted version's line is doomed (R346, R261). -/
def State.doomVersion (s : State) (task : Word) (home g : Nat) : State :=
  let hit (l : Slot) : Slot :=
    if l.seg.holdsLine g then
      { l with seg := { l.seg with doom := some (match l.seg.doom with
          | none => BitVec.ofNat 64 (g * 32)
          | some d => BitVec.ofNat 64 (Nat.min d.toNat (g * 32))) } }
    else l
  match s.findSlot task home with
  | some k => s.modSlot k hit
  | none => match s.findSaved task home with
    | some t => s.modSaved (taskPart task) t.area (fun u => { u with ctx := hit u.ctx })
    | none => s

/-- UNCORRECTABLE_ERROR (R295, R346 Table 4), and the self-test of its unit; a stall cache is no unit that R347 tests. -/
def execUncorrectableError (place : Storage) (s : State) : Outcome :=
  match place with
  | .regFile tile slot =>
    let k := keyOf tile slot
    let s1 := s.testAfter .tile (s.physTile tile.toNat) 0xC0 0
    .next (if (s.slot k).occupied && (s.slot k).taskid != 0 then s1.endAt k 0xC0 0 else s1)
  | .buffer tile space off =>
    let o := if space = 3 then off.toNat % 2 ^ 14 else off.toNat / 4 * 4
    .next ((s.modTile tile.toNat (fun t => { t with marked := fset 0 (space.toNat * 2 ^ 18 + o) 15 t.marked })).testAfter .tile
      (s.physTile tile.toNat) 0xC0 o)
  | .l1Line ptile set way =>
    let key := ptile.toNat * 1024 + set.toNat
    .next (({ s with l1 := fset [] key ((fget [] s.l1 key).eraseIdx way.toNat) s.l1 } : State).testAfter .tile ptile.toNat 0xC0 0)
  | .versionLine task tile granule => .next (s.doomVersion task tile.toNat (granule.toNat / 32))
  | .committedLine pa =>
    .next (if (fget none s.dirty (pa.toNat / 32)).isSome then { s with poison := fset false (pa.toNat / 32) true s.poison } else s)
  | .memory pa => .next ((s.poisonAt pa.toNat).testStorage pa.toNat 0x29)

/-! Retirement (R348). -/

/-- What waited for a slot or a reservation of a dead stall, and has no task yet, waits at the dispenser again (R312, R348). -/
def State.releaseStall (s : State) (ls : Nat) : State :=
  let s1 := (slotsOfStall ls).foldl State.returnNext s
  match (s1.lstall ls).reserved with
  | some r =>
    let s2 := s1.dropReservation ls
    if r.resumes then s2 else s2.modPart r.part.toNat (fun p => { p with waiting := p.waiting ++ [{ r with urgent := false }] })
  | none => s1

/-- The logical stall held by a retired physical stall is dead, and its tasks end with cause 0xC1 and the number of the failed tile: in slots,
switched out, and waiting as migrants in its mailboxes. -/
def State.retireStall (s : State) (tile : Nat) : State :=
  let ps := tile / 16
  let v := BitVec.ofNat 64 tile
  let ls := s.logStall ps
  let s1 := (s.modPStall ps (fun p => { p with retired := true })).modLStall ls (fun l => { l with dead := true })
  let s2 := (slotsOfStall ls).foldl (fun t k =>
    if (t.slot k).occupied && (t.slot k).taskid != 0 then t.endAt k 0xC1 v else t) s1
  let s3 := (s2.parts.flatMap (fun p => p.saved)).foldl (fun t x =>
    if stallOf x.home.toNat = ls then t.finishSaved (taskPart x.ctx.taskid) x 0xC1 v else t) s2
  ((tilesOf ls).foldl (fun t h => ((t.tile h).mailbox.filterMap (fun m => m.migrant)).foldl (fun u c => u.finishMailed c.taskid 0xC1 v) t) s3).releaseStall ls

def State.retire' (s : State) (u : UnitKind) (n : Nat) : State :=
  match u with
  | .bank | .bus | .layer | .channel => s.lose u n
  | .tile => s.retireStall n
  | .omu => s.modPStall n (fun p => { p with omuRetired := true })

/-- The physical stall of a unit under test is part of a rotation swap: the fault is handled after it (R324). -/
def State.unitSwapping (s : State) (u : UnitKind) (n : Nat) : Bool :=
  match u with
  | .tile =>
    (match (s.arcade (n / 128)).swap with
     | some (h, c, _) => s.physStall h == n / 16 || s.physStall c == n / 16
     | none => false)
  | _ => false

/-- SELF_TEST_COMPLETE (R347): the class, the record, and retirement. -/
def execSelfTestComplete (unit : UnitKind) (number : BitVec 32) (pass : Bool) (s : State) : Outcome :=
  let n := number.toNat
  match s.dev.tests.find? (fun t => t.1 == unit && t.2.1 == n) with
  | none => .next s
  | some (_, _, c, addr) =>
    if s.unitSwapping unit n then .next s
    else
      let k := s.errorCount unit n
      let cls := if !pass then 3 else if 3 ≤ k then 2 else 1
      let s1 := s.modDev (fun d => { d with tests := d.tests.filter (fun t => !(t.1 == unit && t.2.1 == n)) })
      .next ((if cls = 1 then s1 else s1.retire' unit n).releaseCredits.machineCheck unit cls c n addr k)

end Sys2Proof.Machine
end

