-- ==== Sys2Proof/Machine/Power.lean ====
section
/-! DEFINITION. Power and heat: operating points (R394 to R397), droop (R398), sensors (R290, R399), budgets (R400, R401), energy
quotas (R402), and the light (R360, R361). -/

namespace Sys2Proof.Machine

/-! Operating points (R309, R396, R397). -/

/-- The demand of a resident task in quadrant `q`, at most its partition's PMAX; handlers and migrants make none. -/
def State.demandOf (s : State) (q : Nat) (e : Nat × Slot) : Nat :=
  if e.2.occupied && quadOfArcade (arcadeOf (homeOf e.1)) == q then
    (match e.2.demand with
     | some d => Nat.min d.toNat (s.pmax e.2.part)
     | none => 0)
  else 0

/-- The highest demand of the tasks resident in a quadrant, P0 with none (R309). -/
def State.quadDemand (s : State) (q : Nat) : Nat := s.slots.foldl (fun r e => Nat.max r (s.demandOf q e)) 0

/-- The three conditions on a quadrant's point in the rule's order: present, steps by which it lowers, reason code (R397, R403). -/
def Quad.conditions (u : Quad) (moduleOver : Bool) : List (Bool × Nat × Nat) :=
  [(u.thermal, u.thermalSteps, 2), (u.overBudget, u.budgetSteps, 1), (moduleOver, u.moduleSteps, 3)]

/-- The steps by which a quadrant is lowered, and the reason code: those of the first condition that is present, or the more that are left of
a condition that is absent, whose point rises by one each 100 µs only (R397; log entry 68). -/
def Quad.lowered (u : Quad) (moduleOver : Bool) : Nat × Nat :=
  let cs := u.conditions moduleOver
  let first := ((cs.find? (fun c => c.1)).map (fun c => c.2)).getD (0, 0)
  (cs.filter (fun c => !c.1)).foldl (fun r c => if r.1 < c.2.1 then c.2 else r) (if first.1 = 0 then (0, 0) else first)

/-- The point that a quadrant should hold. -/
def State.targetPoint (s : State) (q : Nat) : Nat := s.quadDemand q - ((s.quad q).lowered s.dev.moduleOver).1

/-- Layers at the low near-memory clock, and the rest of a RATIO record; the length of the crossing stall is open up to 2 µs (R292, R403). -/
def State.ratioData (s : State) (p : Nat) : Nat :=
  pointMHz p + s.dev.nearLow.toNat * 2 ^ 16 + (Config.openBits s.steps 0).toNat % 2001 * 2 ^ 32

/-- OPERATING_POINT_CHANGE (R396): the quadrant takes the point that it should hold; during a stretch or throttle it waits (R398). A
POINT and a RATIO record follow. -/
def execOperatingPointChange (quad : BitVec 2) (s : State) : Outcome :=
  let q := quad.toNat
  let u := s.quad q
  let p := s.targetPoint q
  if p = u.point.toNat || u.droop != .normal then .next s
  else
    let s1 := s.modQuad q (fun x => { x with point := BitVec.ofNat 3 p })
    .next ((s1.quadRecord q s.now 1 (u.point.toNat + p * 8 + (u.lowered s.dev.moduleOver).2 * 2 ^ 6)).quadRecord q s.now 4 (s1.ratioData p))

/-- The steps left of a condition, and the TIME from which its next raise counts: absent for 100 µs, they fall by one, from no more than the
demand (R397). -/
def raised (steps demand : Nat) (present : Bool) (at' now : Nat) : Nat × Nat :=
  if present || decide (now < at' + 100000) then (steps, at') else (Nat.min steps demand - 1, now)

/-- POINT_RAISE (R397): each 100 µs a lowered point rises by one, for each condition that is absent. -/
def execPointRaise (quad : BitVec 2) (s : State) : Outcome :=
  let d := s.quadDemand quad.toNat
  .next (s.modQuad quad.toNat (fun u =>
    let th := raised u.thermalSteps d u.thermal u.thermalAt s.now
    let bu := raised u.budgetSteps d u.overBudget u.budgetAt s.now
    let mo := raised u.moduleSteps d s.dev.moduleOver u.moduleAt s.now
    { u with
      thermalSteps := th.1
      thermalAt := th.2
      budgetSteps := bu.1
      budgetAt := bu.2
      moduleSteps := mo.1
      moduleAt := mo.2 }))

/-! Budgets (R400, R401). -/

/-- QB of a quadrant, in watts. -/
def State.budget (s : State) (q : Nat) : Nat := s.dev.qb.getD q 110

/-- The samples of the latest 10 intervals, newest first. -/
def pushSample (w : Nat) (ws : List Nat) : List Nat := (w :: ws).take 10

/-- QUADRANT_POWER_SAMPLE (R400): one sample each 10 µs; a sample not yet taken counts as 0 W. -/
def execQuadrantPowerSample (quad : BitVec 2) (watts : BitVec 16) (s : State) : Outcome :=
  let q := quad.toNat
  let ws := pushSample watts.toNat (s.quad q).watts
  let sum := ws.sum
  let qb := s.budget q
  let u : Quad := { s.quad q with
    watts := ws
    calm := if 200 * sum < 10 * (190 * qb) then (s.quad q).calm + 1 else 0 }
  if !u.overBudget && decide (10 * qb < sum) then
    .next ((s.modQuad q (fun _ => { u with overBudget := true, overAt := s.now, calm := 0 })).quadRecord q s.now 6 (1 + sum / 10 * 2 ^ 16))
  else if u.overBudget && decide (100 ≤ u.calm) then
    .next ((s.modQuad q (fun _ => { u with overBudget := false, budgetAt := s.now })).quadRecord q s.now 6 (sum / 10 * 2 ^ 16))
  else if u.overBudget && decide (u.overAt + 100000 ≤ s.now) then
    .next (s.modQuad q (fun _ => { u with budgetSteps := Nat.min 7 (u.budgetSteps + 1), overAt := s.now }))
  else .next (s.modQuad q (fun _ => u))

/-- Every quadrant is lowered by one point. -/
def State.lowerAll (s : State) : State :=
  (List.range 4).foldl (fun t q => t.modQuad q (fun u => { u with moduleSteps := Nat.min 7 (u.moduleSteps + 1) })) s

/-- MODULE_POWER_SAMPLE (R401): one sample each 100 µs. -/
def execModulePowerSample (watts : BitVec 16) (s : State) : Outcome :=
  let ws := pushSample watts.toNat s.dev.watts
  let sum := ws.sum
  let s1 := s.modDev (fun d => { d with watts := ws })
  if 18000 < sum then
    if !s.dev.moduleOver then
      .next (((s1.modDev (fun d => { d with moduleOver := true, moduleAt := s.now })).lowerAll).allRecord 6 0 (1 + sum / 10 * 2 ^ 16 + 2 ^ 32))
    else if s.dev.moduleAt + 1000000 ≤ s.now then .next ((s1.modDev (fun d => { d with moduleAt := s.now })).lowerAll)
    else .next s1
  else if s.dev.moduleOver && decide (sum < 17100) then
    .next ((List.range 4).foldl (fun t q => t.modQuad q (fun u => { u with moduleAt := s.now }))
      ((s1.modDev (fun d => { d with moduleOver := false })).allRecord 6 0 (sum / 10 * 2 ^ 16 + 2 ^ 32)))
  else .next s1

/-! Droop (R398, R318). -/

/-- Voltage of a point, in mV (R395 Table 2). -/
def pointMV (k : Nat) : Nat := [620, 650, 680, 720, 760, 800, 850, 900].getD k 800

/-- Nominal voltage of a quadrant, in mV: that of its current point (R395). -/
def State.nominal (s : State) (q : Nat) : Nat := pointMV (s.quad q).point.toNat

/-- DROOP_ALARM (R398): the detector compares a supply of `supply` mV with the nominal voltage; more than DRTH × 2 mV below is an alarm, which
starts a new stretch, in a stretch and in a throttle too. -/
def execDroopAlarm (quad : BitVec 2) (supply : BitVec 16) (s : State) : Outcome :=
  let q := quad.toNat
  let th := ((s.quad q).threshold s.now).toNat
  if th = 0 || decide (s.nominal q ≤ supply.toNat + 2 * th) then .next s
  else .next (s.modQuad q (fun u => { u with
    droop := .stretch
    alarms := Nat.min 0xFFFF (u.alarms + 1)
    firstAlarm := if u.alarms = 0 then s.now else u.firstAlarm }))

/-- STRETCH_END (R398): the throttle begins. -/
def execStretchEnd (quad : BitVec 2) (s : State) : Outcome :=
  .next (if (s.quad quad.toNat).droop == .stretch then s.modQuad quad.toNat (fun u => { u with droop := .throttle }) else s)

/-- THROTTLE_END (R318, R398): the DROOP record of the alarms so far. -/
def execThrottleEnd (quad : BitVec 2) (s : State) : Outcome :=
  let q := quad.toNat
  let u := s.quad q
  if u.droop == .throttle then
    .next ((s.modQuad q (fun x => { x with droop := .normal, alarms := 0, firstAlarm := 0 })).quadRecord q u.firstAlarm 2
      (u.alarms + (s.now - u.firstAlarm) % 2 ^ 32 * 2 ^ 16))
  else .next s

/-! Sensors (R290, R397, R399). -/

/-- The readings of a stall's sensors: banks as layer * 16 + bank. -/
def PStall.sensed (p : PStall) (logic : BitVec 8) (banks : List (BitVec 8)) : PStall :=
  { p with
    temp := logic
    bankTemp := (List.range 64).foldl (fun m i => fset 0 i (banks.getD i 0) m) [] }

/-- The highest raw reading. -/
def PStall.hottest (p : PStall) : Nat := p.bankTemp.foldl (fun r e => Nat.max r e.2.toNat) p.temp.toNat

/-- A bank has reached step 100 °C: its reading rounds up to it (R290). -/
def PStall.hotBank (p : PStall) : Bool := p.bankTemp.any (fun e => decide (95 < e.2.toNat))

/-- HOT is marked or cleared, with its record (R399, R403). -/
def State.markHot (s : State) (ps : Nat) : State :=
  let p := s.pstall ps
  let part := s.partOfArcade (ps / 8)
  let logic := decide (100 ≤ p.temp.toNat)
  if !p.hot && (logic || p.hotBank) then
    (s.modPStall ps (fun x => { x with hot := true, hotLogic := logic })).powerRecord part s.now 5 ps (1 + logic.toNat * 2 + p.hottest * 2 ^ 8)
  else if p.hot && decide (p.hottest < 95) then
    (s.modPStall ps (fun x => { x with hot := false, hotLogic := false })).powerRecord part s.now 5 ps (p.hotLogic.toNat * 2 + p.hottest * 2 ^ 8)
  else s

/-- The thermal emergency of a quadrant begins or ends (R397). -/
def State.emergency (s : State) (q : Nat) : State :=
  let temps := (List.range 32).map (fun i => (s.pstall (q * 32 + i)).temp.toNat)
  if temps.any (fun t => decide (115 ≤ t)) then s.modQuad q (fun u => { u with thermal := true, thermalSteps := 7 })
  else if (s.quad q).thermal && temps.all (fun t => decide (t < 105)) then s.modQuad q (fun u => { u with thermal := false, thermalAt := s.now })
  else s

/-- Banks whose sensor passes 110 °C are lost (R290, R296). -/
def State.loseHotBanks (s : State) (ps : Nat) : State :=
  ((s.pstall ps).bankTemp.filter (fun e => decide (110 < e.2.toNat))).foldl (fun t e =>
    let n := ps * 64 + e.1
    if fget false t.lost n then t else (t.lose .bank n).machineCheck .bank 3 0 n 0 1) s

/-- SENSOR_SAMPLE (R399). -/
def execSensorSample (pstall : BitVec 7) (logic : BitVec 8) (banks : List (BitVec 8)) (s : State) : Outcome :=
  let ps := pstall.toNat
  .next ((((s.modPStall ps (fun p => p.sensed logic banks)).markHot ps).emergency (ps / 32)).loseHotBanks ps)

/-! Energy quotas (R342, R402). -/

/-- A charge in whole microjoules: QUOTA first, the rest to DEBT; an unlimited quota is never charged. -/
def Slot.pay (l : Slot) (w : Nat) : Slot :=
  if l.quota = 0xFFFFFFFFFFFF then l
  else if l.quota.toNat < w then { l with quota := 0, debt := l.debt + BitVec.ofNat 64 (w - l.quota.toNat) }
  else { l with quota := BitVec.ofNat 48 (l.quota.toNat - w) }

/-- The share of `energy` that falls to the slot's units out of `total`, with the fraction carried (R402). -/
def Slot.share (l : Slot) (energy total : Nat) : Slot :=
  let n := l.carry.1 * total + energy * l.units * l.carry.2
  let d := l.carry.2 * total
  let g := Nat.gcd (n % d) d
  { (l.pay (n / d)) with units := 0, carry := (n % d / g, d / g) }

/-- A charge has brought QUOTA to 0, or went beyond it. -/
def Slot.spent (old new : Slot) : Bool := new.quota == 0 && (old.quota != 0 || new.debt != old.debt)

/-- Charge the slots of a quadrant; a QUOTA that reaches 0 stops its task. -/
def State.chargeSlots (s : State) (q energy total : Nat) : State :=
  (s.slots.filter (fun e => e.2.occupied && quadOfArcade (arcadeOf (homeOf e.1)) == q && e.2.units != 0)).foldl (fun t e =>
    let u := t.modSlot e.1 (fun l => l.share energy total)
    if e.2.spent (u.slot e.1) then u.requestStop e.1 .quota else u) s

/-- A quota stop of a switched-out task that waits in a run queue: its record goes, with those of its gang, and the QUOTA record is written
(R342, R403). -/
def State.stopSaved (s : State) (x : Saved) : State :=
  let p := taskPart x.ctx.taskid
  let all := (s.part p).saved.filter (fun t => t.area == x.area || (x.ctx.gang && t.ctx.taskid == x.ctx.taskid))
  if !(all.any (fun t => t.queued)) then s
  else
    let s1 := all.foldl (fun t y => t.keepOut y) s
    (s1.mapTiles (fun t => { t with runq := t.runq.filter (fun r => !(r.part.toNat == p && all.any (fun y => r.kind == .saved y.area))) })).powerRecord p s.now 8
      (s.physStall (stallOf x.home.toNat)) (field x.ctx.taskid 0 48)

/-- Charge switched-out tasks, in their areas. -/
def State.chargeSaved (s : State) (q energy total : Nat) : State :=
  ((s.parts.flatMap (fun p => p.saved)).filter (fun t => quadOfArcade (arcadeOf t.home.toNat) == q && t.ctx.units != 0)).foldl (fun u t =>
    let c0 := u.readContext t.area t.ctx
    let c := c0.share energy total
    let v := (u.writeContext t.area t.home.toNat c).modSaved (taskPart t.ctx.taskid) t.area (fun x => { x with ctx := c })
    if c0.spent c then v.stopSaved { t with ctx := c } else v) s

/-- ENERGY_CHARGE (R402): the energy of a quadrant over 10 µs, in µJ, is divided by units. -/
def execEnergyCharge (quad : BitVec 2) (energy : BitVec 48) (s : State) : Outcome :=
  let q := quad.toNat
  let live := ((s.slots.filter (fun e => e.2.occupied && quadOfArcade (arcadeOf (homeOf e.1)) == q)).map (fun e => e.2.units)).sum
  let out := (((s.parts.flatMap (fun p => p.saved)).filter (fun t => quadOfArcade (arcadeOf t.home.toNat) == q)).map (fun t => t.ctx.units)).sum
  if live + out = 0 then .next s
  else .next ((s.chargeSlots q energy.toNat (live + out)).chargeSaved q energy.toNat (live + out))

/-! Light (R360, R361). -/

/-- Every OMU shows the source in use (R359). -/
def State.showSource (s : State) : State :=
  (List.range 128).foldl (fun t k => t.modPStall k (fun p => { p with omustat := putField p.omustat 21 1 s.dev.source.toNat })) s

/-- An activation slot of the pass is streaming: its image is in place and settled, and its ring slots are filled. -/
def State.streams (s : State) (ls : Nat) (keys : List Nat) (qa : BitVec 3) (n : BitVec 4) (chain : BitVec 1) : Bool :=
  let (l0, v0) := s.lead keys
  let i := l0.pidx.toNat
  s.meshFree ls && !(chain == 1 && i % mxpG v0 == 0 && l0.chained != some (l0.pc, i)) &&
  s.allFilled keys qa (Nat.min (l0.count1 n) (mxpK v0 * mxpG v0 - i))

/-- A free number from `a` to below `b`; `b` when there is none. -/
def State.openFrom (s : State) (k a b : Nat) : Nat := if a < b then a + (Config.openBits s.steps k).toNat % (b - a) else b

/-- The pass stops for want of light: the slot that streams is completed first, and every member takes cause 0x67 with the PIDX of the slot at
which a line first fell, which is open among those of this pass (R178, R361). -/
def State.darkenPass (s : State) (ps ls : Nat) (keys : List Nat) (qa : BitVec 3) (n : BitVec 4) (chain : BitVec 1) : State :=
  let (l0, v0) := s.lead keys
  let i := l0.pidx.toNat
  let v (b : Nat) : Word := BitVec.ofNat 64 (s.openFrom ps l0.passFrom.toNat b)
  if s.streams ls keys qa n chain then
    match (s.chargeGang keys).streamSlot ls keys qa v0 i with
    | .error x => s.gangFail ls keys x
    | .ok t => t.gangTrap keys 0x67 (v (i + 1))
  else s.gangTrap keys 0x67 (v i)

/-- LIGHT becomes 0 at an OMU: a pass or probe in progress stops, and its members take cause 0x67 (R178, R361). -/
def State.darken (s : State) (ps : Nat) : State :=
  let s1 := s.modPStall ps (fun p => { p with omustat := putField p.omustat 20 1 0 })
  let ls := s1.logStall ps
  (s1.gangTasks ls).foldl (fun t x => match t.gangAt ls x with
    | some (keys, .mxp qa _ n _ chain) => if t.inPass keys then t.darkenPass ps ls keys qa n chain else t
    | some (keys, .probe _) => if t.inPass keys then t.gangTrap keys 0x67 0 else t
    | _ => t) s1

def Device.sourceLost (d : Device) (src : BitVec 1) : Bool := if src = 0 then d.lost0 else d.lost1
def Device.setLost (d : Device) (src : BitVec 1) (x : Bool) : Device := if src = 0 then { d with lost0 := x } else { d with lost1 := x }

/-- Every lane of the device is dark (R388). -/
def State.darkLanes (s : State) : State :=
  (List.range 16).foldl (fun t b => t.modBundle b (fun x => (List.range 9).foldl (fun y i => y.modLane i (fun l => { l with dark := true })) x)) s

/-- The source in use is lost: the other takes over, or both are lost; a LIGHT record says which (R360, R403). -/
def State.switchSource (s0 : State) : State :=
  let s := s0.darkLanes
  let cur := s.dev.source
  let other := 1 - cur
  let s1 := s.modDev (fun d => d.setLost cur true)
  if s1.dev.sourceLost other then s1.allRecord 7 0 (cur.toNat + 2)
  else ((s1.modDev (fun d => { d with source := other })).showSource).allRecord 7 0 other.toNat

/-- LINE_LOSS (R360): the OMUs that lost a compute line, and whether the source itself is lost. -/
def execLineLoss (stalls : BitVec 128) (source : Bool) (s : State) : Outcome :=
  let s1 := ((List.range 128).filter (fun k => stalls.getLsbD k)).foldl State.darken s
  .next (if source && !(s.dev.sourceLost s.dev.source) then s1.switchSource else s1)

/-- LIGHT_RECOVERY (R360): the recovery probe of an OMU, not during a settle (R356), then LIGHT, RHO and EBC; none while both sources are lost.
The pilots that were due without light have been skipped (R357). -/
def execLightRecovery (pstall : BitVec 7) (rho : BitVec 16) (s : State) : Outcome :=
  let ps := pstall.toNat
  if (s.pstall ps).light || (s.pstall ps).settling || s.dev.sourceLost s.dev.source || s.testing .omu ps then .next s
  else .next (s.modPStall ps (fun p => let x := p.writeRho rho; { x with omustat := putField x.omustat 20 1 1, pilotFrom := s.now }))

/-- SOURCE_RESTORED (R360): the controller reports a source restored; with both lost the device goes over to it. -/
def execSourceRestored (src : BitVec 1) (s : State) : Outcome :=
  let both := s.dev.lost0 && s.dev.lost1
  let s1 := s.modDev (fun d => d.setLost src false)
  .next (if both then ((s1.modDev (fun d => { d with source := src })).showSource).allRecord 7 0 src.toNat else s1)

end Sys2Proof.Machine
end

