-- ==== Sys2Proof/Machine/Fabric.lean ====
section
/-! DEFINITION. The fabric (R362 to R393): hops (R379), the receiving side of paths (R372, R373, R381, R391), confirmations and failures
(R375, R376, R390), the establishment of paths (R374), lanes (R384 to R388), and modules that go and come (R389 to R393). -/

namespace Sys2Proof.Machine

/-! Window stores that end. -/

/-- Window stores fail (R376). -/
def State.failStores (s : State) (ws : List WStore) (c : BitVec 8) : State :=
  ws.foldl (fun t w => (t.settle w.task).failStore w.task w.home c w.va) s

/-- The stores of a path for which `p` holds end: applied with cause 0, or failed with a cause. -/
def State.endStores (s : State) (dst : BitVec 18) (cls : BitVec 3) (p : WStore → Bool) (c : BitVec 8) : State :=
  match s.txPath dst cls with
  | none => s
  | some x =>
    let out := x.stores.filter p
    let t := s.modTx dst cls (fun q => { q with stores := q.stores.filter (fun w => !(p w)) })
    if c = 0 then out.foldl (fun u w => u.settle w.task) t else t.failStores out c

/-- What can leave a path leaves it. -/
def State.sendPath (s : State) (dst : BitVec 18) (cls : BitVec 3) : State :=
  match s.txPath dst cls with
  | none => s
  | some x => s.sendAll dst cls x.stores.length

/-! The receiving side of a path. -/

def State.rxPath (s : State) (src : BitVec 18) (cls : BitVec 3) : Option RxPath := s.rx.find? (fun p => p.src == src && p.cls == cls)
def State.modRx (s : State) (src : BitVec 18) (cls : BitVec 3) (f : RxPath → RxPath) : State :=
  { s with rx := s.rx.map (fun p => if p.src == src && p.cls == cls then f p else p) }

/-- A path that the first flit meets. -/
def State.needRx (s : State) (src : BitVec 18) (cls : BitVec 3) : State :=
  if (s.rxPath src cls).isSome then s else { s with rx := s.rx ++ [{ src := src, cls := cls }] }

/-- Bytes that a flit writes, by physical address: each masked element widened (R370, R372). -/
def flitBytes (f : Flit) (base : Nat) : Nat → Bytes
  | 0 => []
  | i + 1 =>
    let lf := f.lfmt.toNat
    let lb := localBytes lf
    let kb := linkBytes lf
    let m := flitBytes f base i
    if f.mask.getLsbD i then wrV m (base + i * lb) lb (widen lf (bits f.data.toNat (8 * kb * i + 8 * kb - 1) (8 * kb * i))) else m

/-- Elements of a flit's span. -/
def flitElems (lfmt : Nat) : Nat := spanBytes lfmt / localBytes lfmt

/-- One granule of a reflected store is one committed write (R260, R372); one to removed CXL memory is dropped (R299). -/
def State.commitReflected (s : State) (b : Bytes) (g : Nat) : State :=
  if s.deepGone (g * 32) then s
  else
  let d := granuleOf b (g * 32) 32
  let s0 := s.uncachePhys g
  let s1 : State := { s0 with
    mem := wrMask s.mem (g * 32) 32 d.1 d.2
    dirty := fset none g none s.dirty
    commits := s.commits + 1
    poison := if d.2 == 2 ^ 32 - 1 then fset false g false s.poison else s.poison }
  (if s.inTable g then s.tlbUpdate s1 else s1).doomPhys [g]

/-- The receive directory entry of a page after one more application: SENDER is set by the first since STAT was cleared (R368, R372). -/
def State.noteApplied (s : State) (f : Flit) (entry : Nat) : State :=
  let n := (s.rd (entry + 8) 8 + 1) % 2 ^ 64
  let s1 := if fget false s.dev.senders entry then s
    else (s.commitDevice entry 4 f.src.toNat).modDev (fun d => { d with senders := fset false entry true d.senders })
  s1.commitDevice (entry + 8) 8 n

/-- The check of R372, and R382: the flit is refused. -/
def State.refuses (s : State) (f : Flit) : Bool :=
  let p := (s.part f.tpart.toNat).cfg
  p.rxlen == 0 || decide (6 < f.lfmt.toNat) || decide (p.rxlen * 0x10000 < f.off.toNat + spanBytes f.lfmt.toNat) ||
  (!f.sealedStore && !(sameEnclosure f.src s.dev.devno))

/-- A flit in its turn: applied, or refused with FAIL and cause 0xA3. -/
def State.applyFlit (s : State) (f : Flit) : State :=
  if s.refuses f then s.ctlEnds 0x11 f.src [f.cls.toNat, f.eseq.toNat, f.eseq.toNat, 0xA3]
  else
    let p := (s.part f.tpart.toNat).cfg
    let b := flitBytes f (p.rxbase.toNat + f.off.toNat) (flitElems f.lfmt.toNat)
    (((versionGranules b).foldl (fun t g => t.commitReflected b g) s).noteApplied f (p.rxdir.toNat + 16 * (f.off.toNat / 0x10000))).modRx f.src f.cls
      (fun q => { q with done := f.eseq.toNat + 1 })

/-- A range of ESEQ holds `e`. -/
def covers (g : Nat × Nat) (e : Nat) : Bool := decide (g.1 ≤ e) && decide (e < g.1 + g.2)

/-- The ESEQ at which a path goes on past abandoned flits: the next that is held or of a failed group, at most `floor` (R373). -/
def RxPath.skipTo (p : RxPath) : Nat :=
  ((p.held.map (fun f => f.eseq.toNat) ++ p.failed.map (fun g => g.1)).filter (fun e => decide (p.next < e))).foldl Nat.min p.floor

/-- The next step of a path in ESEQ order: a failed group and abandoned flits are passed over, a flit is applied, a sealed one with its group
(R373, R381). -/
def State.rxStep (s : State) (src : BitVec 18) (cls : BitVec 3) : Option State :=
  match s.rxPath src cls with
  | none => none
  | some p =>
    if s.dev.ckBusy then none
    else match p.failed.find? (fun g => covers g p.next) with
    | some g => some (s.modRx src cls (fun q => { q with next := g.1 + g.2, failed := q.failed.erase g }))
    | none => match p.held.find? (fun f => f.eseq.toNat == p.next) with
      | none => if p.next < p.floor then some (s.modRx src cls (fun q => { q with next := p.skipTo })) else none
      | some f =>
        if f.sealedStore && !(p.groups.any (fun g => covers g p.next)) then none
        else some ((s.modRx src cls (fun q =>
          { q with
            next := q.next + 1
            held := q.held.erase f
            groups := q.groups.filter (fun g => decide (p.next + 1 < g.1 + g.2)) })).applyFlit f)

/-- All that can be applied now. -/
def State.rxDrain (src : BitVec 18) (cls : BitVec 3) : Nat → State → State
  | 0, s => s
  | n + 1, s => match s.rxStep src cls with
    | some t => State.rxDrain src cls n t
    | none => s

def RxPath.steps (p : RxPath) : Nat := 2 * (p.held.length + p.failed.length) + 1

/-- Apply, and confirm with APPLIED the highest ESEQ applied (R375). -/
def State.advance (s : State) (src : BitVec 18) (cls : BitVec 3) : State :=
  match s.rxPath src cls with
  | none => s
  | some p =>
    let t := State.rxDrain src cls p.steps s
    match t.rxPath src cls with
    | some q => if q.done == p.done then t else t.ctlEnds 0x10 src [cls.toNat, q.done - 1]
    | none => t

/-- Every path goes on after a checkpoint. -/
def State.advanceAll (s : State) : State := s.rx.foldl (fun t p => t.advance p.src p.cls) s

/-- Key under which a group is verified: by the sender's own record on this device, else by the target's. -/
def State.verifyKey (s : State) (p : RxPath) (t : TagFlit) : BitVec 256 :=
  if t.src = s.dev.devno then s.pathKey t.spart t.tpart p.salt t.src t.dst t.cls else s.pathKey t.tpart t.spart p.salt t.src t.dst t.cls

/-- The flits of a tag's group that are held, in ESEQ order. -/
def RxPath.groupFlits (p : RxPath) (t : TagFlit) : List Flit :=
  (List.range t.n.toNat).filterMap (fun i => p.held.find? (fun f => f.eseq.toNat == t.eseq.toNat + i))

/-- A tag whose whole group is held is verified: the group is opened and may be applied, or fails with cause 0xA3 (R381). -/
def State.verifyTag (s : State) (src : BitVec 18) (cls : BitVec 3) (t : TagFlit) : State :=
  match s.rxPath src cls with
  | none => s
  | some p =>
    let fl := p.groupFlits t
    let g := (t.eseq.toNat, t.n.toNat)
    let key := s.verifyKey p t
    let nonce := groupNonce t.src t.dst t.cls t.eseq.toNat
    if fl.length != t.n.toNat then s
    else if groupTag key nonce fl = t.tag then
      s.modRx src cls (fun q => { q with
        groups := q.groups ++ [g]
        tags := q.tags.erase t
        held := q.held.map (fun f => if covers g f.eseq.toNat then crypt key nonce (f.eseq.toNat - g.1) f else f) })
    else
      (s.modRx src cls (fun q => { q with
        failed := q.failed ++ [g]
        tags := q.tags.erase t
        held := q.held.filter (fun f => !(covers g f.eseq.toNat)) })).ctlEnds 0x11 src [cls.toNat, g.1, g.1 + g.2 - 1, 0xA3]

def State.verifyAll (s : State) (src : BitVec 18) (cls : BitVec 3) : State :=
  match s.rxPath src cls with
  | none => s
  | some p => p.tags.foldl (fun t x => t.verifyTag src cls x) s

/-! Control flits that arrive (R383). -/

/-- A copy with a bad CRC, or a later copy of one acted on within the 1 ms for which its identifier is unique. -/
def State.ctlStale (s : State) (h : CtlHead) : Bool :=
  !h.good || s.dev.heard.any (fun e => e.1 == h.src && e.2.1 == h.cid && decide (s.now < e.2.2 + 1000000))

/-- The first good copy is acted on. -/
def State.onCtl (s : State) (h : CtlHead) (act : State → State) : Outcome :=
  .next (if s.ctlStale h then s
    else act (s.modDev (fun d => { d with heard := (h.src, h.cid, s.now) :: d.heard.filter (fun e => decide (s.now < e.2.2 + 1000000)) })))

/-! The receiving side of a path. -/

/-- A store of this device to itself that has left and is not confirmed: it uses no link (R363). -/
def State.sentHere (s : State) (f : Flit) : Bool :=
  match s.txPath s.dev.devno f.cls with
  | some p => p.stores.any (fun w => w.sent && w.flit == f)
  | none => false

/-- A flit addressed to this device enters its path, unless its sender is gone or it has been passed or abandoned (R373, R391). -/
def State.enterFlit (s : State) (f : Flit) : State :=
  if f.dst != s.dev.devno || fget false s.gone f.src.toNat then s
  else
    let t := s.needRx f.src f.cls
    match t.rxPath f.src f.cls with
    | none => t
    | some p =>
      if decide (f.eseq.toNat < Nat.max p.next p.floor) || p.held.any (fun h => h.eseq == f.eseq) || p.failed.any (fun g => covers g f.eseq.toNat) then t
      else ((t.modRx f.src f.cls (fun q => { q with held := q.held ++ [f] })).verifyAll f.src f.cls).advance f.src f.cls

/-- A tag enters its path. -/
def State.enterTag (s : State) (t : TagFlit) : State :=
  if t.dst != s.dev.devno || fget false s.gone t.src.toNat || t.n == 0 || decide (8 < t.n.toNat) then s
  else
    let u := s.needRx t.src t.cls
    match u.rxPath t.src t.cls with
    | none => u
    | some p =>
      if decide (t.eseq.toNat < p.next) || p.tags.any (fun x => x.eseq == t.eseq) then u
      else ((u.modRx t.src t.cls (fun q => { q with tags := q.tags ++ [t] })).verifyTag t.src t.cls t).advance t.src t.cls

/-! Hops (R379, R384). -/

def State.enterItem (s : State) (i : HopItem) : State :=
  match i with
  | .store f => s.enterFlit f
  | .tag t => s.enterTag t

def State.modHop (s : State) (b : Nat) (c : BitVec 3) (f : HopChan → HopChan) : State := s.modBundle b (fun x => x.modChan c.toNat f)

/-- A flit is discarded: NAK names the first missing SEQ, unless the receiver waits for it already. -/
def State.hopNak (s : State) (b : Nat) (c : BitVec 3) : State :=
  let ch := (s.bundle b).chan c.toNat
  if ch.nakWait then s else (s.modHop b c (fun h => { h with nakWait := true })).ctlHop 0x02 b [c.toNat, ch.rxNext.toNat]

/-- The next flit in SEQ order is taken; every 256 are acknowledged. -/
def State.hopNext (s : State) (b : Nat) (c : BitVec 3) : Option State :=
  let ch := (s.bundle b).chan c.toNat
  match ch.early.find? (fun i => itemSeq i == ch.rxNext) with
  | none => none
  | some i =>
    let full := ch.unacked == 255
    let s1 := s.modHop b c (fun h => { h with
      rxNext := h.rxNext + 1
      nakWait := false
      unacked := if full then 0 else h.unacked + 1
      early := h.early.erase i })
    some ((if full then s1.ctlHop 0x01 b [c.toNat, ch.rxNext.toNat] else s1).enterItem i)

def State.hopDrain (b : Nat) (c : BitVec 3) : Nat → State → State
  | 0, s => s
  | n + 1, s => match s.hopNext b c with
    | some t => State.hopDrain b c n t
    | none => s

/-- A good flit of a channel: an old one and, while a NAK stands, any but the one it names are discarded; the channel's SEQ order is restored
over the lanes before a flit is acted on. -/
def State.hopArrive (s : State) (b : Nat) (i : HopItem) : State :=
  let c := (itemPath i).2
  let ch := (s.bundle b).chan c.toNat
  if decide (0x8000 ≤ (itemSeq i - ch.rxNext).toNat) || (ch.nakWait && itemSeq i != ch.rxNext) || ch.early.any (fun x => itemSeq x == itemSeq i) then s
  else State.hopDrain b c (ch.early.length + 1) (s.modHop b c (fun h => { h with early := h.early ++ [i] }))

/-- CRC errors of a lane in the last 1 ms (R385). -/
def State.laneErrors (s : State) (b i : Nat) : Nat := (((s.bundle b).lane i).errs.filter (fun t => decide (s.now < t + 1000000))).length

def State.noteCrc (s : State) (b i : Nat) : State :=
  s.modBundle b (fun x => x.modLane i (fun l => { l with errs := s.now :: l.errs.filter (fun t => decide (s.now < t + 1000000)) }))

/-- 64 bytes arrive on a lane, or come round from the device itself with no link (R363, R379). -/
def State.hopReceive (s : State) (b lane : Nat) (raw : BitVec 512) : State :=
  if !crcGood raw then (s.noteCrc b lane).hopNak b (wireClass raw)
  else match readFlit raw with
  | none => s
  | some i =>
    if itemSrc i = s.dev.devno then
      match i with
      | .store f => if s.sentHere f then s.enterFlit f else s
      | .tag t => s.enterTag t
    else if Config.hopFull s.steps then s.hopNak b (itemPath i).2
    else s.hopArrive b i

/-- STORE_FLIT (R372, R373, R379). -/
def execStoreFlit (bundle lane : BitVec 4) (raw : BitVec 512) (s : State) : Outcome := .next (s.hopReceive bundle.toNat lane.toNat raw)

/-- TAG_FLIT (R381). -/
def execTagFlit (bundle lane : BitVec 4) (raw : BitVec 512) (s : State) : Outcome := .next (s.hopReceive bundle.toNat lane.toNat raw)

/-- Paths whose waiting stores a bundle's channel carries go on when its replay store has room. -/
def State.sendWaiting (s : State) (c : BitVec 3) : State := s.tx.foldl (fun t p => if p.cls == c then t.sendPath p.dst p.cls else t) s

/-- Room in a replay store is used. -/
def State.hopFlow (s : State) (b : Nat) (c : BitVec 3) : State :=
  (s.modBundle b (fun x => x.flow c (x.chan c.toNat).queue.length)).sendWaiting c

/-- ACK (R379): flits up to the named one are acknowledged. -/
def execAck (head : CtlHead) (bundle : BitVec 4) (vc : BitVec 3) (seq : BitVec 16) (s : State) : Outcome :=
  s.onCtl head (fun t =>
    let l := ((t.bundle bundle.toNat).chan vc.toNat).replay
    if l.any (fun e => e.seq == seq) then
      (t.modHop bundle.toNat vc (fun h => { h with replay := (l.dropWhile (fun e => e.seq != seq)).drop 1 })).hopFlow bundle.toNat vc
    else t)

/-- A flit is sent again, on the lane of the weights of now. -/
def Bundle.again (b : Bundle) (cls : BitVec 3) (e : HopSent) : HopSent := { e with lane := b.pickLane cls e.seq }

/-- NAK (R379): the flits before the named one have arrived, and those from it on are sent again. -/
def execNak (head : CtlHead) (bundle : BitVec 4) (vc : BitVec 3) (seq : BitVec 16) (s : State) : Outcome :=
  s.onCtl head (fun t =>
    let x := t.bundle bundle.toNat
    let l := (x.chan vc.toNat).replay
    if l.any (fun e => e.seq == seq) then
      (t.modHop bundle.toNat vc (fun h => { h with replay := (l.dropWhile (fun e => e.seq != seq)).map (x.again vc) })).hopFlow bundle.toNat vc
    else t)

/-- NAK_REPEAT (R379): every 2 µs while the receiver waits. -/
def execNakRepeat (bundle : BitVec 4) (vc : BitVec 3) (s : State) : Outcome :=
  let h := (s.bundle bundle.toNat).chan vc.toNat
  .next (if h.nakWait then s.ctlHop 0x02 bundle.toNat [vc.toNat, h.rxNext.toNat] else s)

/-- ACK_TIMER (R379): 1 µs after a flit. -/
def execAckTimer (bundle : BitVec 4) (vc : BitVec 3) (s : State) : Outcome :=
  let b := bundle.toNat
  let h := (s.bundle b).chan vc.toNat
  .next (if h.unacked = 0 then s
    else (s.modHop b vc (fun c => { c with unacked := 0 })).ctlHop 0x01 b [vc.toNat, (h.rxNext - 1).toNat])

/-! Confirmations and failures at the sender (R375, R376). -/

/-- APPLIED (R375): every store of the path up to the named ESEQ is applied. -/
def execApplied (head : CtlHead) (cls : BitVec 3) (eseq : BitVec 32) (s : State) : Outcome :=
  s.onCtl head (fun t =>
    let dev := head.src
    if dev = t.dev.devno && !((t.rxPath dev cls).any (fun p => decide (eseq.toNat < p.done))) then t
    else (t.endStores dev cls (fun w => w.sent && decide (w.flit.eseq.toNat ≤ eseq.toNat)) 0).sendPath dev cls)

/-- The sender passes over failed stores: the path continues at ESEQ `e`, and its later stores take a new route (R376). -/
def State.resync (s : State) (dev : BitVec 18) (cls : BitVec 3) (e : Nat) : State :=
  (s.ctlEnds 0x12 dev [cls.toNat, e]).modTx dev cls (fun p => { p with avoid := p.port, port := none })

/-- FAIL (R376): the named stores fail; a path that a hop could not forward continues by RESYNC. -/
def execFail (head : CtlHead) (cls : BitVec 3) (first last : BitVec 32) (cause : BitVec 8) (s : State) : Outcome :=
  s.onCtl head (fun t =>
    let s1 := t.endStores head.src cls (fun w => w.sent && decide (first.toNat ≤ w.flit.eseq.toNat) && decide (w.flit.eseq.toNat ≤ last.toNat))
      (if cause = 0 then 0xA1 else cause)
    (if cause = 0xA1 then s1.resync head.src cls (last.toNat + 1) else s1).sendPath head.src cls)

/-- STORE_TIMEOUT (R376): no APPLIED or FAIL within 5 ms of sending. -/
def execStoreTimeout (dev : BitVec 18) (cls : BitVec 3) (s : State) : Outcome :=
  match s.txPath dev cls with
  | none => .next s
  | some p =>
    let late (w : WStore) : Bool := w.sent && decide (w.sentAt + 5000000 ≤ s.now)
    match (p.stores.filter late).getLast? with
    | none => .next s
    | some w => .next ((s.endStores dev cls late 0xA1).resync dev cls (w.flit.eseq.toNat + 1))

/-- RESYNC (R373): missing flits below the named ESEQ are abandoned; what is held below it keeps its turn, a sealed flit with its group. -/
def execResync (head : CtlHead) (cls : BitVec 3) (eseq : BitVec 32) (s : State) : Outcome :=
  s.onCtl head (fun t => (t.modRx head.src cls (fun q => { q with floor := Nat.max q.floor eseq.toNat })).advance head.src cls)

/-- GROUP_CLOSE (R381): 1 µs after a group's first flit. -/
def execGroupClose (dev : BitVec 18) (cls : BitVec 3) (s : State) : Outcome := .next (s.closeGroup dev cls)

/-- TAG_TIMEOUT (R381): the group at the path's turn whose tag has not come is discarded, and its flits fail with cause 0xA3. -/
def execTagTimeout (dev : BitVec 18) (cls : BitVec 3) (s : State) : Outcome :=
  match s.rxPath dev cls with
  | none => .next s
  | some p =>
    let n := ((List.range 8).takeWhile (fun i => p.held.any (fun f => f.sealedStore && f.eseq.toNat == p.next + i) &&
      !(p.groups.any (fun g => covers g (p.next + i))))).length
    if n = 0 then .next s
    else .next (((s.modRx dev cls (fun q => { q with
      failed := q.failed ++ [(p.next, n)]
      tags := q.tags.filter (fun t => decide (p.next + n ≤ t.eseq.toNat))
      held := q.held.filter (fun f => !(covers (p.next, n) f.eseq.toNat)) })).ctlEnds 0x11 dev [cls.toNat, p.next, p.next + n - 1, 0xA3]).advance dev cls)

/-! Establishing paths (R374). -/

/-- A receiving path starts anew with the values exchanged. -/
def RxPath.restart (p : RxPath) (salt : BitVec 64 × BitVec 64) : RxPath := { src := p.src, cls := p.cls, salt := salt }

/-- A path to the device itself exchanges its values inside the window unit. -/
def State.selfKeys (s : State) (cls : BitVec 3) (a b : BitVec 64) : State :=
  ((s.needRx s.dev.devno cls).modRx s.dev.devno cls (fun p => p.restart (a, b))).modTx s.dev.devno cls (fun p => { p with peer := some b })

/-- PATH_REESTABLISHMENT (R374): of a path not yet established, or whose ESEQ would pass its limit, with no store unconfirmed. -/
def execPathReestablishment (dev : BitVec 18) (cls : BitVec 3) (s : State) : Outcome :=
  match s.txPath dev cls with
  | none => .next s
  | some p =>
    if (p.ready && decide (p.next < 2 ^ 32)) || p.unconfirmed || fget false s.gone dev.toNat then .next s
    else
      let a := Config.random (2 * s.steps)
      let s1 := s.modTx dev cls (fun q => { q with ready := true, next := 0, group := (0, 0), mine := some a, peer := none, port := none, avoid := none })
      if dev = s.dev.devno then .next ((s1.selfKeys cls a (Config.random (2 * s.steps + 1))).sendPath dev cls)
      else .next (s1.ctlEnds 0x15 dev [cls.toNat, a.toNat])

/-- KEYX (R374): the answer for a path that waits for it, or the opening of a path to this device, which is answered. -/
def execKeyx (head : CtlHead) (answer : Bool) (cls : BitVec 3) (value : BitVec 64) (s : State) : Outcome :=
  s.onCtl head (fun t =>
    let dev := head.src
    let waits := match t.txPath dev cls with
      | some p => p.ready && p.mine.isSome && p.peer.isNone
      | none => false
    if dev = t.dev.devno then t
    else if answer then (if waits then (t.modTx dev cls (fun p => { p with peer := some value })).sendPath dev cls else t)
    else
      let b := Config.random (2 * t.steps)
      ((t.needRx dev cls).modRx dev cls (fun p => p.restart (value, b))).ctlEnds 0x15 dev [cls.toNat, b.toNat])

/-! Devices that go and come (R389 to R393). -/

/-- Paths to a gone device: every store neither applied nor failed fails (R390). -/
def State.goneTx (s : State) (dev : BitVec 18) : State :=
  s.tx.foldl (fun t p => if p.dst == dev then (t.endStores dev p.cls (fun _ => true) 0xA2).modTx dev p.cls (fun q => { q with group := (0, 0) }) else t) s

/-- Flits held for the device leave the replay stores. -/
def State.dropReplay (s : State) (dev : BitVec 18) : State :=
  let keep (i : HopItem) : Bool := (itemPath i).1 != dev
  (List.range 16).foldl (fun t b => t.modBundle b (fun x =>
    { x with chans := x.chans.map (fun c => (c.1, { c.2 with replay := c.2.replay.filter (fun e => keep e.item), queue := c.2.queue.filter keep })) })) s

/-- Directory entries whose SENDER is the device become orphaned (R391). -/
def State.orphan (s : State) (dev : BitVec 18) : State :=
  (s.parts.flatMap (fun p => (List.range p.cfg.rxlen).map (fun i => p.cfg.rxdir.toNat + 16 * i))).foldl (fun t e =>
    if fget false t.dev.senders e && t.rd e 4 == dev.toNat then t.commitDevice (e + 4) 1 0xA2 else t) s

/-- Paths from a gone device: what is in order is applied, the rest is discarded. -/
def State.goneRx (s : State) (dev : BitVec 18) : State :=
  s.rx.foldl (fun t p => if p.src == dev then
    (t.advance dev p.cls).modRx dev p.cls (fun q => { q with held := [], tags := [], groups := [], failed := [] }) else t) s

/-- What a device does on GONE (R390, R391). -/
def State.actGone (s : State) (dev : BitVec 18) : State :=
  let s1 := (((s.goneTx dev).dropReplay dev).goneRx dev).orphan dev
  { s1 with gone := fset false dev.toNat true s1.gone }

/-- GONE (R389): acted on once. Its committed writes wait for a checkpoint. -/
def execGone (head : CtlHead) (dev : BitVec 18) (s : State) : Outcome :=
  if s.dev.ckBusy then .next s
  else s.onCtl head (fun t => if fget false t.gone dev.toNat || dev == t.dev.devno then t else t.actGone dev)

/-- DEVICE_GONE (R389): this device's switch sees that every lane to a device is dark, floods GONE and acts on it. -/
def execDeviceGone (dev : BitVec 18) (s : State) : Outcome :=
  .next (if fget false s.gone dev.toNat || dev == s.dev.devno || s.dev.ckBusy then s else (s.ctlFlood 0x13 [dev.toNat]).actGone dev)

/-- Every path to or from a device that has come starts anew (R393). -/
def State.renew (s : State) (dev : BitVec 18) : State :=
  { s with
    gone := fset false dev.toNat false s.gone
    tx := s.tx.map (fun p => if p.dst == dev then
      { p with ready := false, next := 0, group := (0, 0), mine := none, peer := none, port := none, avoid := none } else p)
    rx := s.rx.map (fun p => if p.src == dev then p.restart p.salt else p) }

/-- HELLO (R393): GONE first, when it was not acted on. -/
def execHello (head : CtlHead) (dev : BitVec 18) (s : State) : Outcome :=
  if s.dev.ckBusy then .next s
  else s.onCtl head (fun t =>
    if dev = t.dev.devno then t else (if fget false t.gone dev.toNat then t else t.actGone dev).renew dev)

/-- MODULE_INSERTION (R362, R393): the controller sets the number of the module, its lanes train, and it floods HELLO. -/
def execModuleInsertion (dev : BitVec 18) (s : State) : Outcome :=
  .next (({ s with bundles := [] } : State).modDev (fun d => { d with devno := dev }) |>.ctlFlood 0x14 [dev.toNat])

/-! Lanes (R384 to R388). -/

/-- The weights of a bundle, as LANEST carries them: 4 bits each, lane 0 lowest. -/
def Bundle.weights (b : Bundle) : Nat := (List.range 9).foldl (fun r i => r + (b.lane i).weight.toNat * 2 ^ (4 * i)) 0

/-- A lane is taken out and retrained: weight 0 in both directions, told by LANEST (R385). -/
def State.retrain (s : State) (b i : Nat) : State :=
  if ((s.bundle b).lane i).retired then s
  else
    let s1 := s.modBundle b (fun x => x.modLane i (fun l => { l with weight := 0, retraining := true, errs := [] }))
    s1.ctlHop 0x04 b [(s1.bundle b).weights]

/-- LANE_RETRAIN (R385): of a lane with more than 16 CRC errors in 1 ms, or one of whose wavelengths has lost its light, which RRF tells the
other end (R387). A lane that a switch-over has darkened is not retrained for it (R388). -/
def execLaneRetrain (bundle : BitVec 4) (lane : BitVec 4) (lost : Bool) (s : State) : Outcome :=
  let b := bundle.toNat
  let i := lane.toNat
  .next (if 8 < i || ((s.bundle b).lane i).dark || !(lost || decide (16 < s.laneErrors b i)) then s
    else (if lost then s.ctlHop 0x03 b [2 ^ i] else s).retrain b i)

/-- RRF (R387): the named lanes are taken out. -/
def execRrf (head : CtlHead) (bundle : BitVec 4) (mask : BitVec 9) (s : State) : Outcome :=
  s.onCtl head (fun t => ((List.range 9).filter (fun i => mask.getLsbD i)).foldl (fun u i => u.retrain bundle.toNat i) t)

/-- A lane as the other end's weight for it leaves it: a retired lane stays so, one that is retrained keeps weight 0, and one that the other
end has set to 0 is retrained here too (R385). -/
def Lane.told (l : Lane) (w : BitVec 4) : Lane :=
  if l.retired || l.retraining then l
  else if w = 0 && l.weight != 0 then { l with weight := 0, retraining := true, errs := [] }
  else { l with weight := w }

/-- LANEST (R385): the other end's weights. An end that takes a lane out for it answers with its own LANEST: both ends set the weight to 0 and
exchange LANEST. -/
def execLanest (head : CtlHead) (bundle : BitVec 4) (weights : BitVec 36) (s : State) : Outcome :=
  s.onCtl head (fun u =>
    let b := bundle.toNat
    let w := fun i => BitVec.ofNat 4 (bits weights.toNat (4 * i + 3) (4 * i))
    let t := (List.range 9).foldl (fun t i => t.modBundle b (fun x => x.modLane i (fun l => l.told (w i)))) u
    if (List.range 9).any (fun i => (((u.bundle b).lane i).told (w i)).retraining && !((u.bundle b).lane i).retraining)
    then t.ctlHop 0x04 b [(t.bundle b).weights] else t)

/-- Lanes in use: the active ones not retired, and the spare once it replaces one (R386). -/
def Bundle.width (b : Bundle) : Nat :=
  let dead := (List.range 8).filter (fun i => (b.lane i).retired)
  8 - dead.length + (if dead.isEmpty || (b.lane 8).retired then 0 else 1)

/-- A flit leaves over the new up port of its path, or its store fails with cause 0xA1 (R386, R376). -/
def State.sendAgain (s : State) (i : HopItem) : State :=
  let q := itemPath i
  match s.txPath q.1 q.2 with
  | none => s
  | some p => match s.pathPort p with
    | some b => (s.modTx q.1 q.2 (fun x => { x with port := some b })).hopSend b q.2 i
    | none => match i with
      | .store f => s.endStores q.1 q.2 (fun w => w.sent && w.flit.eseq == f.eseq) 0xA1
      | .tag _ => s

/-- The unacknowledged flits of a bundle that is taken down are sent again in SEQ order (R386). -/
def State.reroute (s : State) (b : Nat) : State :=
  let items := (s.bundle b).chans.flatMap (fun c => c.2.replay.map (fun e => e.item) ++ c.2.queue)
  items.foldl State.sendAgain (s.modBundle b (fun x => { x with down := true, chans := [] }))

/-- RETRAIN_COMPLETE (R385, R386): the lane comes back, or is retired and replaced by the spare. -/
def execRetrainComplete (bundle : BitVec 4) (lane : BitVec 4) (pass : Bool) (s : State) : Outcome :=
  let b := bundle.toNat
  let i := lane.toNat
  let l := (s.bundle b).lane i
  if 8 < i || !l.retraining then .next s
  else if pass then .next (s.modBundle b (fun x => x.modLane i (fun y => { y with retraining := false })))
  else
    let spareFree := i != 8 && !((s.bundle b).lane 8).retired && !((s.bundle b).lane 8).retraining && (List.range 8).all (fun k => !((s.bundle b).lane k).retired)
    let s1 := s.modBundle b (fun x =>
      let y := x.modLane i (fun z => { z with weight := 0, retraining := false, retired := true })
      if spareFree then y.modLane 8 (fun z => { z with weight := 8 }) else y)
    .next (if (s1.bundle b).width < 4 && !(s1.bundle b).down then s1.reroute b else s1)

/-- The lane is one that carries flits: an active lane, or the spare in use. -/
def Bundle.inUse (b : Bundle) (i : Nat) : Bool := decide (i < 8) || (i == 8 && (List.range 8).any (fun k => (b.lane k).retired))

/-- LANE_WEIGHT_STEP (R385): every 1 µs a trained lane's weight rises by 1, to 8. -/
def execLaneWeightStep (bundle : BitVec 4) (lane : BitVec 4) (s : State) : Outcome :=
  let b := bundle.toNat
  let i := lane.toNat
  let l := (s.bundle b).lane i
  .next (if (s.bundle b).inUse i && !l.retraining && !l.retired && decide (l.weight.toNat < 8) then
      s.modBundle b (fun x => x.modLane i (fun y => { y with weight := y.weight + 1 }))
    else s)

/-- The flits in a bundle's replay stores are sent again (R388). -/
def Bundle.resend (b : Bundle) : Bundle :=
  { b with chans := b.chans.map (fun c => (c.1, { c.2 with replay := c.2.replay.map (b.again (BitVec.ofNat 3 c.1)) })) }

/-- LANE_RESYNC (R388): a dark lane finds the light again, and the flits held in replay stores are sent again. -/
def execLaneResync (bundle : BitVec 4) (lane : BitVec 4) (s : State) : Outcome :=
  .next (if 8 < lane.toNat || s.dev.sourceLost s.dev.source || !((s.bundle bundle.toNat).lane lane.toNat).dark then s
    else s.modBundle bundle.toNat (fun x => (x.modLane lane.toNat (fun y => { y with dark := false })).resend))

end Sys2Proof.Machine
end

