-- ==== Sys2Proof/Machine/HostEvents.lean ====
section
/-! DEFINITION. The host's side and the module: reset and boot (R414 to R416), checkpoints (R417), the registers of BAR0 (R405 to R412),
kill, halt and the debugger's requests (R343, R345, R408), BAR2 (R271, R404), MSI-X (R413) and the module's controller (R418). -/

namespace Sys2Proof.Machine

/-! Configuration records (R414, R415). -/

/-- A partition record's fields are in their ranges. -/
def partOk (p : PartRec) : Bool :=
  (p.pmax == 5 || p.pmax == 7) && decide (1 ≤ p.sqd) && decide (p.sqd ≤ 8) && decide (10000 ≤ p.prewait) && decide (p.prewait ≤ 10000000) && decide (p.ebcmin0.toNat ≤ 8) &&
  p.asidt.toNat % 0x8000 == 0 && p.sapool.toNat % 0x2000 == 0 && decide (256 ≤ p.peqlen) && decide (p.peqlen ≤ 65536) &&
  (List.range 17).any (fun i => p.peqlen == 2 ^ i)

/-- Every arcade belongs to exactly one partition. -/
def arcadesOk (ps : List PartRec) : Bool := (List.range 16).all (fun a => (ps.filter (fun p => p.arcades.getLsbD a)).length == 1)

/-- The controller accepts a record: its signature, its version, and its fields (R414). -/
def recordOk (r : ConfigRec) (highest : Nat) : Bool :=
  r.genuine && decide (highest ≤ r.version) && r.parts.length == 16 && r.parts.all partOk && arcadesOk r.parts &&
  r.qb.length == 4 && r.qb.all (fun q => decide (60 ≤ q) && decide (q ≤ 160)) && r.ckBase.toNat % 0x10000 == 0 &&
  decide (0x0200_0000_0000 ≤ r.ckBase.toNat) && decide (r.ckBase.toNat + 520589934592 ≤ 0x0400_0000_0000)

/-- What the controller reports on the management bus. -/
def State.report (s : State) (code : Nat) : State := s.modDev (fun d => { d with reports := code :: d.reports })

/-- Step `n` of Table 4 has been done (R416). -/
def reportStep (n : Nat) : Nat := 16 + n

def reportRefused : Nat := 1
def reportCoolant : Nat := 3
def reportPowerOff : Nat := 4
def reportLatch : Nat := 5

/-- A host port whose link stays down (R404, R416). -/
def reportPort (p : Nat) : Nat := 6 + p

/-- What a reset leaves of the machine: memory as written back, what has been sent out, the model's own counters. -/
def State.blank (s : State) : State :=
  { State.reset with
    steps := s.steps
    agenda := s.agenda
    mem := s.dirty.foldl (fun m e => match e.2 with
      | some d => wrN m (e.1 * 32) 32 d.stale.toNat
      | none => m) s.mem
    poison := s.poison
    lost := s.lost
    dev := { State.reset.dev with
      devno := s.dev.devno
      stepping := s.dev.stepping
      version := s.dev.version
      reports := s.dev.reports
      irqs := s.dev.irqs
      ctl := s.dev.ctl
      cid := s.dev.cid
      senders := s.dev.senders
      reads := s.dev.reads } }

/-- The steps of Table 4 with an accepted record, the units that self-test retires, ρ of each OMU's probe, and the host ports whose link
does not train; the controller reports each step (R416). -/
def State.boot (s : State) (r : ConfigRec) (retired : List (UnitKind × Nat)) (rhos : List (BitVec 16)) (down : BitVec 2) : State :=
  let s1 : State := { s.blank with parts := r.parts.map (fun p => ({ cfg := p } : Part)) }
  let s2 := ((s1.report (reportStep 1)).report (reportStep 2)).modDev (fun d => { d with
    version := r.version
    nearLow := r.nearLow
    cxlPort1 := r.cxlPort1
    qb := r.qb
    ckBase := r.ckBase.toNat
    reserved := r.reserved
    cxlIn := r.cxlPort1 && !(down.getLsbD 1)
    cxlLink := r.cxlPort1 && !(down.getLsbD 1) })
  let s3 := retired.foldl (fun t u => t.retire' u.1 u.2) (s2.report (reportStep 3))
  let s4 := (List.range 128).foldl (fun t k => t.modPStall k (fun p =>
    let x := p.writeRho (rhos.getD k 0)
    { x with omustat := putField x.omustat 20 1 1 })) (s3.report (reportStep 4))
  let s5 := ([0, 1].filter (fun p => down.getLsbD p)).foldl (fun t p => t.report (reportPort p))
    (((s4.report (reportStep 5)).modDev (fun d => { d with portDown := down })).report (reportStep 6))
  s5.ctlFlood 0x14 [s5.dev.devno.toNat]

/-- A cold reset: with a record that the controller refuses, the module stays in reset (R414). -/
def State.coldBoot (s : State) (r : ConfigRec) (retired : List (UnitKind × Nat)) (rhos : List (BitVec 16)) (down : BitVec 2) : State :=
  if recordOk r s.dev.version then s.boot r retired rhos down
  else (s.blank.modDev (fun d => { d with held := true })).report reportRefused

/-- COLD_RESET (R416): power-on or PERST#. -/
def execColdReset (record : ConfigRec) (retired : List (UnitKind × Nat)) (rhos : List (BitVec 16)) (down : BitVec 2) (s : State) : Outcome :=
  .next (s.coldBoot record retired rhos down)

/-- RESET_COLD (R406, R416): a write of OP 1 to RESET. -/
def execResetCold (record : ConfigRec) (retired : List (UnitKind × Nat)) (rhos : List (BitVec 16)) (down : BitVec 2) (s : State) : Outcome :=
  .next (if s.dev.held then s else s.coldBoot record retired rhos down)

/-! PARTITION_RESET. -/

/-- What waits or travels for a partition is dropped; a migrant in a mailbox is a task, which ends. -/
def State.dropWork (s : State) (p : Nat) : State :=
  let mine (r : Record) : Bool := r.part.toNat == p
  { s with
    slots := (s.slots.map (fun e => (e.1, { e.2 with next := e.2.next.filter (fun r => !(mine r)) }))).filter (fun e => e.2 != {})
    tiles := (s.tiles.map (fun e => (e.1, { e.2 with
      runq := e.2.runq.filter (fun r => !(mine r))
      sendReq := e.2.sendReq.filter (fun m => taskPart m.task != p)
      sendRpy := e.2.sendRpy.filter (fun m => taskPart m.task != p)
      mailbox := e.2.mailbox.filter (fun m => m.migrant.isSome || taskPart m.task != p) }))).filter (fun e => e.2 != {})
    net := s.net.filter (fun m => taskPart m.task != p)
    refusals := s.refusals.filter (fun m => taskPart m.task != p)
    nodes := s.nodes.filter (fun n => n.part.toNat != p)
    cells := s.cells.filter (fun e => !(e.2.any (fun c => c.part.toNat == p)))
    queues := s.queues.map (fun e => (e.1, if e.2.part == p then { e.2 with cfg := putField e.2.cfg 63 1 0, deficit := 0, demands := [] } else e.2)) }

/-- Gang reservations of a partition are cleared. -/
def State.dropReservations (s : State) (p : Nat) : State :=
  (List.range 128).foldl (fun t ls => match (t.lstall ls).reserved with
    | some r => if r.part.toNat == p then t.dropReservation ls else t
    | none => t) s

/-- Every task of a partition ends with cause 0x86: resident, switched out, or waiting in a mailbox. -/
def State.endPart (s : State) (p : Nat) : State :=
  let live := s.slots.foldl (fun t e =>
    if e.2.occupied && e.2.part == p then (if e.2.taskid = 0 then t.setSlot e.1 e.2.vacated else t.endAt e.1 0x86 0) else t) s
  let out := ((s.part p).saved).foldl (fun t x => t.finishSaved p x 0x86 0) live
  (s.tiles.flatMap (fun e => e.2.mailbox.filterMap (fun m => m.migrant))).foldl (fun t c => if c.part == p then t.finishMailed c.taskid 0x86 0 else t) out

/-- The partition block, and what else the partition keeps at run time, returns to its reset values. -/
def State.resetPart (s : State) (p : Nat) : State :=
  s.modPart p (fun u => { u with
    peqHead := 0
    peqTail := 0
    peqDrop := 0
    dbgctl := 0
    dbgBusy := false
    dbgRejected := false
    dbgOp := 0
    dbgWait := none
    waiting := []
    ptr := []
    peqWait := [] })

/-- A partition is reset; memory is kept. -/
def State.resetPartition (s : State) (p : Nat) : State := (((s.dropWork p).dropReservations p).endPart p).resetPart p

/-- PARTITION_RESET (R416). -/
def execPartitionReset (part : BitVec 4) (s : State) : Outcome := .next (s.resetPartition part.toNat)

/-! Checkpoints (R417). -/

def hbmBase : Nat := 0x0080_0000_0000
def hbmBytes : Nat := 512000000000
def nearBytes : Nat := 0x0002_0000_0000

/-- The `n` bytes from `lo` copied to `dst`, with their poison marks (R295; notes/assumptions/45.md). -/
def State.copyRange (s : State) (lo dst n : Nat) : State :=
  { s with mem := fcopy 0 lo dst n s.mem, poison := fcopy false (lo / 32) (dst / 32) (n / 32) s.poison }

/-- HBM4 and near memory are copied to the range, HBM4 first. -/
def State.saveImage (s : State) : State :=
  (s.copyRange hbmBase s.dev.ckBase hbmBytes).copyRange 0 (s.dev.ckBase + hbmBytes) nearBytes

/-- A checkpoint starts: dirty lines are written back, and the image is the committed state now; a start during a checkpoint is ignored. -/
def State.startCheckpoint (s : State) : State :=
  if s.dev.ckBusy then s.modDev (fun d => { d with ckIgnored := true })
  else ({ s with dirty := [] } : State).saveImage.modDev (fun d => { d with ckBusy := true, ckValid := false })

/-- CHECKPOINT_START. -/
def execCheckpointStart (s : State) : Outcome := .next s.startCheckpoint

/-- CHECKPOINT_COMPLETE: vector 0 on port 0, and what waited is written. -/
def execCheckpointComplete (micros : BitVec 32) (s : State) : Outcome :=
  if !s.dev.ckBusy then .next s
  else
    .next ((((s.modDev (fun d => { d with ckBusy := false, ckValid := true, ckMicros := micros })).sendIrq 0 0).flushWaiting.flushMcq).advanceAll)

/-- No task has started since the cold reset. -/
def State.pristine (s : State) : Bool := s.parts.all (fun p => p.serial == 1)

/-- Before any partition starts, the image comes back. -/
def State.restoreImage (s : State) : State :=
  if !s.pristine || s.dev.ckBusy then s
  else { ((s.copyRange s.dev.ckBase hbmBase hbmBytes).copyRange (s.dev.ckBase + hbmBytes) 0 nearBytes) with dirty := [] }

/-- CHECKPOINT_RESTORE. -/
def execCheckpointRestore (s : State) : Outcome := .next s.restoreImage

/-! Device block (R406). -/

/-- CKSTAT: bit 1 is cleared by writing it. -/
def State.clearCkstat (s : State) (v : Word) : State := if wbit v 1 then s.modDev (fun d => { d with ckIgnored := false }) else s

/-- CKSTAT_CLEAR. -/
def execCkstatClear (value : BitVec 64) (s : State) : Outcome := .next (s.clearCkstat value)

/-- MCQDROP_CLEAR. -/
def execMcqdropClear (s : State) : Outcome := .next (s.modDev (fun d => { d with mcqDrop := 0 }))

/-- A write to MCQLEN or MCQBASE: while EN is 1 only one that clears EN is taken. -/
def State.writeMcq (s : State) (len : Bool) (v : Word) : State :=
  if s.dev.mcqOn && !(len && !(wbit v 63)) then s
  else if len then s.modDev (fun d => { d with mcqLen := v &&& 0x800000000000001F#64 })
  else s.modDev (fun d => { d with mcqBase := v &&& 0x0000FFFFFFFFFFE0#64 })

/-- MCQ_CONFIG_WRITE. -/
def execMcqConfigWrite (len : Bool) (value : BitVec 64) (s : State) : Outcome := .next (s.writeMcq len value)

/-- The capacity of a trained link returns to the pool (R418). -/
def State.writeCxlen (s : State) (v : Word) : State :=
  if wbit v 0 && s.dev.cxlLink && !s.dev.cxlIn then s.modDev (fun d => { d with cxlIn := true, cxlGone := false }) else s

/-- CXLEN (R406). -/
def execCxlen (value : BitVec 64) (s : State) : Outcome := .next (s.writeCxlen value)

/-! Kill and halt (R343, R345, R407). -/

def State.reject (s : State) (p : Nat) : State := s.modPart p (fun u => { u with dbgRejected := true })

/-- The task named is one of the partition, and lives. -/
def State.liveHere (s : State) (p : Nat) (task : Word) : Bool := taskPart task == p && task != 0 && s.alive task

/-- A change of every slot that holds a task. -/
def State.modHolders (s : State) (task : Word) (f : Slot → Slot) : State :=
  { s with slots := s.slots.map (fun e => if e.2.occupied && e.2.taskid == task then (e.1, f e.2) else e) }

/-- Switched-out members of a task. -/
def State.savedOf (s : State) (task : Word) : List Saved := ((s.part (taskPart task)).saved).filter (fun t => t.ctx.taskid == task)

/-- A reservation for a gang that has no area left is cleared (R316). -/
def State.dropStale (s : State) : State :=
  (List.range 128).foldl (fun t ls => match (t.lstall ls).reserved with
    | some r => (match r.kind with
        | .saved a => if (t.savedAt r.part.toNat a).isNone then t.dropReservation ls else t
        | _ => t)
    | none => t) s

/-- A kill of a switched-out task: it ends now, but for a sealed commit, which is made first, at once or by its SEALED_COMMIT (R114, R343). -/
def State.killSaved (s : State) (p : Nat) (t : Saved) : State :=
  if t.ctx.seg.sealedCommit && !t.ctx.doomed then
    (if s.commitBlocked t.ctx t.home.toNat then s.modSaved p t.area (fun u => { u with ctx := { u.ctx with kill := true } })
     else (s.publish t.ctx t.home.toNat none).finishSaved p t 0x86 0)
  else s.finishSaved p t 0x86 0

/-- A kill: resident slots end at their next boundary, switched-out members and a migrant in a mailbox now. -/
def State.killTask (s : State) (task : Word) : State :=
  let s1 := s.modHolders task (fun l => { l with kill := true })
  let s2 := if s1.mailed task then s1.finishMailed task 0x86 0 else s1
  ((s2.savedOf task).foldl (fun t x => t.killSaved (taskPart task) x) s2).dropStale

/-- A TASKID written to KILL. -/
def State.writeKill (s : State) (p : Nat) (task : Word) : State := if s.liveHere p task then s.killTask task else s.reject p

/-- KILL. -/
def execKill (part : BitVec 4) (task : BitVec 64) (s : State) : Outcome := .next (s.writeKill part.toNat task)

/-- A halt: at the next boundary of every slot that holds the task, or once it is resident again. -/
def State.haltTask (s : State) (task : Word) : State :=
  let f (l : Slot) : Slot := if l.stops.contains .halt then l else { l with stops := l.stops ++ [.halt] }
  let s1 := (s.modHolders task f).modMailed task f
  (s.savedOf task).foldl (fun t x => t.modSaved (taskPart task) x.area (fun u => { u with ctx := f u.ctx })) s1

/-- A TASKID written to HALT: only with DBGEN. -/
def State.writeHalt (s : State) (p : Nat) (task : Word) : State :=
  if (s.part p).cfg.dbgen && s.liveHere p task then s.haltTask task else s.reject p

/-- HALT. -/
def execHalt (part : BitVec 4) (task : BitVec 64) (s : State) : Outcome := .next (s.writeHalt part.toNat task)

/-! The debugger's requests (R408). -/

def taskOf (part : BitVec 4) (serial : BitVec 60) : Word := BitVec.ofNat 64 (part.toNat * 2 ^ 60 + serial.toNat)

/-- Slots that hold a task, when all of them are halted. -/
def State.haltedSlots (s : State) (task : Word) : List Nat :=
  let ks := (s.slots.filter (fun e => e.2.occupied && e.2.taskid == task)).map (fun e => e.1)
  if task != 0 && ks.all (fun k => (s.slot k).phase == .halted) then ks else []

/-- STOPCAUSE of a switched-out task (R335). -/
def State.stopCause (s : State) (x : Saved) : Nat := bits (s.rd (x.area + 8) 8) 23 16

def Saved.halted (x : Saved) : Bool := x.ctx.phase == .halted

/-- The switched-out members of a task, a gang's in member order. -/
def State.allSaved (s : State) (task : Word) : List Saved :=
  let ms := s.savedMembers (taskPart task) task
  let all := s.savedOf task
  if ms.length = all.length then ms else all

/-- The record of a switched-out task returns to the run queue of its HOME tile, unless it stands there. -/
def State.requeue (s : State) (ms : List Saved) : State :=
  match ms with
  | [] => s
  | m :: _ =>
    if ms.any (fun x => x.queued) then s
    else
      (ms.foldl (fun t x => t.modSaved (taskPart x.ctx.taskid) x.area (fun u => { u with queued := true })) s).queueSaved m.ctx m.area m.home.toNat false

/-- A halted task is released as it comes back (R408). -/
def State.unhaltSaved (s : State) (x : Saved) : State :=
  let v := s.rd (x.area + 8) 8
  (s.rawWrite (x.area + 8) 8 (v - (if bit v 10 then 2 ^ 10 else 0))).modSaved (taskPart x.ctx.taskid) x.area (fun u =>
    { u with ctx := { u.ctx with phase := .ready } })

/-- A request that acts on a resident halted task. -/
def State.resume (s : State) (task : Word) (f : Slot → Slot) : State := (s.haltedSlots task).foldl (fun u k => (u.modSlot k f).deliverAt k) s

/-- Debug save: with STOPCAUSE 0x0A; while the pool has no room the slots wait, and BUSY stays 1 (R334). -/
def State.debugSave (s : State) (task : Word) : State × Bool :=
  let ks := s.haltedSlots task
  match ks.head? with
  | none => (s, false)
  | some k => match s.switchOut k 0x0A true false with
    | some u => (u, false)
    | none => (ks.foldl (fun u j => u.modSlot j (fun l => { l with phase := .waiting .debugArea, stops := l.stops.filter (fun r => r != .halt) })) s, true)

/-- A switched-out task's record would find no room in the run queue of its tile (R315). -/
def State.noRoomFor (s : State) (ms : List Saved) : Bool :=
  match ms with
  | [] => false
  | m :: _ => !(ms.any (fun x => x.queued)) && s.runqFull m.home.toNat

/-- The effect of an accepted request, and whether it is still to complete; none while it waits for a rotation swap of the task's stall, or for
room in the run queue (R408). -/
def State.actDebug (s : State) (op : BitVec 4) (task : Word) : Option (State × Bool) :=
  let l := s.allSaved task
  match op.toNat with
  | 1 | 2 | 3 =>
    if (s.haltedSlots task).any (fun k => s.midSwap (stallOf (homeOf k))) then none
    else if op = 1 then some (s.resume task Slot.resume, false)
    else if op = 2 then some (s.resume task (fun l => { l.resume with stepping := true }), false)
    else some (s.debugSave task)
  | 4 => if s.noRoomFor l then none else some (s.requeue l, false)
  | _ => if s.noRoomFor l then none else some ((l.foldl (fun t x => if x.halted then t.unhaltSaved x else t) s).requeue l, false)

/-- The request that a partition's DBGREQ holds takes effect, and BUSY clears once it has (R408). -/
def State.settleDebug (s : State) (p : Nat) : State :=
  match (s.part p).dbgWait with
  | none => s
  | some (op, task) => match s.actDebug op task with
    | none => s
    | some (t, busy) => t.modPart p (fun u => { u with dbgWait := none, dbgBusy := busy })

/-- A request names a task in a state that accepts it (R408). -/
def State.accepts (s : State) (op : BitVec 4) (task : Word) : Bool :=
  let l := s.allSaved task
  match op.toNat with
  | 1 | 2 | 3 => !(s.haltedSlots task).isEmpty
  | 4 => !l.isEmpty && l.all Saved.halted
  | 5 => !l.isEmpty && l.all (fun x => x.halted || s.stopCause x == 0x85)
  | _ => false

/-- A request is noted in DBGSTAT and rejected, or accepted: REJECTED clears, BUSY is set, and the request takes effect at once or when it can
(R408). -/
def State.request (s : State) (part : BitVec 4) (op : BitVec 4) (serial : BitVec 60) : State :=
  let p := part.toNat
  let task := taskOf part serial
  let s1 := s.modPart p (fun u => { u with dbgOp := op })
  if !(s.accepts op task) || (s.part p).dbgBusy || (decide (op ≠ 5) && !(s.part p).cfg.dbgen) then s1.reject p
  else (s1.modPart p (fun u => { u with dbgRejected := false, dbgBusy := true, dbgWait := some (op, task) })).settleDebug p

/-- RELEASE: the halted task continues. -/
def execRelease (part : BitVec 4) (serial : BitVec 60) (s : State) : Outcome := .next (s.request part 1 serial)

/-- STEP: to the next boundary or stop point (R345). -/
def execStep (part : BitVec 4) (serial : BitVec 60) (s : State) : Outcome := .next (s.request part 2 serial)

/-- DEBUG_SAVE. -/
def execDebugSave (part : BitVec 4) (serial : BitVec 60) (s : State) : Outcome := .next (s.request part 3 serial)

/-- DEBUG_RESTORE: the task comes back still halted. -/
def execDebugRestore (part : BitVec 4) (serial : BitVec 60) (s : State) : Outcome := .next (s.request part 4 serial)

/-- RESUME: a halted task is released; one stopped for its QUOTA settles at the restore, and stays out while DEBT remains (R342). -/
def execResume (part : BitVec 4) (serial : BitVec 60) (s : State) : Outcome := .next (s.request part 5 serial)

/-- A word written to DBGREQ: the request that its OP names; an OP that none has is not accepted (notes/assumptions/56.md). -/
def State.writeDbgreq (s : State) (part : BitVec 4) (v : Word) : State :=
  s.request part (BitVec.ofNat 4 (field v 60 4)) (v.setWidth 60)

/-- PEQDROP_CLEAR. -/
def execPeqdropClear (part : BitVec 4) (s : State) : Outcome := .next (s.modPart part.toNat (fun u => { u with peqDrop := 0 }))

/-! Work queues (R409 to R412). -/

/-- A TAIL write (R411). -/
def State.writeTail (s : State) (q : Nat) (t : BitVec 32) : State :=
  let u := s.queue q
  if !u.hostq then s
  else if decide (2 ^ 31 ≤ (t - u.tail).toNat) || decide (u.qlen < (t - u.head).toNat) then s.modQueue q (fun w => { w with qerr := w.qerr ||| 1 })
  else s.modQueue q (fun w => { w with tail := t })

/-- TAIL. -/
def execTail (queue : BitVec 16) (value : BitVec 32) (s : State) : Outcome := .next (s.writeTail queue.toNat value)

/-- A CHEAD write: completions that waited for room are written (R412). -/
def State.writeChead (s : State) (q : Nat) (v : BitVec 32) : State :=
  let s1 := s.modQueue q (fun w => { w with chead := v })
  s1.flushComps q (s1.queue q).comps.length

/-- CHEAD. -/
def execChead (queue : BitVec 16) (value : BitVec 32) (s : State) : Outcome := .next (s.writeChead queue.toNat value)

/-- QERR: write 1 to clear. -/
def State.clearQerr (s : State) (q : Nat) (v : Word) : State := s.modQueue q (fun w => { w with qerr := w.qerr &&& ~~~v })

/-- QERR_CLEAR. -/
def execQerrClear (queue : BitVec 16) (value : BitVec 64) (s : State) : Outcome := .next (s.clearQerr queue.toNat value)

/-- A write to QBASE, CFG or CBASE: while EN is 1 only one that clears EN is taken (R410). -/
def State.writeQueue (s : State) (q reg : Nat) (v : Word) : State :=
  if (s.queue q).en && !(reg == 0x18 && !(wbit v 63)) then s
  else match reg with
  | 0x00 => s.modQueue q (fun w => { w with qbase := v &&& 0xFFFFFFFFFFFFFFC0#64 })
  | 0x18 => s.modQueue q (fun w => { w with cfg := v &&& 0x8000FFFF03FF07FF#64 })
  | 0x20 => s.modQueue q (fun w => { w with cbase := v &&& 0x0000FFFFFFFFFFF0#64 })
  | _ => s

/-- QUEUE_CONFIG_WRITE. -/
def execQueueConfigWrite (queue : BitVec 16) (reg : BitVec 6) (value : BitVec 64) (s : State) : Outcome :=
  .next (s.writeQueue queue.toNat reg.toNat value)

/-! REGISTER_WRITE: a write to BAR0 (R405). -/

/-- RESET: OP 1 is a cold reset, with the record that the controller then presents and what self-test and the probes then find, which are
free; OP 2 resets the partition named (R406, R416; notes/assumptions/56.md). -/
def State.writeReset (s : State) (v : Word) : State :=
  match field v 0 4 with
  | 1 => s.coldBoot (Config.bootRecord s.steps) (Config.bootRetired s.steps) (Config.bootRhos s.steps) (Config.bootDown s.steps)
  | 2 => s.resetPartition (field v 4 4)
  | _ => s

/-- CKCTL. -/
def State.writeCkctl (s : State) (v : Word) : State :=
  match field v 0 2 with
  | 1 => s.startCheckpoint
  | 2 => s.restoreImage
  | _ => s

/-- A write to the device block (R406). -/
def State.writeDevice (s : State) (off : Nat) (v : Word) : State :=
  match off with
  | 0x008 => s.writeReset v
  | 0x010 => s.writeCkctl v
  | 0x018 => s.clearCkstat v
  | 0x040 => s.writeMcq false v
  | 0x048 => s.writeMcq true v
  | 0x050 => s.modDev (fun d => { d with mcqHead := v.setWidth 32 })
  | 0x060 => s.modDev (fun d => { d with mcqDrop := 0 })
  | 0x068 => s.writeCxlen v
  | _ => s

/-- A write to a partition block (R407): DBGCTL needs DBGEN. -/
def State.writePart (s : State) (p off : Nat) (v : Word) : State :=
  match off with
  | 0x000 => if (s.part p).cfg.dbgen then s.modPart p (fun u => { u with dbgctl := v &&& 3 }) else s
  | 0x008 => s.writeKill p v
  | 0x010 => s.writeHalt p v
  | 0x018 => s.writeDbgreq (BitVec.ofNat 4 p) v
  | 0x028 => s.modPart p (fun u => { u with peqHead := v.setWidth 32 })
  | 0x038 => s.modPart p (fun u => { u with peqDrop := 0 })
  | _ => s

/-- A write to a queue block (R409). -/
def State.writeQueueReg (s : State) (q off : Nat) (v : Word) : State :=
  match off with
  | 0x08 => s.writeTail q (v.setWidth 32)
  | 0x30 => s.writeChead q (v.setWidth 32)
  | 0x38 => s.clearQerr q v
  | _ => s.writeQueue q off v

/-- An aligned 8-byte write to BAR0. -/
def State.writeBar0 (s : State) (off : Nat) (v : Word) : State :=
  if 0x2000000 ≤ off then (if off < 0x2400000 then s.writeQueueReg ((off - 0x2000000) / 0x40) (off % 0x40) v else s)
  else if 0x1000000 ≤ off then s
  else if 0x100000 ≤ off then (if off < 0x110000 then s.writePart ((off - 0x100000) / 0x1000) (off % 0x1000) v else s)
  else s.writeDevice off v

/-- REGISTER_WRITE (R405): other sizes, and addresses that are not aligned, are ignored. -/
def execRegisterWrite (offset : BitVec 26) (size : Nat) (value : BitVec 64) (s : State) : Outcome :=
  .next (if size = 8 && offset.toNat % 8 == 0 then s.writeBar0 offset.toNat value else s)

/-! What the host reads of BAR0 (R405 to R409): a read has no effect on the machine. -/

/-- The device block (R406). -/
def State.readDevice (s : State) (off : Nat) : Word :=
  let d := s.dev
  match off with
  | 0x000 => BitVec.ofNat 64 (0xB700 + d.stepping.toNat * 2 ^ 16 + d.devno.toNat * 2 ^ 24)
  | 0x018 => BitVec.ofNat 64 (d.ckBusy.toNat + d.ckIgnored.toNat * 2 + d.ckValid.toNat * 4 + d.ckMicros.toNat * 2 ^ 32)
  | 0x040 => d.mcqBase
  | 0x048 => d.mcqLen
  | 0x050 => d.mcqHead.setWidth 64
  | 0x058 => d.mcqTail.setWidth 64
  | 0x060 => d.mcqDrop.setWidth 64
  | 0x068 => BitVec.ofNat 64 (d.cxlIn.toNat + d.cxlLink.toNat * 2 + d.cxlGone.toNat * 4)
  | _ => 0

/-- A partition block (R407). -/
def State.readPart (s : State) (p off : Nat) : Word :=
  let u := s.part p
  match off with
  | 0x000 => u.dbgctl
  | 0x020 => BitVec.ofNat 64 (u.dbgBusy.toNat + u.dbgRejected.toNat * 2 + u.dbgOp.toNat * 2 ^ 60)
  | 0x028 => u.peqHead.setWidth 64
  | 0x030 => u.peqTail.setWidth 64
  | 0x038 => u.peqDrop.setWidth 64
  | _ => 0

/-- The counter block of a physical stall (R283, R405). -/
def State.readCounters (s : State) (ps off : Nat) : Word :=
  match off with
  | 0x00 => (s.pstall ps).pfDrops.setWidth 64
  | 0x08 => (s.pstall ps).ceCount
  | _ => 0

/-- A queue block (R409). -/
def State.readQueue (s : State) (q off : Nat) : Word :=
  let u := s.queue q
  match off with
  | 0x00 => u.qbase
  | 0x08 => u.tail.setWidth 64
  | 0x10 => u.head.setWidth 64
  | 0x18 => u.cfg
  | 0x20 => u.cbase
  | 0x28 => u.ctail.setWidth 64
  | 0x30 => u.chead.setWidth 64
  | 0x38 => u.qerr
  | _ => 0

/-- A read of BAR0 (R405): other sizes than 8, and addresses that are not aligned, read 0. -/
def State.readBar0 (s : State) (off size : Nat) : Word :=
  if size != 8 || off % 8 != 0 then 0
  else if 0x2000000 ≤ off then (if off < 0x2400000 then s.readQueue ((off - 0x2000000) / 0x40) (off % 0x40) else 0)
  else if 0x1000000 ≤ off then (if off < 0x1008000 then s.readCounters ((off - 0x1000000) / 0x100) (off % 0x100) else 0)
  else if 0x100000 ≤ off then (if off < 0x110000 then s.readPart ((off - 0x100000) / 0x1000) (off % 0x1000) else 0)
  else s.readDevice off

/-! BAR2 (R271, R404). -/

/-- What memory holds of the byte at `a`: not what a dirty line holds. -/
def State.heldByte (s : State) (a : Nat) : Byte :=
  match fget none s.dirty (a / 32) with
  | some d => BitVec.ofNat 8 (d.stale.toNat / 2 ^ (8 * (a % 32)))
  | none => fget 0 s.mem a

/-- HOST_READ (R271): the bytes go out; an address that no storage backs gives an open value. -/
def execHostRead (pa : BitVec 48) (len : BitVec 6) (s : State) : Outcome :=
  let out := (List.range len.toNat).map (fun i =>
    let a := pa.toNat + i
    if s.storage a == .hole then (Config.openBits s.steps i).setWidth 8 else if s.deepGone a then 0xFF else s.heldByte a)
  .next (s.modDev (fun d => { d with reads := out :: d.reads }))

/-- HOST_WRITE (R271): each granule's bytes are written, or wait (R287, R417). -/
def execHostWrite (pa : BitVec 48) (data : List (BitVec 8)) (s : State) : Outcome :=
  let a := pa.toNat
  .next ((granulesOf a data.length).foldl (fun t g =>
    let lo := Nat.max a (g * 32)
    let hi := Nat.min (a + data.length) (g * 32 + 32)
    if hi ≤ lo then t else t.hostPut lo ((data.drop (lo - a)).take (hi - lo))) s)

/-! Interrupts and the module's controller. -/

/-- MSIX_UNMASK (R413): an entry is unmasked, and its pending vector is sent unless the function is masked. -/
def execMsixUnmask (port : BitVec 1) (vec : BitVec 11) (s : State) : Outcome := .next (s.setMsix port.toNat vec.toNat false)

/-- LATCH_RELEASE (R418): every fabric lane is dropped. -/
def execLatchRelease (s : State) : Outcome :=
  .next (((List.range 16).foldl (fun t b => if (t.bundle b).down then t else t.reroute b) s).report reportLatch)

/-- COOLANT_OVERTEMP (R418): every quadrant is lowered to P0. -/
def execCoolantOvertemp (s : State) : Outcome :=
  .next (((List.range 4).foldl (fun t q => t.modQuad q (fun u => { u with thermalSteps := 7, thermalAt := s.now })) s).report reportCoolant)

/-- LEAK (R418): the controller requests removal of power. -/
def execLeak (s : State) : Outcome := .next (s.report reportPowerOff)

end Sys2Proof.Machine
end

