-- ==== Sys2Proof/Machine/Issue.lean ====
section
/-! DEFINITION. What stands around an instruction: its fetch (R277), the words that decode to none (R45, R46), the check of its hint
run (R57), the choice of the slot that issues next (R317), and what a step of time moves on (R38, R177, R341). -/

namespace Sys2Proof.Machine

/-! Fetching (R81, R277). -/

/-- The word at an address of a slot's code: the fault of R277, or the word and the machine after the access, which goes through the L1 and
the stall cache like a load, but for the task's own version. Removed deep memory reads as ones, with cause 0x2A (R299). -/
def State.fetch (s : State) (key : Nat) : Except (BitVec 8) (State × BitVec 32) :=
  let sl := s.slot key
  let bare : Slot := { sl with seg := {} }
  let pt := s.physTile (homeOf key)
  match s.resolve (some pt) bare .load sl.pc.toNat with
  | .error c => .error c
  | .ok (s1, x) =>
    if !x.ex || (x.priv && sl.pl == 0) then .error 0x22
    else if s.poisoned x.pa 4 then .error 0x29
    else if s.deepGone x.pa then .ok ((s1.missLine (pt / 16) sl x.pa sl.pc.toNat).deliverAC sl.taskid (homeOf key) 0x2A sl.pc, 0xFFFFFFFF)
    else .ok (s1.loadLine pt (homeOf key) bare x sl.pc.toNat 0 true, BitVec.ofNat 32 (s1.rd x.pa 4))

/-- FETCH_FAULT (R277, R81): the trap of the word at the pc, with EVAL the pc; a lost page ends the task. Nothing has issued. -/
def execFetchFault (cause : BitVec 8) (s : State) : Outcome :=
  if cause = 0x2D then .next (s.endAt s.cur cause s.me.pc) else .next (s.trap s.cur cause s.me.unitStart s.me.pc)

/-- ILLEGAL_WORD (R45, R46): a precise trap with EVAL the word and no other effect. -/
def execIllegalWord (word : BitVec 32) (cause : BitVec 8) (s : State) : Outcome :=
  .next (s.trapWord cause (word.setWidth 64))

/-! The hint run (R56 Table 22, R57). -/

/-- Major opcode of an instruction; 0, which is assigned to none, for a step of the device. -/
def majorOf (i : Instr) : Nat := match encode i with | some w => (fld w 26 6).toNat | none => 0

/-- The n field of the T-format forms that contain `qa:n`. -/
def countField (i : Instr) : Option (BitVec 4) :=
  match i with
  | .mxp _ _ n _ _ => some n
  | .dec _ n _ _ _ => some n
  | .phld _ n _ => some n
  | .phwr _ n _ => some n
  | .unf _ _ n _ _ => some n
  | .qadvP _ n => some n
  | .qadvC _ n => some n
  | .qwait _ n => some n
  | _ => none

/-- FENCE, FENCE.G, FENCE.B, CFL and CINV. -/
def takesScope (i : Instr) : Bool :=
  match i with
  | .fence | .fenceG | .fenceB | .cfl _ _ | .cinv _ _ => true
  | _ => false

def isMxp (i : Instr) : Bool := match i with | .mxp .. => true | _ => false
def isAccpro (i : Instr) : Bool := match i with | .accpro .. => true | _ => false
def isAccexp (i : Instr) : Bool := match i with | .accexp .. => true | _ => false
def isPf (i : Instr) : Bool := match i with | .pf .. => true | _ => false
def isGth (i : Instr) : Bool := match i with | .gth .. => true | _ => false

/-- The instruction accepts a hint kind (R56 Table 22). Majors 0x11, 0x12 and 0x13 are LD, ST, and AMO with CAS. -/
def acceptsHint (i : Instr) (kind : Nat) : Bool :=
  let m := majorOf i
  match kind with
  | 0 | 1 => decide (4 ≤ m) && decide (m ≤ 9)
  | 2 => m == 0x18 || m == 0x1A || m == 0x1B || m == 0x1C || isMxp i || isAccpro i || isAccexp i
  | 3 => m == 0x18 || m == 0x1A || m == 0x1B || isAccpro i
  | 4 => takesScope i
  | 5 => true
  | 6 => m == 0x11 || m == 0x12 || m == 0x13 || m == 0x1D || m == 0x1E || isPf i || isGth i
  | 7 => (countField i).isSome
  | _ => false

/-- The instruction is a HINT. -/
def isHint (i : Instr) : Bool := majorOf i == 0x3F

/-- The run before a hinted instruction misuses a hint (R57). -/
def hintMisuse (i : Instr) (hints : List (BitVec 4 × BitVec 22)) : Bool :=
  !(isHint i) && hints.any (fun h => !(acceptsHint i h.1.toNat) ||
    (h.1.toNat == 7 && (match countField i with | some n => n != 0 | none => true)))

/-! The choice of the next issue (R317). -/

/-- Ready, and free to issue: during a hold or a self-test of its stall a slot only completes a hint run it has begun (R59, R323). -/
def State.eligible (s : State) (key : Nat) : Bool :=
  let sl := s.slot key
  sl.phase == .ready && (!sl.hints.isEmpty || !(s.midSwap (stallOf (homeOf key))))

/-- The longest-waiting of the slots that have waited 1,016 issue cycles. -/
def State.oldest (s : State) (keys : List Nat) : Option Nat :=
  (keys.filter (fun k => decide (1016 ≤ (s.slot k).age))).foldl (fun (r : Option Nat) k => match r with
    | none => some k
    | some b => if (s.slot b).age < (s.slot k).age then some k else some b) none

/-- A member at a barrier that is complete and whose instruction is still to be performed (R174, R317 step 3). -/
def State.gangDue (s : State) (key : Nat) : Bool :=
  let l := s.slot key
  let ls := stallOf (homeOf key)
  l.phase == .waiting .gang && l.arrived.isSome && !l.performing && !(s.midSwap ls) && s.allArrived (s.members ls l.taskid)

/-- The slot that tile `home` issues from, and the pointer after it (R317). -/
def State.choose (s : State) (home : Nat) : Option (Nat × BitVec 3) :=
  let p := (s.tile home).ptr
  let keys := (slotsOfTile home).filter s.eligible
  match s.oldest keys with
  | some k => some (k, p)
  | none => match keys.find? (fun k => (s.slot k).due.isSome) with
    | some k => some (k, p)
    | none => match (match (slotsOfTile home).find? s.gangDue with
        | some k => some k
        | none => keys.find? (fun k => (s.slot k).prio)) with
      | some k => some (k, p)
      | none => match ((List.range 8).map (fun i => home * 8 + (p.toNat + i) % 8)).find? s.eligible with
        | some k => some (k, BitVec.ofNat 3 (k % 8 + 1))
        | none => none

/-- Tiles with a slot that may issue. -/
def State.busyTiles (s : State) : List Nat := dedup ((s.slots.filter (fun e => s.eligible e.1 || s.gangDue e.1)).map (fun e => homeOf e.1))

/-- The tile that issues next: the only one, or the one that the free choice names. -/
def State.nextTile (s : State) : Option Nat :=
  match s.busyTiles with
  | [] => none
  | [h] => some h
  | hs => some (hs.getD (Config.nextTile s.steps % hs.length) 0)

/-- The issue cycle of one tile: the slot chosen issues next and has used a PRIO grant, the other eligible slots have waited one cycle more. -/
def State.select (s : State) : State :=
  match s.nextTile with
  | none => s
  | some h => match s.choose h with
    | none => s
    | some (k, p) =>
      let s1 := s.modTile h (fun t => { t with ptr := p })
      { (slotsOfTile h).foldl (fun t j =>
          if !(t.eligible j || j = k) then t
          else t.modSlot j (fun l => if j = k then { l with age := 0, prio := false } else { l with age := l.age + 1 })) s1 with cur := k }

/-! What waits at switches (R323). -/

/-- What a switch holds still stands: the access that its slot waits at or is to make again, the message in the networks, the engine's command;
a credit is there until it is delivered. -/
def State.stillHeld (s : State) (h : Held) : Bool :=
  match h.who with
  | .access key task pc =>
    let l := s.slot key
    l.taskid == task && l.unitStart == pc && (l.phase == .ready || l.phase == .waiting .completion)
  | .message sender sentAt => s.net.any (fun m => m.fromSlot == sender && m.sentAt == sentAt)
  | .credit .. => true
  | .copy home task first idx => (s.tile home).chans.any (fun c => match c.2.cmds.head? with
    | some m => m.task == task && m.first == first && m.idx == idx && m.status == 0
    | none => false)
  | .unfold home task left => match (s.tile home).unfold with
    | some u => u.task == task && u.left == left
    | none => false
  | .dec stall task block => match (s.members stall task).head? with
    | some k => (s.slot k).arrived.isSome && (s.slot k).pidx.toNat == block
    | none => false

/-- The switches after a step: what no longer stands is forgotten, and the credits whose turn has come are delivered. -/
def State.settleHeld (s : State) : State :=
  if s.held.isEmpty then s else ({ s with held := s.held.filter s.stillHeld } : State).releaseCredits

/-- Requests of the debugger that an earlier step accepted take effect as soon as they can (R408). -/
def State.settleDebugs (s : State) : State :=
  (List.range 16).foldl (fun t p => if (t.part p).dbgWait.isSome then t.settleDebug p else t) s

/-! What acts next. -/

/-- The instruction at the pc of the slot that issues, or the step that stands for a word that has none. -/
def State.fetchInstr (s : State) : State × Instr :=
  match s.fetch s.cur with
  | .error c => (s, .fetchFault c)
  | .ok (t, w) => match decode w with
    | .error c => (t, .illegalWord w c)
    | .ok i => if hintMisuse i t.me.hints then (t, .illegalWord w 0x05) else (t, i)

/-- A cold reset, which alone acts on a module that the controller holds in reset (R414). -/
def isColdReset (i : Instr) : Bool := match i with | .coldReset .. => true | _ => false

/-- A step that comes through a host port: a write to BAR0, or an access of BAR2 (R404, R405). -/
def isBarAccess (i : Instr) : Bool :=
  match i with
  | .resetCold .. | .partitionReset .. | .checkpointStart | .checkpointRestore | .ckstatClear .. | .mcqdropClear | .mcqConfigWrite .. | .cxlen .. => true
  | .kill .. | .halt .. | .release .. | .step .. | .debugSave .. | .debugRestore .. | .resume .. | .peqdropClear .. => true
  | .tail .. | .chead .. | .qerrClear .. | .queueConfigWrite .. | .registerWrite .. | .hostRead .. | .hostWrite .. | .msixUnmask .. => true
  | _ => false

/-- An event of the agenda acts now: on a module that the controller holds in reset only a cold reset does (R414), with both host links down no
access of the host comes (R404, R416), and a complete barrier is first performed by the issue logic (R317 step 3). -/
def State.admits (s : State) (e : Instr) : Bool :=
  (!s.dev.held || isColdReset e) && !(s.dev.portDown == 3 && isBarAccess e) &&
  (match e with
   | .gangBarrierComplete stall task => s.inPass (s.members stall.toNat task)
   | _ => true)

/-- What the next step executes, and the state in which it does: the first event of the agenda, else the instruction of the slot that
was chosen, or the complete barrier at which that slot waits (R317). A slot with work at its boundary does that instead (R329), and a slot
that may not issue does nothing. -/
def State.pick (s : State) : State × Option Instr :=
  match s.agenda with
  | e :: rest => ({ s with agenda := rest }, if s.admits e then some e else none)
  | [] =>
    if s.dev.held then (s, none)
    else if s.gangDue s.cur then (s, some (.gangBarrierComplete (BitVec.ofNat 7 (stallOf (homeOf s.cur))) s.me.taskid))
    else if !(s.eligible s.cur) then (s, none)
    else if s.me.hints.isEmpty && s.me.hasWork then (s.boundary s.cur, none)
    else
      let r := s.fetchInstr
      (r.1, some r.2)

/-! Time. -/

/-- WDOG of a resident slot after `n` nanoseconds, and whether it runs out; it stays at 1 until its expiry is handled (R341). -/
def Slot.watch (sl : Slot) (n : Nat) : Slot × Bool :=
  if sl.occupied && sl.phase != .halted && sl.phase != .waiting .debugArea && sl.wdog != 0 then
    (if sl.wdog.toNat ≤ n then ({ sl with wdog := 1 }, true) else ({ sl with wdog := BitVec.ofNat 48 (sl.wdog.toNat - n) }, false))
  else (sl, false)

/-- A member waits at its barrier, which is not complete, and its GTO counts (R177). -/
def Slot.gangWaits (sl : Slot) : Bool := sl.arrived.isSome && !sl.performing && sl.phase == .waiting .gang && sl.gmask != 0xFFFF

/-- The slots after `n` nanoseconds. -/
def State.ageSlots (s : State) (n : Nat) : FMap Slot :=
  s.slots.map (fun e =>
    let a := (e.2.watch n).1
    (e.1, if a.gangWaits && !(s.midSwap (stallOf (homeOf e.1))) then { a with gangFor := a.gangFor + n } else a))

/-- The expiries that fall due within `n` nanoseconds. -/
def State.timeouts (s : State) (n : Nat) : List Instr :=
  s.slots.flatMap (fun e =>
    let key := e.1
    let sl := e.2
    (if (sl.watch n).2 then [Instr.watchdogExpiry (BitVec.ofNat 11 (homeOf key)) (BitVec.ofNat 3 key)] else []) ++
    (if sl.gangWaits && !(s.midSwap (stallOf (homeOf key))) && sl.gto != 0 && decide (sl.gto.toNat ≤ sl.gangFor + n) then
      [Instr.gangTimeout (BitVec.ofNat 7 (stallOf (homeOf key))) sl.taskid] else []))

/-- CYCLE of every physical tile after step `n` (R38). -/
def State.ageCycles (s : State) (n : Nat) : FMap Word :=
  (List.range 2048).filterMap (fun p =>
    let c := fget 0 s.cycles p + BitVec.ofNat 64 (Config.edges n p)
    if c = 0 then none else some (p, c))

/-- The steps of the device, and the inputs from outside, that may act on their own. -/
def Instr.arrives (i : Instr) : Bool :=
  i.isEvent && i.wf && (match i with | .illegalWord _ _ | .fetchFault _ => false | _ => true)

/-- The end of every step: TIME and CYCLE go on, expiries and what arrives from outside join the agenda, what waited at switches and at the
debugger's registers goes on, the host may set a mask of MSI-X, and the next slot is chosen unless an event acts next, so that every choice is
followed by its issue. -/
def State.tick (s : State) : State :=
  let n := s.steps
  let t := Config.elapsed n
  let u : State := ({ s with
    steps := n + 1
    time := s.time + BitVec.ofNat 64 t
    cycles := s.ageCycles n
    cut := Config.stopPoint n
    slots := s.ageSlots t
    agenda := s.agenda ++ s.timeouts t ++ (Config.arrival n).filter Sys2Proof.Machine.Instr.arrives } : State).settleHeld.settleDebugs.hostMasks
  if u.agenda.isEmpty then u.select else u

end Sys2Proof.Machine
end

