-- ==== Sys2Proof/Machine/Scalar.lean ====
section
/-! DEFINITION. The meanings of majors 0x01 to 0x0A: register and immediate arithmetic (R66 to R79). Each instruction reads its
sources, writes rd, and continues at pc + 4. -/

namespace Sys2Proof.Machine

/-- rd := f(a, b) (R69). -/
def alu2 (f : Word → Word → Word) (rd ra rb : BitVec 4) (s : State) : Outcome :=
  plain s (fun l => l.gw rd (f (l.gr ra) (l.gr rb)))

/-- rd := f(a) (R70, R71). -/
def alu1 (f : Word → Word) (rd ra : BitVec 4) (s : State) : Outcome := plain s (fun l => l.gw rd (f (l.gr ra)))

/-- rd := f(a, v) with the immediate of R77. -/
def aluI (f : Word → Word → Word) (rd ra : BitVec 4) (imm : BitVec 18) (s : State) : Outcome :=
  plain s (fun l => l.gw rd (f (l.gr ra) (l.imm64 imm)))

/-- rd := f(old rd, a, b) (R72, R73). -/
def alu3 (f : Word → Word → Word → Word) (rd ra rb : BitVec 4) (s : State) : Outcome :=
  plain s (fun l => l.gw rd (f (l.gr rd) (l.gr ra) (l.gr rb)))

/-- A division: rd and FLAGS.DZ (R76). -/
def aluDiv (f : Word → Word → Word) (rd ra rb : BitVec 4) (s : State) : Outcome :=
  plain s (fun l => (l.gw rd (f (l.gr ra) (l.gr rb))).orFlags (divFlags (l.gr rb)))

/-- ADD (R69). -/
def execAdd (rd ra rb : BitVec 4) (s : State) : Outcome := alu2 (fun a b => a + b) rd ra rb s

/-- SUB (R69). -/
def execSub (rd ra rb : BitVec 4) (s : State) : Outcome := alu2 (fun a b => a - b) rd ra rb s

/-- AND (R69). -/
def execAnd (rd ra rb : BitVec 4) (s : State) : Outcome := alu2 (fun a b => a &&& b) rd ra rb s

/-- OR (R69). -/
def execOr (rd ra rb : BitVec 4) (s : State) : Outcome := alu2 (fun a b => a ||| b) rd ra rb s

/-- XOR (R69). -/
def execXor (rd ra rb : BitVec 4) (s : State) : Outcome := alu2 (fun a b => a ^^^ b) rd ra rb s

/-- ANDN (R69). -/
def execAndn (rd ra rb : BitVec 4) (s : State) : Outcome := alu2 (fun a b => a &&& ~~~b) rd ra rb s

/-- ORN (R69). -/
def execOrn (rd ra rb : BitVec 4) (s : State) : Outcome := alu2 (fun a b => a ||| ~~~b) rd ra rb s

/-- SHL (R69). -/
def execShl (rd ra rb : BitVec 4) (s : State) : Outcome := alu2 (fun a b => shlW a (field b 0 6)) rd ra rb s

/-- SHR (R69). -/
def execShr (rd ra rb : BitVec 4) (s : State) : Outcome := alu2 (fun a b => shrW a (field b 0 6)) rd ra rb s

/-- SRA (R69). -/
def execSra (rd ra rb : BitVec 4) (s : State) : Outcome := alu2 (fun a b => sraW a (field b 0 6)) rd ra rb s

/-- ROL (R69). -/
def execRol (rd ra rb : BitVec 4) (s : State) : Outcome := alu2 (fun a b => rolW a (field b 0 6)) rd ra rb s

/-- MIN (R69). -/
def execMin (rd ra rb : BitVec 4) (s : State) : Outcome := alu2 minS rd ra rb s

/-- MAX (R69). -/
def execMax (rd ra rb : BitVec 4) (s : State) : Outcome := alu2 maxS rd ra rb s

/-- MINN (R69). -/
def execMinn (rd ra rb : BitVec 4) (s : State) : Outcome := alu2 minU rd ra rb s

/-- MAXN (R69). -/
def execMaxn (rd ra rb : BitVec 4) (s : State) : Outcome := alu2 maxU rd ra rb s

/-- SLT (R69). -/
def execSlt (rd ra rb : BitVec 4) (s : State) : Outcome := alu2 (fun a b => ofBool (condLt a b)) rd ra rb s

/-- SLTN (R69). -/
def execSltn (rd ra rb : BitVec 4) (s : State) : Outcome := alu2 (fun a b => ofBool (condLtn a b)) rd ra rb s

/-- SEQ (R69). -/
def execSeq (rd ra rb : BitVec 4) (s : State) : Outcome := alu2 (fun a b => ofBool (condEq a b)) rd ra rb s

/-- CLZ (R70). -/
def execClz (rd ra : BitVec 4) (s : State) : Outcome := alu1 (fun a => BitVec.ofNat 64 (clzN a.toNat 64)) rd ra s

/-- CTZ (R70). -/
def execCtz (rd ra : BitVec 4) (s : State) : Outcome := alu1 (fun a => BitVec.ofNat 64 (ctzN a.toNat 64)) rd ra s

/-- POPC (R70). -/
def execPopc (rd ra : BitVec 4) (s : State) : Outcome := alu1 (fun a => BitVec.ofNat 64 (popN a.toNat 64)) rd ra s

/-- SEXT (R71). -/
def execSext (rd ra : BitVec 4) (sz : BitVec 2) (s : State) : Outcome := alu1 (fun a => sextW a sz) rd ra s

/-- ZEXT (R71). -/
def execZext (rd ra : BitVec 4) (sz : BitVec 2) (s : State) : Outcome := alu1 (fun a => zextW a sz) rd ra s

/-- BFX (R72). -/
def execBfx (rd ra rb : BitVec 4) (s : State) : Outcome := alu2 bfxW rd ra rb s

/-- BFXS (R72). -/
def execBfxs (rd ra rb : BitVec 4) (s : State) : Outcome := alu2 bfxsW rd ra rb s

/-- BFI (R72). -/
def execBfi (rd ra rb : BitVec 4) (s : State) : Outcome := alu3 bfiW rd ra rb s

/-- CSEL: rd is the condition (R73). -/
def execCsel (rd ra rb : BitVec 4) (s : State) : Outcome := alu3 (fun old a b => if old != 0 then a else b) rd ra rb s

/-- LEA (R74). -/
def execLea (rd ra rb : BitVec 4) (sh : BitVec 2) (s : State) : Outcome := alu2 (fun a b => leaW a b sh) rd ra rb s

/-- MUL (R75). -/
def execMul (rd ra rb : BitVec 4) (s : State) : Outcome := alu2 (fun a b => a * b) rd ra rb s

/-- MULH (R75). -/
def execMulh (rd ra rb : BitVec 4) (s : State) : Outcome := alu2 mulhW rd ra rb s

/-- MULHN (R75). -/
def execMulhn (rd ra rb : BitVec 4) (s : State) : Outcome := alu2 mulhnW rd ra rb s

/-- DIV (R76). -/
def execDiv (rd ra rb : BitVec 4) (s : State) : Outcome := aluDiv divW rd ra rb s

/-- DIVN (R76). -/
def execDivn (rd ra rb : BitVec 4) (s : State) : Outcome := aluDiv divnW rd ra rb s

/-- REM (R76). -/
def execRem (rd ra rb : BitVec 4) (s : State) : Outcome := aluDiv remW rd ra rb s

/-- REMN (R76). -/
def execRemn (rd ra rb : BitVec 4) (s : State) : Outcome := aluDiv remnW rd ra rb s

/-- ADDI (R77). -/
def execAddi (rd ra : BitVec 4) (imm : BitVec 18) (s : State) : Outcome := aluI (fun a v => a + v) rd ra imm s

/-- ANDI (R77). -/
def execAndi (rd ra : BitVec 4) (imm : BitVec 18) (s : State) : Outcome := aluI (fun a v => a &&& v) rd ra imm s

/-- ORI (R77). -/
def execOri (rd ra : BitVec 4) (imm : BitVec 18) (s : State) : Outcome := aluI (fun a v => a ||| v) rd ra imm s

/-- XORI (R77). -/
def execXori (rd ra : BitVec 4) (imm : BitVec 18) (s : State) : Outcome := aluI (fun a v => a ^^^ v) rd ra imm s

/-- SLTI (R77). -/
def execSlti (rd ra : BitVec 4) (imm : BitVec 18) (s : State) : Outcome := aluI (fun a v => ofBool (condLt a v)) rd ra imm s

/-- SLTNI (R77). -/
def execSltni (rd ra : BitVec 4) (imm : BitVec 18) (s : State) : Outcome := aluI (fun a v => ofBool (condLtn a v)) rd ra imm s

/-- SHLI (R78). -/
def execShli (rd ra : BitVec 4) (n : BitVec 6) (s : State) : Outcome := alu1 (fun a => shlW a n.toNat) rd ra s

/-- SHRI (R78). -/
def execShri (rd ra : BitVec 4) (n : BitVec 6) (s : State) : Outcome := alu1 (fun a => shrW a n.toNat) rd ra s

/-- SRAI (R78). -/
def execSrai (rd ra : BitVec 4) (n : BitVec 6) (s : State) : Outcome := alu1 (fun a => sraW a n.toNat) rd ra s

/-- LIH (R79). -/
def execLih (rd ra : BitVec 4) (imm : BitVec 16) (s : State) : Outcome := alu1 (fun a => lihW a imm) rd ra s

end Sys2Proof.Machine
end

