-- ==== Sys2Proof/Machine/Dispatch.lean ====
section
/-! DEFINITION. One arm per constructor of Instr: a direct call of its meaning. -/

namespace Sys2Proof.Machine

/-- What an instruction, or a step of the device, does. -/
def exec (i : Instr) (s : State) : Host.Outcome State Fault Refusal :=
  match i with
  | .add rd ra rb => Sys2Proof.Machine.execAdd rd ra rb s
  | .sub rd ra rb => Sys2Proof.Machine.execSub rd ra rb s
  | .and rd ra rb => Sys2Proof.Machine.execAnd rd ra rb s
  | .or rd ra rb => Sys2Proof.Machine.execOr rd ra rb s
  | .xor rd ra rb => Sys2Proof.Machine.execXor rd ra rb s
  | .andn rd ra rb => Sys2Proof.Machine.execAndn rd ra rb s
  | .orn rd ra rb => Sys2Proof.Machine.execOrn rd ra rb s
  | .shl rd ra rb => Sys2Proof.Machine.execShl rd ra rb s
  | .shr rd ra rb => Sys2Proof.Machine.execShr rd ra rb s
  | .sra rd ra rb => Sys2Proof.Machine.execSra rd ra rb s
  | .rol rd ra rb => Sys2Proof.Machine.execRol rd ra rb s
  | .min rd ra rb => Sys2Proof.Machine.execMin rd ra rb s
  | .max rd ra rb => Sys2Proof.Machine.execMax rd ra rb s
  | .minn rd ra rb => Sys2Proof.Machine.execMinn rd ra rb s
  | .maxn rd ra rb => Sys2Proof.Machine.execMaxn rd ra rb s
  | .slt rd ra rb => Sys2Proof.Machine.execSlt rd ra rb s
  | .sltn rd ra rb => Sys2Proof.Machine.execSltn rd ra rb s
  | .seq rd ra rb => Sys2Proof.Machine.execSeq rd ra rb s
  | .clz rd ra => Sys2Proof.Machine.execClz rd ra s
  | .ctz rd ra => Sys2Proof.Machine.execCtz rd ra s
  | .popc rd ra => Sys2Proof.Machine.execPopc rd ra s
  | .sext rd ra sz => Sys2Proof.Machine.execSext rd ra sz s
  | .zext rd ra sz => Sys2Proof.Machine.execZext rd ra sz s
  | .bfx rd ra rb => Sys2Proof.Machine.execBfx rd ra rb s
  | .bfxs rd ra rb => Sys2Proof.Machine.execBfxs rd ra rb s
  | .bfi rd ra rb => Sys2Proof.Machine.execBfi rd ra rb s
  | .csel rd ra rb => Sys2Proof.Machine.execCsel rd ra rb s
  | .lea rd ra rb sh => Sys2Proof.Machine.execLea rd ra rb sh s
  | .mul rd ra rb => Sys2Proof.Machine.execMul rd ra rb s
  | .mulh rd ra rb => Sys2Proof.Machine.execMulh rd ra rb s
  | .mulhn rd ra rb => Sys2Proof.Machine.execMulhn rd ra rb s
  | .div rd ra rb => Sys2Proof.Machine.execDiv rd ra rb s
  | .divn rd ra rb => Sys2Proof.Machine.execDivn rd ra rb s
  | .rem rd ra rb => Sys2Proof.Machine.execRem rd ra rb s
  | .remn rd ra rb => Sys2Proof.Machine.execRemn rd ra rb s
  | .addi rd ra imm => Sys2Proof.Machine.execAddi rd ra imm s
  | .andi rd ra imm => Sys2Proof.Machine.execAndi rd ra imm s
  | .ori rd ra imm => Sys2Proof.Machine.execOri rd ra imm s
  | .xori rd ra imm => Sys2Proof.Machine.execXori rd ra imm s
  | .slti rd ra imm => Sys2Proof.Machine.execSlti rd ra imm s
  | .sltni rd ra imm => Sys2Proof.Machine.execSltni rd ra imm s
  | .shli rd ra n => Sys2Proof.Machine.execShli rd ra n s
  | .shri rd ra n => Sys2Proof.Machine.execShri rd ra n s
  | .srai rd ra n => Sys2Proof.Machine.execSrai rd ra n s
  | .lih rd ra imm => Sys2Proof.Machine.execLih rd ra imm s
  | .bEq ra rb off => Sys2Proof.Machine.execBEq ra rb off s
  | .bNe ra rb off => Sys2Proof.Machine.execBNe ra rb off s
  | .bLt ra rb off => Sys2Proof.Machine.execBLt ra rb off s
  | .bGe ra rb off => Sys2Proof.Machine.execBGe ra rb off s
  | .bLtn ra rb off => Sys2Proof.Machine.execBLtn ra rb off s
  | .bGen ra rb off => Sys2Proof.Machine.execBGen ra rb off s
  | .j off => Sys2Proof.Machine.execJ off s
  | .jal off => Sys2Proof.Machine.execJal off s
  | .jalr rd ra imm => Sys2Proof.Machine.execJalr rd ra imm s
  | .jr ra imm => Sys2Proof.Machine.execJr ra imm s
  | .loop ra off => Sys2Proof.Machine.execLoop ra off s
  | .ld rd ra sz ord sp off => Sys2Proof.Machine.execLd rd ra sz ord sp off s
  | .st rd ra sz ord sp off => Sys2Proof.Machine.execSt rd ra sz ord sp off s
  | .pf ra off => Sys2Proof.Machine.execPf ra off s
  | .cfl ra off => Sys2Proof.Machine.execCfl ra off s
  | .cinv ra off => Sys2Proof.Machine.execCinv ra off s
  | .amoAdd rd ra rb ord dw => Sys2Proof.Machine.execAmoAdd rd ra rb ord dw s
  | .amoAnd rd ra rb ord dw => Sys2Proof.Machine.execAmoAnd rd ra rb ord dw s
  | .amoOr rd ra rb ord dw => Sys2Proof.Machine.execAmoOr rd ra rb ord dw s
  | .amoXor rd ra rb ord dw => Sys2Proof.Machine.execAmoXor rd ra rb ord dw s
  | .amoMin rd ra rb ord dw => Sys2Proof.Machine.execAmoMin rd ra rb ord dw s
  | .amoMax rd ra rb ord dw => Sys2Proof.Machine.execAmoMax rd ra rb ord dw s
  | .amoMinn rd ra rb ord dw => Sys2Proof.Machine.execAmoMinn rd ra rb ord dw s
  | .amoMaxn rd ra rb ord dw => Sys2Proof.Machine.execAmoMaxn rd ra rb ord dw s
  | .amoSwap rd ra rb ord dw => Sys2Proof.Machine.execAmoSwap rd ra rb ord dw s
  | .cas rd ra rb ord dw => Sys2Proof.Machine.execCas rd ra rb ord dw s
  | .mopRedAdd ra rb dw => Sys2Proof.Machine.execMopRedAdd ra rb dw s
  | .mopRedAnd ra rb dw => Sys2Proof.Machine.execMopRedAnd ra rb dw s
  | .mopRedOr ra rb dw => Sys2Proof.Machine.execMopRedOr ra rb dw s
  | .mopRedXor ra rb dw => Sys2Proof.Machine.execMopRedXor ra rb dw s
  | .mopRedMin ra rb dw => Sys2Proof.Machine.execMopRedMin ra rb dw s
  | .mopRedMax ra rb dw => Sys2Proof.Machine.execMopRedMax ra rb dw s
  | .mopRedMinn ra rb dw => Sys2Proof.Machine.execMopRedMinn ra rb dw s
  | .mopRedMaxn ra rb dw => Sys2Proof.Machine.execMopRedMaxn ra rb dw s
  | .mopCas rd ra rb dw => Sys2Proof.Machine.execMopCas rd ra rb dw s
  | .mopSac rd ra rb dw => Sys2Proof.Machine.execMopSac rd ra rb dw s
  | .gth rd ra rb => Sys2Proof.Machine.execGth rd ra rb s
  | .fence => Sys2Proof.Machine.execFence s
  | .fenceG => Sys2Proof.Machine.execFenceG s
  | .fenceB => Sys2Proof.Machine.execFenceB s
  | .commit => Sys2Proof.Machine.execCommit s
  | .waita rd ra rb => Sys2Proof.Machine.execWaita rd ra rb s
  | .waitany rd ra => Sys2Proof.Machine.execWaitany rd ra s
  | .refl rd => Sys2Proof.Machine.execRefl rd s
  | .vadd vd va vb km => Sys2Proof.Machine.execVadd vd va vb km s
  | .vsub vd va vb km => Sys2Proof.Machine.execVsub vd va vb km s
  | .vmul vd va vb km => Sys2Proof.Machine.execVmul vd va vb km s
  | .vmin vd va vb km => Sys2Proof.Machine.execVmin vd va vb km s
  | .vmax vd va vb km => Sys2Proof.Machine.execVmax vd va vb km s
  | .vabs vd va km => Sys2Proof.Machine.execVabs vd va km s
  | .vneg vd va km => Sys2Proof.Machine.execVneg vd va km s
  | .vfma vd va vb km n => Sys2Proof.Machine.execVfma vd va vb km n s
  | .vand vd va vb km => Sys2Proof.Machine.execVand vd va vb km s
  | .vor vd va vb km => Sys2Proof.Machine.execVor vd va vb km s
  | .vxor vd va vb km => Sys2Proof.Machine.execVxor vd va vb km s
  | .vshl vd va vb km => Sys2Proof.Machine.execVshl vd va vb km s
  | .vshr vd va vb km => Sys2Proof.Machine.execVshr vd va vb km s
  | .vsra vd va vb km => Sys2Proof.Machine.execVsra vd va vb km s
  | .vcmpEq kd va vb km => Sys2Proof.Machine.execVcmpEq kd va vb km s
  | .vcmpNe kd va vb km => Sys2Proof.Machine.execVcmpNe kd va vb km s
  | .vcmpLt kd va vb km => Sys2Proof.Machine.execVcmpLt kd va vb km s
  | .vcmpLe kd va vb km => Sys2Proof.Machine.execVcmpLe kd va vb km s
  | .vcmpGt kd va vb km => Sys2Proof.Machine.execVcmpGt kd va vb km s
  | .vcmpGe kd va vb km => Sys2Proof.Machine.execVcmpGe kd va vb km s
  | .vsel vd va vb km n => Sys2Proof.Machine.execVsel vd va vb km n s
  | .vmov vd va km => Sys2Proof.Machine.execVmov vd va km s
  | .vidx vd km => Sys2Proof.Machine.execVidx vd km s
  | .vbc vd ra km tg => Sys2Proof.Machine.execVbc vd ra km tg s
  | .vext rd va lane => Sys2Proof.Machine.execVext rd va lane s
  | .vcvt vd va km tg => Sys2Proof.Machine.execVcvt vd va km tg s
  | .vqnt vd va vb tg => Sys2Proof.Machine.execVqnt vd va vb tg s
  | .vdq vd va vb km => Sys2Proof.Machine.execVdq vd va vb km s
  | .vcbd vd va vb km => Sys2Proof.Machine.execVcbd vd va vb km s
  | .vpack vd va vb km => Sys2Proof.Machine.execVpack vd va vb km s
  | .vunpkL vd va km => Sys2Proof.Machine.execVunpkL vd va km s
  | .vunpkH vd va km => Sys2Proof.Machine.execVunpkH vd va km s
  | .vredAdd vd va km => Sys2Proof.Machine.execVredAdd vd va km s
  | .vredMin vd va km => Sys2Proof.Machine.execVredMin vd va km s
  | .vredMax vd va km => Sys2Proof.Machine.execVredMax vd va km s
  | .vredAnd vd va km => Sys2Proof.Machine.execVredAnd vd va km s
  | .vredOr vd va km => Sys2Proof.Machine.execVredOr vd va km s
  | .vredXor vd va km => Sys2Proof.Machine.execVredXor vd va km s
  | .vscanAdd vd va km => Sys2Proof.Machine.execVscanAdd vd va km s
  | .vscanMin vd va km => Sys2Proof.Machine.execVscanMin vd va km s
  | .vscanMax vd va km => Sys2Proof.Machine.execVscanMax vd va km s
  | .vscanAnd vd va km => Sys2Proof.Machine.execVscanAnd vd va km s
  | .vscanOr vd va km => Sys2Proof.Machine.execVscanOr vd va km s
  | .vscanXor vd va km => Sys2Proof.Machine.execVscanXor vd va km s
  | .vperm vd va vb km => Sys2Proof.Machine.execVperm vd va vb km s
  | .vshf vd va n km => Sys2Proof.Machine.execVshf vd va n km s
  | .vrcp vd va km => Sys2Proof.Machine.execVrcp vd va km s
  | .vrsq vd va km => Sys2Proof.Machine.execVrsq vd va km s
  | .vex2 vd va km => Sys2Proof.Machine.execVex2 vd va km s
  | .vlg2 vd va km => Sys2Proof.Machine.execVlg2 vd va km s
  | .kand kd ka kb => Sys2Proof.Machine.execKand kd ka kb s
  | .kor kd ka kb => Sys2Proof.Machine.execKor kd ka kb s
  | .kxor kd ka kb => Sys2Proof.Machine.execKxor kd ka kb s
  | .knot kd ka => Sys2Proof.Machine.execKnot kd ka s
  | .kmovMaskToMask kd ka => Sys2Proof.Machine.execKmovMaskToMask kd ka s
  | .kmovScalarToMask kd ra => Sys2Proof.Machine.execKmovScalarToMask kd ra s
  | .kmovMaskToScalar rd ka => Sys2Proof.Machine.execKmovMaskToScalar rd ka s
  | .kpop rd ka => Sys2Proof.Machine.execKpop rd ka s
  | .kff rd ka => Sys2Proof.Machine.execKff rd ka s
  | .vld vt ra km sp off => Sys2Proof.Machine.execVld vt ra km sp off s
  | .vlds vt ra ix km sp off => Sys2Proof.Machine.execVlds vt ra ix km sp off s
  | .vgth vt ra ix km sp off => Sys2Proof.Machine.execVgth vt ra ix km sp off s
  | .vst vt ra km sp off => Sys2Proof.Machine.execVst vt ra km sp off s
  | .vsts vt ra ix km sp off => Sys2Proof.Machine.execVsts vt ra ix km sp off s
  | .vsct vt ra ix km sp off => Sys2Proof.Machine.execVsct vt ra ix km sp off s
  | .mxp qa qc n rs chain => Sys2Proof.Machine.execMxp qa qc n rs chain s
  | .dec qa n rs toBank wf => Sys2Proof.Machine.execDec qa n rs toBank wf s
  | .phld qa n swap => Sys2Proof.Machine.execPhld qa n swap s
  | .phsw settle => Sys2Proof.Machine.execPhsw settle s
  | .phrd qc rs => Sys2Proof.Machine.execPhrd qc rs s
  | .phwr qa n rs => Sys2Proof.Machine.execPhwr qa n rs s
  | .unf qa qc n rs adv => Sys2Proof.Machine.execUnf qa qc n rs adv s
  | .accrd qc rs clr tg => Sys2Proof.Machine.execAccrd qc rs clr tg s
  | .accclr rs cntOnly => Sys2Proof.Machine.execAccclr rs cntOnly s
  | .accpro rs rescale => Sys2Proof.Machine.execAccpro rs rescale s
  | .accexp qc rs clr tg => Sys2Proof.Machine.execAccexp qc rs clr tg s
  | .cntrd rs => Sys2Proof.Machine.execCntrd rs s
  | .probe full => Sys2Proof.Machine.execProbe full s
  | .qcfg qa rs => Sys2Proof.Machine.execQcfg qa rs s
  | .qadvP qa n => Sys2Proof.Machine.execQadvP qa n s
  | .qadvC qa n => Sys2Proof.Machine.execQadvC qa n s
  | .qstat qa rs => Sys2Proof.Machine.execQstat qa rs s
  | .qwait qa n => Sys2Proof.Machine.execQwait qa n s
  | .cpy ch rd ra rb att bn => Sys2Proof.Machine.execCpy ch rd ra rb att bn s
  | .cpyStep ch ra => Sys2Proof.Machine.execCpyStep ch ra s
  | .cpyWm ch ra => Sys2Proof.Machine.execCpyWm ch ra s
  | .cpySum ch rd => Sys2Proof.Machine.execCpySum ch rd s
  | .cpyStop ch => Sys2Proof.Machine.execCpyStop ch s
  | .sendReq rd ra rb k att bn => Sys2Proof.Machine.execSendReq rd ra rb k att bn s
  | .sendRpy rd ra rb k att bn => Sys2Proof.Machine.execSendRpy rd ra rb k att bn s
  | .migr ra => Sys2Proof.Machine.execMigr ra s
  | .fork rd ra rb att bn => Sys2Proof.Machine.execFork rd ra rb att bn s
  | .join ra => Sys2Proof.Machine.execJoin ra s
  | .tend => Sys2Proof.Machine.execTend s
  | .yield => Sys2Proof.Machine.execYield s
  | .spawn rd ra rb => Sys2Proof.Machine.execSpawn rd ra rb s
  | .srr rd sr => Sys2Proof.Machine.execSrr rd sr s
  | .srw ra sr => Sys2Proof.Machine.execSrw ra sr s
  | .trap n => Sys2Proof.Machine.execTrap n s
  | .eret => Sys2Proof.Machine.execEret s
  | .bkpt => Sys2Proof.Machine.execBkpt s
  | .time rd => Sys2Proof.Machine.execTime rd s
  | .idle => Sys2Proof.Machine.execIdle s
  | .limmA payload => Sys2Proof.Machine.execLimmA payload s
  | .limmB payload => Sys2Proof.Machine.execLimmB payload s
  | .round mode => Sys2Proof.Machine.execRound mode s
  | .sat code => Sys2Proof.Machine.execSat code s
  | .scope code => Sys2Proof.Machine.execScope code s
  | .prio => Sys2Proof.Machine.execPrio s
  | .cache policy => Sys2Proof.Machine.execCache policy s
  | .waitn count => Sys2Proof.Machine.execWaitn count s
  | .illegalWord word cause => Sys2Proof.Machine.execIllegalWord word cause s
  | .fetchFault cause => Sys2Proof.Machine.execFetchFault cause s
  | .gangBarrierComplete stall task => Sys2Proof.Machine.execGangBarrierComplete stall task s
  | .gangTimeout stall task => Sys2Proof.Machine.execGangTimeout stall task s
  | .mxpSlotComplete stall task => Sys2Proof.Machine.execMxpSlotComplete stall task s
  | .decBlockComplete stall task => Sys2Proof.Machine.execDecBlockComplete stall task s
  | .omuSettleEnd pstall => Sys2Proof.Machine.execOmuSettleEnd pstall s
  | .pilot pstall rho => Sys2Proof.Machine.execPilot pstall rho s
  | .unfoldSlot tile => Sys2Proof.Machine.execUnfoldSlot tile s
  | .forwardedReply task tile lanes => Sys2Proof.Machine.execForwardedReply task tile lanes s
  | .bankOpApply unit => Sys2Proof.Machine.execBankOpApply unit s
  | .sealedCommit task tile => Sys2Proof.Machine.execSealedCommit task tile s
  | .waitaWake tile slot => Sys2Proof.Machine.execWaitaWake tile slot s
  | .waitCompletion tile slot => Sys2Proof.Machine.execWaitCompletion tile slot s
  | .idleEnd tile slot => Sys2Proof.Machine.execIdleEnd tile slot s
  | .boundaryEvent tile slot => Sys2Proof.Machine.execBoundaryEvent tile slot s
  | .watchdogExpiry tile slot => Sys2Proof.Machine.execWatchdogExpiry tile slot s
  | .energyCharge quad energy => Sys2Proof.Machine.execEnergyCharge quad energy s
  | .slotFill tile slot => Sys2Proof.Machine.execSlotFill tile slot s
  | .gangStart stall => Sys2Proof.Machine.execGangStart stall s
  | .messageInjection tile net => Sys2Proof.Machine.execMessageInjection tile net s
  | .messageArrival idx => Sys2Proof.Machine.execMessageArrival idx s
  | .migrantArrival idx => Sys2Proof.Machine.execMigrantArrival idx s
  | .migrantAcceptance tile slot => Sys2Proof.Machine.execMigrantAcceptance tile slot s
  | .messageRefusal idx => Sys2Proof.Machine.execMessageRefusal idx s
  | .copyDescriptor tile ch => Sys2Proof.Machine.execCopyDescriptor tile ch s
  | .copyDescriptorComplete tile ch => Sys2Proof.Machine.execCopyDescriptorComplete tile ch s
  | .queueRecordFetch queue => Sys2Proof.Machine.execQueueRecordFetch queue s
  | .graphNodeFetch part => Sys2Proof.Machine.execGraphNodeFetch part s
  | .nodeComplete asid node => Sys2Proof.Machine.execNodeComplete asid node s
  | .forkNode asid node => Sys2Proof.Machine.execForkNode asid node s
  | .copyNode asid node => Sys2Proof.Machine.execCopyNode asid node s
  | .signalNode asid node => Sys2Proof.Machine.execSignalNode asid node s
  | .graphNode asid node => Sys2Proof.Machine.execGraphNode asid node s
  | .dispense part => Sys2Proof.Machine.execDispense part s
  | .preemption part => Sys2Proof.Machine.execPreemption part s
  | .rotationTick arcade => Sys2Proof.Machine.execRotationTick arcade s
  | .swapRelease arcade => Sys2Proof.Machine.execSwapRelease arcade s
  | .operatingPointChange quad => Sys2Proof.Machine.execOperatingPointChange quad s
  | .pointRaise quad => Sys2Proof.Machine.execPointRaise quad s
  | .quadrantPowerSample quad watts => Sys2Proof.Machine.execQuadrantPowerSample quad watts s
  | .modulePowerSample watts => Sys2Proof.Machine.execModulePowerSample watts s
  | .droopAlarm quad supply => Sys2Proof.Machine.execDroopAlarm quad supply s
  | .stretchEnd quad => Sys2Proof.Machine.execStretchEnd quad s
  | .throttleEnd quad => Sys2Proof.Machine.execThrottleEnd quad s
  | .sensorSample pstall logic banks => Sys2Proof.Machine.execSensorSample pstall logic banks s
  | .refreshRowDue pstall bank busy => Sys2Proof.Machine.execRefreshRowDue pstall bank busy s
  | .placementHalving => Sys2Proof.Machine.execPlacementHalving s
  | .pageExchangeStart quad frame => Sys2Proof.Machine.execPageExchangeStart quad frame s
  | .pageExchangeCommit quad => Sys2Proof.Machine.execPageExchangeCommit quad s
  | .scoutAccess pstall asid va => Sys2Proof.Machine.execScoutAccess pstall asid va s
  | .correctableError pstall place word => Sys2Proof.Machine.execCorrectableError pstall place word s
  | .uncorrectableError place => Sys2Proof.Machine.execUncorrectableError place s
  | .selfTestComplete unit number pass => Sys2Proof.Machine.execSelfTestComplete unit number pass s
  | .bankLoss unit number => Sys2Proof.Machine.execBankLoss unit number s
  | .cxlRemoval => Sys2Proof.Machine.execCxlRemoval s
  | .cxlInsertion => Sys2Proof.Machine.execCxlInsertion s
  | .lineLoss stalls source => Sys2Proof.Machine.execLineLoss stalls source s
  | .lightRecovery pstall rho => Sys2Proof.Machine.execLightRecovery pstall rho s
  | .sourceRestored src => Sys2Proof.Machine.execSourceRestored src s
  | .storeFlit bundle lane raw => Sys2Proof.Machine.execStoreFlit bundle lane raw s
  | .tagFlit bundle lane raw => Sys2Proof.Machine.execTagFlit bundle lane raw s
  | .ack head bundle vc seq => Sys2Proof.Machine.execAck head bundle vc seq s
  | .nak head bundle vc seq => Sys2Proof.Machine.execNak head bundle vc seq s
  | .rrf head bundle mask => Sys2Proof.Machine.execRrf head bundle mask s
  | .lanest head bundle weights => Sys2Proof.Machine.execLanest head bundle weights s
  | .applied head cls eseq => Sys2Proof.Machine.execApplied head cls eseq s
  | .fail head cls first last cause => Sys2Proof.Machine.execFail head cls first last cause s
  | .resync head cls eseq => Sys2Proof.Machine.execResync head cls eseq s
  | .gone head dev => Sys2Proof.Machine.execGone head dev s
  | .hello head dev => Sys2Proof.Machine.execHello head dev s
  | .keyx head answer cls value => Sys2Proof.Machine.execKeyx head answer cls value s
  | .pathReestablishment dev cls => Sys2Proof.Machine.execPathReestablishment dev cls s
  | .nakRepeat bundle vc => Sys2Proof.Machine.execNakRepeat bundle vc s
  | .ackTimer bundle vc => Sys2Proof.Machine.execAckTimer bundle vc s
  | .groupClose dev cls => Sys2Proof.Machine.execGroupClose dev cls s
  | .tagTimeout dev cls => Sys2Proof.Machine.execTagTimeout dev cls s
  | .storeTimeout dev cls => Sys2Proof.Machine.execStoreTimeout dev cls s
  | .laneRetrain bundle lane lost => Sys2Proof.Machine.execLaneRetrain bundle lane lost s
  | .retrainComplete bundle lane pass => Sys2Proof.Machine.execRetrainComplete bundle lane pass s
  | .laneWeightStep bundle lane => Sys2Proof.Machine.execLaneWeightStep bundle lane s
  | .deviceGone dev => Sys2Proof.Machine.execDeviceGone dev s
  | .moduleInsertion dev => Sys2Proof.Machine.execModuleInsertion dev s
  | .latchRelease => Sys2Proof.Machine.execLatchRelease s
  | .coolantOvertemp => Sys2Proof.Machine.execCoolantOvertemp s
  | .leak => Sys2Proof.Machine.execLeak s
  | .coldReset record retired rhos down => Sys2Proof.Machine.execColdReset record retired rhos down s
  | .resetCold record retired rhos down => Sys2Proof.Machine.execResetCold record retired rhos down s
  | .partitionReset part => Sys2Proof.Machine.execPartitionReset part s
  | .checkpointStart => Sys2Proof.Machine.execCheckpointStart s
  | .checkpointRestore => Sys2Proof.Machine.execCheckpointRestore s
  | .checkpointComplete micros => Sys2Proof.Machine.execCheckpointComplete micros s
  | .ckstatClear value => Sys2Proof.Machine.execCkstatClear value s
  | .mcqdropClear => Sys2Proof.Machine.execMcqdropClear s
  | .mcqConfigWrite len value => Sys2Proof.Machine.execMcqConfigWrite len value s
  | .cxlen value => Sys2Proof.Machine.execCxlen value s
  | .kill part task => Sys2Proof.Machine.execKill part task s
  | .halt part task => Sys2Proof.Machine.execHalt part task s
  | .release part serial => Sys2Proof.Machine.execRelease part serial s
  | .step part serial => Sys2Proof.Machine.execStep part serial s
  | .debugSave part serial => Sys2Proof.Machine.execDebugSave part serial s
  | .debugRestore part serial => Sys2Proof.Machine.execDebugRestore part serial s
  | .resume part serial => Sys2Proof.Machine.execResume part serial s
  | .peqdropClear part => Sys2Proof.Machine.execPeqdropClear part s
  | .tail queue value => Sys2Proof.Machine.execTail queue value s
  | .chead queue value => Sys2Proof.Machine.execChead queue value s
  | .qerrClear queue value => Sys2Proof.Machine.execQerrClear queue value s
  | .queueConfigWrite queue reg value => Sys2Proof.Machine.execQueueConfigWrite queue reg value s
  | .registerWrite offset size value => Sys2Proof.Machine.execRegisterWrite offset size value s
  | .hostRead pa len => Sys2Proof.Machine.execHostRead pa len s
  | .hostWrite pa data => Sys2Proof.Machine.execHostWrite pa data s
  | .msixUnmask port vec => Sys2Proof.Machine.execMsixUnmask port vec s
  | .probeComplete stall task rho => Sys2Proof.Machine.execProbeComplete stall task rho s
  | .gatherComplete tile slot => Sys2Proof.Machine.execGatherComplete tile slot s
  | .laneResync bundle lane => Sys2Proof.Machine.execLaneResync bundle lane s

end Sys2Proof.Machine
end

