-- ==== Sys2Proof/Machine/Step.lean ====
section
/-! DEFINITION. One step of the machine: what acts next, its meaning, and the time it takes (notes/assumptions/1.md); and the placing
of an instruction where the next step fetches it. -/

namespace Sys2Proof.Machine

/-- One step: an event of the agenda, an instruction, or a slot's boundary; then the end of the step. -/
def step (s : State) : Host.Outcome State Fault Refusal :=
  match s.pick with
  | (t, none) => .next t.tick
  | (t, some i) =>
    match exec i t with
    | .next u => .next u.tick
    | .fault f => .fault f
    | .refused r => .refused r

/-- First of the three page tables that withFetchWord lays out, each 32 KiB, in near memory; the code page follows them. -/
def placeTables : Nat := 0x0001_0000_0000
def placeCode : Nat := 0x0001_0002_0000

/-- The word stored at the physical address that the pc of the slot that issues next translates to: a task is loaded into the slot when
it has none that is ready, its address space is given tables that map the page of its pc, executable, and nothing else waits. -/
def State.withFetchWord (s : State) (_nbits w : Nat) : State :=
  let p := s.partOfArcade (arcadeOf (homeOf s.cur))
  let n := s.newTask p
  let s1 := if (s.slot s.cur).phase == .ready then s else n.1.setSlot s.cur (n.1.freshSlot p 0 0 n.2 placeCode [] false false)
  let s2 := s1.modMe (fun l =>
    { l with
      hints := []
      kill := false
      wdogDue := false
      stops := []
      pend := []
      late := none
      seg := { l.seg with doom := none, doomSig := false } })
  let sl := s2.me
  let va := sl.pc.toNat
  let pa := placeCode + va % 0x10000
  let m1 := wrN s2.mem ((s2.part sl.part).cfg.asidt.toNat + 8 * sl.asid.toNat) 8 (placeTables + 1)
  let m2 := wrN m1 (placeTables + 8 * bits va 51 40) 8 (placeTables + 0x8000 + 1)
  let m3 := wrN m2 (placeTables + 0x8000 + 8 * bits va 39 28) 8 (placeTables + 0x10000 + 1)
  let m4 := wrN m3 (placeTables + 0x10000 + 8 * bits va 27 16) 8 (placeCode + 9)
  { s2 with
    agenda := []
    mem := wrN m4 pa 4 w
    poison := fset false (pa / 32) false s2.poison
    rmap := fset [] (pa / 0x10000) [] s2.rmap
    l1 := []
    caches := []
    dev := { s2.dev with held := false } }

end Sys2Proof.Machine
end

