-- ==== Sys2Proof/Safety.lean ====
section
/-! DEFINITION. What a safe state is, and the words in which claims speak of a step: that an instruction completes, and what it
leaves as it was (the frame). -/

namespace Sys2Proof.Machine

/-- A safe state: memory is in its canonical form, so that equal memories are equal data, and there are 16 partitions (R415). -/
def State.Safe (s : State) : Prop := Memory.wf s.mem = true ∧ s.parts.length = 16

/-- One byte of physical memory (R5). -/
def State.byte (s : State) (a : Nat) : Byte := fget 0 s.mem a

/-- The instruction, or the step of the device, answers a next state, of which `P` holds. -/
def Completes (i : Instr) (s : State) (P : State → Prop) : Prop := ∃ t, exec i s = .next t ∧ P t

/-- The next instruction in sequence has a legal address (R80). -/
def State.goesOn (s : State) : Prop := legalTarget (s.me.pc.toNat + 4) = true

/-! The frame of a slot. -/

/-- What an instruction may change of its slot's context: scalar, vector and mask registers, ring handles, barriers, the bits of STATUS,
and FLAGS, RNGS, PIDX, GMASK and the current segment. Everything else of the context stays. -/
structure Touch where
  g : List (BitVec 4) := []
  v : List Nat := []
  k : List (BitVec 3) := []
  rings : List Nat := []
  bars : List Nat := []
  status : List Nat := []
  flags : Bool := false
  rngs : Bool := false
  pidx : Bool := false
  gmask : Bool := false
  seg : Bool := false
  deriving DecidableEq, Repr

/-- The context `y` is the context `x` but for what `t` names: the registers of R11, with the version, the access set and the doom of
the current segment. -/
structure Keeps (t : Touch) (x y : Slot) : Prop where
  g : ∀ r, r ∉ t.g → y.gr r = x.gr r
  v : ∀ i, i ∉ t.v → y.vr i = x.vr i
  k : ∀ i, i ∉ t.k → y.kr i = x.kr i
  rings : ∀ i, i ∉ t.rings → y.qr i = x.qr i
  bars : ∀ i, i ∉ t.bars → y.br i = x.br i
  status : ∀ i, i ∉ t.status → wbit y.status i = wbit x.status i
  flags : t.flags = false → y.flags = x.flags
  rngs : t.rngs = false → y.rngs = x.rngs
  pidx : t.pidx = false → y.pidx = x.pidx
  gmask : t.gmask = false → y.gmask = x.gmask
  taskid : y.taskid = x.taskid
  asid : y.asid = x.asid
  epc : y.epc = x.epc
  ecause : y.ecause = x.ecause
  eval : y.eval = x.eval
  estatus : y.estatus = x.estatus
  tvec : y.tvec = x.tvec
  quota : y.quota = x.quota
  wdog : y.wdog = x.wdog
  gto : y.gto = x.gto
  cwm : y.cwm = x.cwm
  ebcmin : y.ebcmin = x.ebcmin
  debt : y.debt = x.debt
  version : t.seg = false → y.seg.version = x.seg.version
  reads : t.seg = false → y.seg.reads = x.seg.reads
  writes : t.seg = false → y.seg.writes = x.seg.writes
  doom : t.seg = false → y.seg.doom = x.seg.doom
  doomSig : t.seg = false → y.seg.doomSig = x.seg.doomSig

/-! The frame of the machine. -/

/-- The components of the machine outside the slot whose instruction is performed. -/
inductive Component where
  | memory
  | otherSlots
  | tiles
  | lstalls
  | pstalls
  | cells
  | arcades
  | quads
  | parts
  | queues
  | nodes
  | messages
  | bankops
  | lines
  | poison
  | place
  | walks
  | caches
  | held
  | fabric
  | credits
  | msix
  | device
  | time
  deriving DecidableEq, Repr

/-- A component is the same before and after. A queue's deficit counter is charged by every issue (R311) and left out here; the components
`lines` (dirty lines, releases, the count of commits), `walks` (what translation has loaded), `caches` (which lines the caches hold, and the
runs of misses) and `held` (what waits at the switches of a moving stall) are the model's form of R268, R274, R278 to R283 and R323. -/
def Component.Same (c : Component) (s t : State) : Prop :=
  match c with
  | .memory => ∀ a, t.byte a = s.byte a
  | .otherSlots => ∀ k, k ≠ s.cur → t.slot k = s.slot k
  | .tiles => ∀ h, t.tile h = s.tile h
  | .lstalls => ∀ k, t.lstall k = s.lstall k
  | .pstalls => ∀ k, t.pstall k = s.pstall k
  | .cells => ∀ k, t.cell k = s.cell k
  | .arcades => ∀ k, t.arcade k = s.arcade k
  | .quads => ∀ k, t.quad k = s.quad k
  | .parts => t.parts = s.parts
  | .queues => ∀ q, { t.queue q with deficit := 0 } = { s.queue q with deficit := 0 }
  | .nodes => t.nodes = s.nodes
  | .messages => t.net = s.net ∧ t.refusals = s.refusals
  | .bankops => ∀ u, fget [] t.bankops u = fget [] s.bankops u
  | .lines => t.dirty = s.dirty ∧ t.releases = s.releases ∧ t.commits = s.commits
  | .poison => t.poison = s.poison ∧ t.lost = s.lost
  | .place => ∀ f, fget {} t.place f = fget {} s.place f
  | .walks => t.rmap = s.rmap ∧ t.tables = s.tables
  | .caches => t.l1 = s.l1 ∧ t.caches = s.caches ∧ t.overflow = s.overflow ∧ t.misses = s.misses
  | .held => t.held = s.held
  | .fabric => t.tx = s.tx ∧ t.rx = s.rx ∧ t.bundles = s.bundles ∧ t.gone = s.gone
  | .credits => t.refl = s.refl ∧ t.ended = s.ended
  | .msix => t.msix = s.msix
  | .device => t.dev = s.dev
  | .time => t.time = s.time ∧ t.cycles = s.cycles

/-- Every component but those named is the same, and the model's own fields stay. -/
def Unchanged (except : List Component) (s t : State) : Prop :=
  (∀ c, c ∉ except → c.Same s t) ∧ t.cur = s.cur ∧ t.steps = s.steps ∧ t.cut = s.cut ∧ t.agenda = s.agenda

/-- The instruction completes and the slot goes on in sequence, its hint run used up; nothing changes but what `except` and `touch` name. -/
def Retires (i : Instr) (s : State) (except : List Component) (touch : Touch) (P : State → Prop) : Prop :=
  Completes i s (fun t => Unchanged except s t ∧ Keeps touch s.me t.me ∧ t.me.pc = s.me.pc + 4 ∧ t.me.hints = [] ∧ P t)

/-- Control goes to `target`, with the same frame. -/
def GoesTo (i : Instr) (s : State) (target : Word) (touch : Touch) (P : State → Prop) : Prop :=
  Completes i s (fun t => Unchanged [] s t ∧ Keeps touch s.me t.me ∧ t.me.pc = target ∧ t.me.hints = [] ∧ P t)

/-- A write of `v` to scalar register `rd` has taken place: g0 still reads 0 (R13). -/
def Wrote (rd : BitVec 4) (v : Word) (t : State) : Prop := t.me.gr rd = if rd = 0 then 0 else v

/-! Scalar results, from the tables of chapter 3. -/

/-- Position and effective width of the field that a control word names (R72). -/
def fieldPos (b : Word) : Nat := (b &&& 63).toNat
def fieldWidth (b : Word) : Nat := Nat.min ((b >>> 8) &&& 127).toNat (64 - fieldPos b)

/-- A field of `e` bits from bit `p` (R72). -/
def fieldOf (a : Word) (p e : Nat) : Word := (a >>> p) &&& BitVec.ofNat 64 (2 ^ e - 1)

/-- Destination and result of the register forms of R69 to R76, and of R78 and R79. -/
def scalarResult (i : Instr) (l : Slot) : Option (BitVec 4 × Word) :=
  match i with
  | .add rd ra rb => some (rd, l.gr ra + l.gr rb)
  | .sub rd ra rb => some (rd, l.gr ra - l.gr rb)
  | .and rd ra rb => some (rd, l.gr ra &&& l.gr rb)
  | .or rd ra rb => some (rd, l.gr ra ||| l.gr rb)
  | .xor rd ra rb => some (rd, l.gr ra ^^^ l.gr rb)
  | .andn rd ra rb => some (rd, l.gr ra &&& ~~~l.gr rb)
  | .orn rd ra rb => some (rd, l.gr ra ||| ~~~l.gr rb)
  | .shl rd ra rb => some (rd, l.gr ra <<< (l.gr rb &&& 63))
  | .shr rd ra rb => some (rd, l.gr ra >>> (l.gr rb &&& 63))
  | .sra rd ra rb => some (rd, (l.gr ra).sshiftRight' (l.gr rb &&& 63))
  | .rol rd ra rb => some (rd, (l.gr ra).rotateLeft (l.gr rb &&& 63).toNat)
  | .min rd ra rb => some (rd, if (l.gr rb).slt (l.gr ra) then l.gr rb else l.gr ra)
  | .max rd ra rb => some (rd, if (l.gr ra).slt (l.gr rb) then l.gr rb else l.gr ra)
  | .minn rd ra rb => some (rd, if l.gr rb < l.gr ra then l.gr rb else l.gr ra)
  | .maxn rd ra rb => some (rd, if l.gr ra < l.gr rb then l.gr rb else l.gr ra)
  | .slt rd ra rb => some (rd, if (l.gr ra).slt (l.gr rb) then 1 else 0)
  | .sltn rd ra rb => some (rd, if l.gr ra < l.gr rb then 1 else 0)
  | .seq rd ra rb => some (rd, if l.gr ra = l.gr rb then 1 else 0)
  | .sext rd ra sz => some (rd, ((l.gr ra).setWidth (8 * 2 ^ sz.toNat)).signExtend 64)
  | .zext rd ra sz => some (rd, ((l.gr ra).setWidth (8 * 2 ^ sz.toNat)).setWidth 64)
  | .bfx rd ra rb => some (rd, fieldOf (l.gr ra) (fieldPos (l.gr rb)) (fieldWidth (l.gr rb)))
  | .bfxs rd ra rb =>
    let p := fieldPos (l.gr rb)
    let e := fieldWidth (l.gr rb)
    some (rd, if e ≠ 0 ∧ (l.gr ra).getLsbD (p + e - 1) then fieldOf (l.gr ra) p e ||| ~~~BitVec.ofNat 64 (2 ^ e - 1)
      else fieldOf (l.gr ra) p e)
  | .bfi rd ra rb =>
    let p := fieldPos (l.gr rb)
    let m := BitVec.ofNat 64 (2 ^ fieldWidth (l.gr rb) - 1)
    some (rd, (l.gr rd &&& ~~~(m <<< p)) ||| ((l.gr ra &&& m) <<< p))
  | .csel rd ra rb => some (rd, if l.gr rd = 0 then l.gr rb else l.gr ra)
  | .lea rd ra rb sh =>
    some (rd, (l.gr ra &&& 0xFF00000000000000#64) ||| ((l.gr ra + (l.gr rb <<< sh.toNat)) &&& 0x00FFFFFFFFFFFFFF#64))
  | .mul rd ra rb => some (rd, l.gr ra * l.gr rb)
  | .mulh rd ra rb => some (rd, (((l.gr ra).signExtend 128 * (l.gr rb).signExtend 128) >>> 64).setWidth 64)
  | .mulhn rd ra rb => some (rd, (((l.gr ra).setWidth 128 * (l.gr rb).setWidth 128) >>> 64).setWidth 64)
  | .div rd ra rb => some (rd, if l.gr rb = 0 then BitVec.allOnes 64 else (l.gr ra).sdiv (l.gr rb))
  | .divn rd ra rb => some (rd, if l.gr rb = 0 then BitVec.allOnes 64 else l.gr ra / l.gr rb)
  | .rem rd ra rb => some (rd, if l.gr rb = 0 then l.gr ra else (l.gr ra).srem (l.gr rb))
  | .remn rd ra rb => some (rd, if l.gr rb = 0 then l.gr ra else l.gr ra % l.gr rb)
  | .shli rd ra n => some (rd, l.gr ra <<< n)
  | .shri rd ra n => some (rd, l.gr ra >>> n)
  | .srai rd ra n => some (rd, (l.gr ra).sshiftRight' n)
  | .lih rd ra imm => some (rd, (l.gr ra &&& 0x0000FFFFFFFFFFFF#64) ||| (imm.setWidth 64 <<< 48))
  | _ => none

/-- FLAGS that a scalar instruction ORs in: DZ of a division by zero (R66, R76). -/
def scalarFlags (i : Instr) (l : Slot) : Word :=
  match i with
  | .div _ _ rb | .divn _ _ rb | .rem _ _ rb | .remn _ _ rb => if l.gr rb = 0 then 2 else 0
  | _ => 0

/-- Destination and result of the immediate forms of R77, for the immediate `v`. -/
def immediateResult (i : Instr) (l : Slot) (v : Word) : Option (BitVec 4 × BitVec 18 × Word) :=
  match i with
  | .addi rd ra imm => some (rd, imm, l.gr ra + v)
  | .andi rd ra imm => some (rd, imm, l.gr ra &&& v)
  | .ori rd ra imm => some (rd, imm, l.gr ra ||| v)
  | .xori rd ra imm => some (rd, imm, l.gr ra ^^^ v)
  | .slti rd ra imm => some (rd, imm, if (l.gr ra).slt v then 1 else 0)
  | .sltni rd ra imm => some (rd, imm, if l.gr ra < v then 1 else 0)
  | _ => none

/-- The immediate v of R58, from the 18 bits of the word and the payloads of the run. -/
def limmValue (imm : BitVec 18) (a b : Option (BitVec 22)) : Word :=
  let low : BitVec 40 := (a.getD 0) ++ imm
  match b with
  | some p => (if p.getLsbD 21 then 3#2 else 0#2) ++ p ++ low
  | none => low.signExtend 64

/-! Control flow and traps. -/

/-- A target, as an exact integer, that may become the pc (R80). -/
def LegalTarget (t : Int) : Prop := 0 ≤ t ∧ t < 2 ^ 52 ∧ t % 4 = 0

/-- The condition and the offset of a conditional branch (R82 Table 4). -/
def branchOf (i : Instr) (l : Slot) : Option (Prop × BitVec 14) :=
  match i with
  | .bEq ra rb off => some (l.gr ra = l.gr rb, off)
  | .bNe ra rb off => some (l.gr ra ≠ l.gr rb, off)
  | .bLt ra rb off => some ((l.gr ra).toInt < (l.gr rb).toInt, off)
  | .bGe ra rb off => some ((l.gr rb).toInt ≤ (l.gr ra).toInt, off)
  | .bLtn ra rb off => some ((l.gr ra).toNat < (l.gr rb).toNat, off)
  | .bGen ra rb off => some ((l.gr rb).toNat ≤ (l.gr ra).toNat, off)
  | _ => none

/-- The target and the link register of a jump (R83, R84). -/
def jumpOf (i : Instr) (l : Slot) : Option (Int × BitVec 4) :=
  match i with
  | .j off => some (l.pc.toNat + 4 * off.toInt, 0)
  | .jal off => some (l.pc.toNat + 4 * off.toInt, 15)
  | .jalr rd ra imm => some ((l.gr ra).toNat + imm.toInt, rd)
  | .jr ra imm => some ((l.gr ra).toNat + imm.toInt, 0)
  | _ => none

/-- Kind and payload of a HINT (R56 Table 22). -/
def hintOf (i : Instr) : Option (BitVec 4 × BitVec 22) :=
  match i with
  | .limmA p => some (0, p)
  | .limmB p => some (1, p)
  | .round m => some (2, m.setWidth 22)
  | .sat c => some (3, c.setWidth 22)
  | .scope c => some (4, c.setWidth 22)
  | .prio => some (5, 0)
  | .cache p => some (6, p.setWidth 22)
  | .waitn n => some (7, n.setWidth 22)
  | _ => none

/-- Instructions whose successor is always the next one in sequence: all with a word but branches, jumps, LOOP, HINT, and SRR, SRW, TRAP,
ERET, BKPT and TEND. -/
def alwaysSequential (i : Instr) : Bool :=
  !i.isEvent && (match i with
    | .bEq .. | .bNe .. | .bLt .. | .bGe .. | .bLtn .. | .bGen .. | .j .. | .jal .. | .jalr .. | .jr .. | .loop .. => false
    | .limmA .. | .limmB .. | .round .. | .sat .. | .scope .. | .prio | .cache .. | .waitn .. => false
    | .srr .. | .srw .. | .trap .. | .eret | .bkpt | .tend => false
    | _ => true)

/-- The slot whose instruction issues next may issue it: nothing waits on the agenda, the module is not held in reset, the slot is ready,
and no stop, trap or kill is due at its boundary. -/
def State.issues (s : State) : Prop :=
  s.agenda = [] ∧ s.dev.held = false ∧ s.eligible s.cur = true ∧ (s.me.hints = [] → s.me.hasWork = false)

/-- The end of a step: the outcome of an instruction, with the time it takes. -/
def ticked (o : Host.Outcome State Fault Refusal) : Host.Outcome State Fault Refusal :=
  match o with
  | .next t => .next t.tick
  | .fault f => .fault f
  | .refused r => .refused r

/-! Traps and system registers (chapters 1, 8 and 12). -/

/-- The handler of a context can start for exception pc `e` (R326). -/
def CanTrap (l : Slot) (e : Word) : Prop := l.tvec ≠ 0 ∧ LegalTarget l.tvec.toNat ∧ ¬(1 ≤ l.pl ∧ e = l.tvec)

/-- The context `y` is the context `l` after the entry of a trap of cause `c`, exception pc `e` and value `v` (R326). -/
structure TrapTaken (l y : Slot) (c : BitVec 8) (e v : Word) : Prop where
  estatus : y.estatus = l.status
  epc : y.epc = e
  ecause : y.ecause = c
  eval : y.eval = v
  pl : y.pl = if l.pl = 0 then 1 else l.pl
  tbw : y.tbw = if c = 0x40 ∨ c = 0x41 then false else l.tbw
  status : ∀ i, 2 ≤ i → i ≠ 6 → wbit y.status i = wbit l.status i
  pc : y.pc = l.tvec
  regs : y.g = l.g ∧ y.v = l.v ∧ y.k = l.k ∧ y.q = l.q ∧ y.b = l.b
  flags : y.flags = l.flags ∧ y.rngs = l.rngs ∧ y.pidx = l.pidx
  rest : y.taskid = l.taskid ∧ y.asid = l.asid ∧ y.tvec = l.tvec ∧ y.quota = l.quota ∧ y.wdog = l.wdog ∧ y.gto = l.gto ∧ y.cwm = l.cwm ∧
    y.ebcmin = l.ebcmin ∧ y.debt = l.debt
  segment : y.seg.version = l.seg.version ∧ y.seg.reads = l.seg.reads ∧ y.seg.writes = l.seg.writes
  phase : l.stepping = false → y.phase = .ready

/-- The slot has taken a trap, and nothing else has changed. -/
def Trapped (s t : State) (c : BitVec 8) (v : Word) : Prop := Unchanged [] s t ∧ TrapTaken s.me t.me c s.me.unitStart v ∧ t.me.hints = []

/-- The slot takes its own traps alone: it is no gang member, and its segment is not doomed. -/
def State.alone (s : State) : Prop := s.me.gang = false ∧ s.me.doomed = false

/-- The commit of the slot's segment meets nothing: it has not been made, the segment is not doomed or sealed, and nothing holds it up. -/
def State.clean (s : State) : Prop :=
  s.me.committed = false ∧ s.me.doomed = false ∧ s.me.seg.sealedCommit = false ∧ s.commitBlocked s.me (homeOf s.cur) = false

/-- Number, read level and write level of each system register; a register with no write level is read-only (R38 Table 9). -/
def sysTable : List (Nat × Nat × Option Nat) :=
  [(0x000, 0, some 0), (0x001, 0, some 0), (0x002, 0, none), (0x003, 0, none), (0x004, 0, none), (0x005, 0, none), (0x006, 0, none),
   (0x007, 0, none), (0x010, 1, some 1), (0x011, 1, some 1), (0x012, 1, some 1), (0x013, 0, some 1), (0x014, 1, some 1),
   (0x015, 1, some 2), (0x020, 0, none), (0x021, 0, none), (0x022, 0, some 0), (0x030, 0, some 3)] ++
  [(0x031, 0, some 2), (0x032, 0, some 2), (0x033, 0, some 2), (0x034, 0, none), (0x035, 0, some 2), (0x036, 0, some 0),
   (0x040, 0, none), (0x041, 0, some 0), (0x042, 2, some 2), (0x043, 0, some 2), (0x044, 2, some 2), (0x045, 2, none)]

/-- A system register of the slot whose instruction is performed, zero-extended (R38 Table 9). -/
def State.sysReg (s : State) (n : Nat) : Option Word :=
  let l := s.me
  let home := s.cur / 8
  match n with
  | 0x000 => some l.status
  | 0x001 => some l.flags
  | 0x002 => some l.taskid
  | 0x003 => some (BitVec.ofNat 64 home)
  | 0x004 => some (BitVec.ofNat 64 (s.physTile home))
  | 0x005 => some (BitVec.ofNat 64 (s.physTile home / 16))
  | 0x006 => some (BitVec.ofNat 64 (home / 128))
  | 0x007 => some (l.asid.setWidth 64)
  | 0x010 => some l.epc
  | 0x011 => some (l.ecause.setWidth 64)
  | 0x012 => some l.eval
  | 0x013 => some (l.pidx.setWidth 64)
  | 0x014 => some l.estatus
  | 0x015 => some l.tvec
  | 0x020 => some (fget 0 s.cycles (s.physTile home))
  | 0x021 => some s.time
  | 0x022 => some (l.rngs.setWidth 64)
  | 0x030 => some ((s.quad (home / 512)).drth.setWidth 64)
  | 0x031 => some ((s.arcade (home / 128)).rotivl.setWidth 64)
  | 0x032 => some (l.quota.setWidth 64)
  | 0x033 => some (l.wdog.setWidth 64)
  | 0x034 => some (l.gmask.setWidth 64)
  | 0x035 => some (l.gto.setWidth 64)
  | 0x036 => some (l.cwm.setWidth 64)
  | 0x040 => some (s.omuStatus (home / 16))
  | 0x041 => some (l.ebcmin.setWidth 64)
  | 0x042 => some (s.part l.part).wmtb
  | 0x043 => some ((s.tile home).mqcap.setWidth 64)
  | 0x044 => some ((s.part l.part).peqHead.setWidth 64)
  | 0x045 => some ((s.part l.part).peqTail.setWidth 64)
  | _ => none

/-- What an SRW of `v` to register `n` stores (R31, R32, R38, R39, R342, R365). -/
def State.sysStored (s : State) (n : Nat) (v : Word) : Word :=
  let low (w : Nat) : Word := v &&& BitVec.ofNat 64 (2 ^ w - 1)
  match n with
  | 0x000 =>
    let m : Word := if v.toNat / 4 % 8 ≤ 4 then 0x3001C else 0x30000
    (s.me.status &&& ~~~m) ||| (v &&& m)
  | 0x001 => v &&& 0x000000FF01FF007F#64
  | 0x011 | 0x030 => low 8
  | 0x013 | 0x035 | 0x044 => low 32
  | 0x014 => v &&& 0x0000000F070303FF#64
  | 0x022 => if low 32 = 0 then 1 else low 32
  | 0x031 => if (low 14).toNat < 50 then 50 else if 10000 < (low 14).toNat then 10000 else low 14
  | 0x032 =>
    if low 48 = 0xFFFFFFFFFFFF then low 48 else if (low 48).toNat < s.me.debt.toNat then 0 else low 48 - s.me.debt
  | 0x033 => low 48
  | 0x036 => low 16
  | 0x041 => if 8 < (low 4).toNat then 8 else low 4
  | 0x042 => v &&& 0x8000FFFFFFFFFFFF#64
  | 0x043 => if 1024 < (low 16).toNat then 1024 else low 16
  | _ => v

/-! Memory accesses (chapter 4). -/

/-- Nothing holds up a commit: no checkpoint runs, no page is being exchanged, and no bank operation is queued. -/
def State.quiet (s : State) : Prop := s.dev.ckBusy = false ∧ (∀ q, (s.quad q).exch = none) ∧ s.bankops = []

/-- The state in which LD or ST makes its access: an acquire has committed first, and its segment begins at the instruction (R88). -/
def AccessFrom (ord : BitVec 2) (s u : State) : Prop := if ord.getLsbD 0 then s.clean ∧ u = (s.commitSlot s.cur).openHere else u = s

/-- What a global access may change besides what it reads or writes: the A bit of its leaf entry, the placement record, what translation
has loaded, the lines of the caches, and the dirty lines that a displaced line or an acquire writes back (R268, R274, R276, R278 to R282,
R285). -/
def accessScope : List Component := [.memory, .place, .walks, .lines, .caches]

/-- The page bits that an access of tile `pt` finds with a line of its caches (R278). -/
def State.hitBits (s : State) (pt : Option Nat) (l : Slot) (acc : Access) (ea : Nat) : Option Nat :=
  match pt with
  | some p => if acc.cached then s.lineBits p l acc.writes (ea / 32) else none
  | none => none

/-- Every byte outside the leaf entry of the access is as before. -/
def LeafOnly (x : Xlat) (s t : State) : Prop := ∀ a, a < x.at' ∨ x.at' + 8 ≤ a → t.byte a = s.byte a

/-- Byte `i` of a register. -/
def byteOf (v : Word) (i : Nat) : Byte := (v >>> (8 * i)).setWidth 8

/-- The effective address of LD and ST (R86). -/
def accessEa (l : Slot) (ra : BitVec 4) (off : BitVec 12) (sz : BitVec 2) : Word := l.gr ra + BitVec.ofInt 64 (off.toInt * 2 ^ sz.toNat)

/-- The value that an atomic or bank operation stores over `n` bits, by fn<3:0> (R98). -/
def opResult (n op : Nat) (old y : BitVec n) : BitVec n :=
  match op with
  | 0 => old + y
  | 1 => old &&& y
  | 2 => old ||| y
  | 3 => old ^^^ y
  | 4 => if y.slt old then y else old
  | 5 => if old.slt y then y else old
  | 6 => if y < old then y else old
  | 7 => if old < y then y else old
  | _ => y

/-- Destination, address register, order, size bit, and what an AMO or CAS stores in place of `old`, if anything (R98, R99). -/
def atomicOf (i : Instr) (l : Slot) : Option (BitVec 4 × BitVec 4 × BitVec 2 × BitVec 1 × (Nat → Option Nat)) :=
  let bits' (dw : BitVec 1) : Nat := if dw = 0 then 32 else 64
  let amo (op : Nat) (rd ra rb : BitVec 4) (ord : BitVec 2) (dw : BitVec 1) :=
    some (rd, ra, ord, dw, fun old => some (opResult (bits' dw) op (BitVec.ofNat _ old) (BitVec.ofNat _ (l.gr rb).toNat)).toNat)
  match i with
  | .amoAdd rd ra rb ord dw => amo 0 rd ra rb ord dw
  | .amoAnd rd ra rb ord dw => amo 1 rd ra rb ord dw
  | .amoOr rd ra rb ord dw => amo 2 rd ra rb ord dw
  | .amoXor rd ra rb ord dw => amo 3 rd ra rb ord dw
  | .amoMin rd ra rb ord dw => amo 4 rd ra rb ord dw
  | .amoMax rd ra rb ord dw => amo 5 rd ra rb ord dw
  | .amoMinn rd ra rb ord dw => amo 6 rd ra rb ord dw
  | .amoMaxn rd ra rb ord dw => amo 7 rd ra rb ord dw
  | .amoSwap rd ra rb ord dw => amo 8 rd ra rb ord dw
  | .cas rd ra rb ord dw =>
    some (rd, ra, ord, dw, fun old =>
      if BitVec.ofNat (bits' dw) old = (l.gr rd).setWidth (bits' dw) then some ((l.gr rb).setWidth (bits' dw)).toNat else none)
  | _ => none

/-- Address and data registers, size bit, and operation of MOP.RED (R102). -/
def redOf (i : Instr) : Option (BitVec 4 × BitVec 4 × BitVec 1 × Nat) :=
  match i with
  | .mopRedAdd ra rb dw => some (ra, rb, dw, 0)
  | .mopRedAnd ra rb dw => some (ra, rb, dw, 1)
  | .mopRedOr ra rb dw => some (ra, rb, dw, 2)
  | .mopRedXor ra rb dw => some (ra, rb, dw, 3)
  | .mopRedMin ra rb dw => some (ra, rb, dw, 4)
  | .mopRedMax ra rb dw => some (ra, rb, dw, 5)
  | .mopRedMinn ra rb dw => some (ra, rb, dw, 6)
  | .mopRedMaxn ra rb dw => some (ra, rb, dw, 7)
  | _ => none

/-- MOP.CAS and MOP.SAC: registers, size bit and operation (R103, R104). -/
def valueOpOf (i : Instr) : Option (BitVec 4 × BitVec 4 × BitVec 4 × BitVec 1 × Nat) :=
  match i with
  | .mopCas rd ra rb dw => some (rd, ra, rb, dw, 8)
  | .mopSac rd ra rb dw => some (rd, ra, rb, dw, 9)
  | _ => none

/-- The first cause of a list of checks whose condition holds. -/
def firstCause : List (Bool × BitVec 8) → Option (BitVec 8)
  | [] => none
  | (b, c) :: l => if b then some c else firstCause l

/-- Steps 3 to 10 of R87 Table 2 for a translated access, with the entry of a transmit-window page. -/
def checkList (s : State) (l : Slot) (acc : Access) (ea sz : Nat) (x : Xlat) (e : Option WEntry) : List (Bool × BitVec 8) :=
  let lf := (e.map (fun w => w.lfmt)).getD 0
  let load := acc == .load || acc == .wait
  let oper := acc == .atomic || acc == .bankop
  [ (x.ty == 1 && e.isNone, 0x21),
    (acc == .store && x.ty == 1 && lf != 0 && (decide (sz < localBytes lf) || ea % localBytes lf != 0), 0x20),
    ((acc == .store || oper) && !x.wr || (load || oper || acc == .gather) && !x.rdok || x.priv && l.pl == 0, 0x22),
    ((oper || acc == .gather) && x.ty != 0, 0x23),
    (load && x.ty == 1 && !((e.map (fun w => w.lb)).getD false), 0x27),
    (acc == .store && x.ty == 2, 0x28),
    (acc == .bankop && l.seg.touches (ea / 32), 0x24),
    (acc != .store && s.poisoned x.pa sz && !(load && inVersion l.seg.version ea sz), 0x29),
    (acc == .store && !(l.seg.holdsLine (ea / 32)) && decide (2048 ≤ l.seg.lines), 0x2B) ]

/-! Vector instructions (chapters 1, 5 and 6). -/

/-- The word of an instruction, zero-extended, as EVAL of causes 0x01 to 0x08 holds it (R46, R325). -/
def evalWord (i : Instr) : Word := ((encode i).getD 0).setWidth 64

/-- Bits of an element of a tag (R18 Table 3). -/
def tagWidth (t : BitVec 4) : Nat :=
  if t = 4 ∨ t = 5 ∨ t = 6 ∨ t = 11 then 16 else if t = 7 ∨ t = 8 ∨ t = 12 then 8 else if t = 9 ∨ t = 10 then 4 else 32

/-- Element `e` of a register, of the width of its tag (R18). -/
def VReg.code (x : VReg) (e : Nat) : Nat := (x.lanes.toNat / 2 ^ (tagWidth x.tag * e)) % 2 ^ tagWidth x.tag

/-- Lane `j` of a register. -/
def VReg.word (x : VReg) (j : Nat) : BitVec 32 := x.lanes.extractLsb' (32 * j) 32

/-- A vector instruction whose destination is one vector register: destination, write mask, sources, whether their tags are accepted, and
the result tag. -/
structure VecOp where
  vd : BitVec 5
  mask : BitVec 32
  srcs : List VReg
  ok : Bool
  tag : BitVec 4
  deriving DecidableEq, Repr

/-- The tags of R140. -/
def arithmeticTag (t : BitVec 4) : Bool := decide (1 ≤ t.toNat ∧ t.toNat ≤ 8)

/-- A tag whose codes have a value (R151 Table 3). -/
def valuedTag (t : BitVec 4) : Bool := decide (1 ≤ t.toNat ∧ t.toNat ≤ 10)

/-- Narrow tag of VPACK and wide tag of VUNPK (Table 4), and the conversions of VCVT (Table 3). -/
def narrowTag (t : BitVec 4) : Option (BitVec 4) :=
  match t.toNat with
  | 3 => some 4 | 4 => some 7 | 5 => some 7 | 7 => some 9 | 1 => some 6 | 6 => some 8 | 8 => some 10
  | _ => none
def wideTag (t : BitVec 4) : Option (BitVec 4) :=
  match t.toNat with
  | 4 => some 3 | 5 => some 3 | 7 => some 4 | 9 => some 7 | 6 => some 1 | 8 => some 6 | 10 => some 8
  | _ => none
def converts (t u : BitVec 4) : Bool :=
  (decide (1 ≤ t.toNat ∧ t.toNat ≤ 10 ∧ 1 ≤ u.toNat ∧ u.toNat ≤ 10)) ||
    (t == 6 && u == 11) || (t == 11 && u == 6) || (t == 8 && u == 12) || (t == 12 && u == 8)

/-- The vector instructions with one vector destination (R140 to R163). -/
def vecOpOf (i : Instr) (l : Slot) : Option VecOp :=
  let two (vd va vb : BitVec 5) (km : BitVec 3) (p : BitVec 4 → Bool) : Option VecOp :=
    let a := l.vr va.toNat
    let b := l.vr vb.toNat
    some ⟨vd, l.kr km, [a, b], p a.tag && b.tag == a.tag, a.tag⟩
  let one (vd va : BitVec 5) (mask : BitVec 32) (p : BitVec 4 → Bool) : Option VecOp :=
    let a := l.vr va.toNat
    some ⟨vd, mask, [a], p a.tag, a.tag⟩
  let all : BitVec 32 := 0xFFFFFFFF
  let ints (t : BitVec 4) : Bool := t == 1 || t == 2 || t == 6 || t == 8
  let float (t : BitVec 4) : Bool := t == 3 || t == 4 || t == 5
  match i with
  | .vadd vd va vb km | .vsub vd va vb km | .vmul vd va vb km | .vmin vd va vb km | .vmax vd va vb km => two vd va vb km arithmeticTag
  | .vabs vd va km | .vneg vd va km => one vd va (l.kr km) arithmeticTag
  | .vfma vd va vb km n =>
    let a := l.vr va.toNat
    let b := l.vr vb.toNat
    let o := l.vr (16 + n.toNat)
    some ⟨vd, l.kr km, [a, b, o], arithmeticTag a.tag && b.tag == a.tag && o.tag == a.tag, a.tag⟩
  | .vand vd va vb km | .vor vd va vb km | .vxor vd va vb km => two vd va vb km (fun _ => true)
  | .vshl vd va vb km | .vshr vd va vb km | .vsra vd va vb km => two vd va vb km ints
  | .vsel vd va vb km n =>
    let a := l.vr va.toNat
    let b := l.vr vb.toNat
    some ⟨vd, l.kr km, [a, b, l.vr (16 + n.toNat)], b.tag == a.tag, a.tag⟩
  | .vmov vd va km => one vd va (l.kr km) (fun _ => true)
  | .vidx vd km => some ⟨vd, l.kr km, [], true, 1⟩
  | .vbc vd _ km tg => some ⟨vd, l.kr km, [], true, tg⟩
  | .vcvt vd va km tg =>
    let a := l.vr va.toNat
    some ⟨vd, l.kr km, [a], converts a.tag tg, tg⟩
  | .vdq vd va vb km =>
    let a := l.vr va.toNat
    let b := l.vr vb.toNat
    some ⟨vd, l.kr km, [a, b], decide (7 ≤ a.tag.toNat ∧ a.tag.toNat ≤ 10) && b.tag == 12, 3⟩
  | .vcbd vd va vb km =>
    let a := l.vr va.toNat
    let b := l.vr vb.toNat
    some ⟨vd, l.kr km, [a, b], a.tag == 11 && b.tag == 12, 7⟩
  | .vpack vd va vb km =>
    let a := l.vr va.toNat
    let b := l.vr vb.toNat
    some ⟨vd, l.kr km, [a, b], (narrowTag a.tag).isSome && b.tag == a.tag, (narrowTag a.tag).getD 0⟩
  | .vunpkL vd va km | .vunpkH vd va km =>
    let a := l.vr va.toNat
    some ⟨vd, l.kr km, [a], (wideTag a.tag).isSome, (wideTag a.tag).getD 0⟩
  | .vredAdd vd va _ | .vredMin vd va _ | .vredMax vd va _ | .vscanAdd vd va _ | .vscanMin vd va _ | .vscanMax vd va _ =>
    one vd va all arithmeticTag
  | .vredAnd vd va _ | .vredOr vd va _ | .vredXor vd va _ | .vscanAnd vd va _ | .vscanOr vd va _ | .vscanXor vd va _ =>
    one vd va all (fun _ => true)
  | .vperm vd va vb km =>
    let a := l.vr va.toNat
    let b := l.vr vb.toNat
    some ⟨vd, l.kr km, [a, b], b.tag == 1 || b.tag == 2, a.tag⟩
  | .vshf vd va _ km => one vd va (l.kr km) (fun _ => true)
  | .vrcp vd va km | .vrsq vd va km | .vex2 vd va km | .vlg2 vd va km => one vd va (l.kr km) float
  | _ => none

/-- The destination takes a masked write of the result tag (R20). -/
def VecOp.writable (op : VecOp) (old : VReg) : Prop := op.mask = 0xFFFFFFFF ∨ old.tag = op.tag ∨ old.tag = 0

/-- The sources are not VOID and their tags are accepted (R19). -/
def VecOp.accepted (op : VecOp) : Prop := (∀ x ∈ op.srcs, x.tag ≠ 0) ∧ op.ok = true

/-- What a vector write leaves besides the result: the tag, the lanes masked off, `lt`, STATUS.VS, and sticky flags (R17, R20, R33, R137). -/
def VecOp.Written (op : VecOp) (l y : Slot) : Prop :=
  (y.vr op.vd.toNat).tag = op.tag ∧ y.vr 24 = y.vr op.vd.toNat ∧ y.vs = true ∧
  (∀ j, j < 32 → op.mask.getLsbD j = false →
    (y.vr op.vd.toNat).word j = if (l.vr op.vd.toNat).tag = 0 then 0 else (l.vr op.vd.toNat).word j) ∧
  (∀ b, (wbit l.flags b = true → wbit y.flags b = true) ∧ (7 ≤ b → wbit y.flags b = wbit l.flags b))

/-- Bit `p` of the result of an instruction that moves or combines bits (R143, R144, R146 to R149, R158 to R161). -/
def vecBitOf (i : Instr) (l : Slot) : Option (Nat → Bool) :=
  let reg (v : BitVec 5) (p : Nat) : Bool := (l.vr v.toNat).lanes.getLsbD p
  let width (v : BitVec 5) : Nat := tagWidth (l.vr v.toNat).tag
  let amount (va vb : BitVec 5) (p : Nat) : Nat := (l.vr vb.toNat).code (p / width va) % width va
  let parts (va : BitVec 5) (km : BitVec 3) (n : Nat) : List Nat :=
    (List.range n).filter (fun e => (l.kr km).getLsbD (e * width va / 32))
  let bitIn (va : BitVec 5) (p e : Nat) : Bool := reg va (width va * e + p % width va)
  let total (va : BitVec 5) : Nat := 1024 / width va
  match i with
  | .vand _ va vb _ => some (fun p => reg va p && reg vb p)
  | .vor _ va vb _ => some (fun p => reg va p || reg vb p)
  | .vxor _ va vb _ => some (fun p => reg va p != reg vb p)
  | .vshl _ va vb _ => some (fun p => decide (amount va vb p ≤ p % width va) && reg va (p - amount va vb p))
  | .vshr _ va vb _ => some (fun p => decide (p % width va + amount va vb p < width va) && reg va (p + amount va vb p))
  | .vsra _ va vb _ => some (fun p =>
      reg va (if p % width va + amount va vb p < width va then p + amount va vb p else p / width va * width va + (width va - 1)))
  | .vsel _ va vb _ n => some (fun p => if (l.vr (16 + n.toNat)).word (p / 32) = 0 then reg vb p else reg va p)
  | .vmov _ va _ => some (fun p => reg va p)
  | .vidx _ _ => some (fun p => (p / 32).testBit (p % 32))
  | .vbc _ ra _ tg => some (fun p => (l.gr ra).getLsbD (p % tagWidth tg))
  | .vcvt _ va _ tg => if valuedTag (l.vr va.toNat).tag && valuedTag tg then none else some (fun p => reg va p)
  | .vperm _ va vb _ => some (fun p => reg va (32 * (((l.vr vb.toNat).word (p / 32)).toNat % 32) + p % 32))
  | .vshf _ va n _ => some (fun p => reg va (width va * ((p / width va + total va - n.toNat) % total va) + p % width va))
  | .vredAnd _ va km => some (fun p => !(parts va km (total va)).isEmpty && (parts va km (total va)).all (bitIn va p))
  | .vredOr _ va km => some (fun p => (parts va km (total va)).any (bitIn va p))
  | .vredXor _ va km => some (fun p => (parts va km (total va)).foldl (fun r e => r != bitIn va p e) false)
  | .vscanAnd _ va km => some (fun p => !(parts va km (p / width va + 1)).isEmpty && (parts va km (p / width va + 1)).all (bitIn va p))
  | .vscanOr _ va km => some (fun p => (parts va km (p / width va + 1)).any (bitIn va p))
  | .vscanXor _ va km => some (fun p => (parts va km (p / width va + 1)).foldl (fun r e => r != bitIn va p e) false)
  | _ => none

/-- The integer tags of R140, with their limits (chapter 5, Table 1). -/
def intTag (t : BitVec 4) : Bool := t == 1 || t == 2 || t == 6 || t == 8
def intLow (t : BitVec 4) : Int := if t = 2 then 0 else -(2 ^ (tagWidth t - 1))
def intHigh (t : BitVec 4) : Int := if t = 2 then 2 ^ 32 - 1 else 2 ^ (tagWidth t - 1) - 1

/-- Value of element `e` of an integer register. -/
def VReg.int (x : VReg) (e : Nat) : Int := if x.tag = 2 then x.code e else (BitVec.ofNat (tagWidth x.tag) (x.code e)).toInt

/-- The exact result of integer element arithmetic (R140 to R142). -/
def vecIntOf (i : Instr) (l : Slot) : Option (Nat → Int) :=
  let v (r : BitVec 5) (e : Nat) : Int := (l.vr r.toNat).int e
  match i with
  | .vadd _ va vb _ => some (fun e => v va e + v vb e)
  | .vsub _ va vb _ => some (fun e => v va e - v vb e)
  | .vmul _ va vb _ => some (fun e => v va e * v vb e)
  | .vmin _ va vb _ => some (fun e => min (v va e) (v vb e))
  | .vmax _ va vb _ => some (fun e => max (v va e) (v vb e))
  | .vabs _ va _ => some (fun e => ((v va e).natAbs : Int))
  | .vneg _ va _ => some (fun e => -(v va e))
  | .vfma _ va vb _ n => some (fun e => v va e * v vb e + (l.vr (16 + n.toNat)).int e)
  | _ => none

/-- A comparison: condition, mask register written, sources and mask (R145). -/
def compareOf (i : Instr) : Option (Nat × BitVec 3 × BitVec 5 × BitVec 5 × BitVec 3) :=
  match i with
  | .vcmpEq kd va vb km => some (0, kd, va, vb, km)
  | .vcmpNe kd va vb km => some (1, kd, va, vb, km)
  | .vcmpLt kd va vb km => some (2, kd, va, vb, km)
  | .vcmpLe kd va vb km => some (3, kd, va, vb, km)
  | .vcmpGt kd va vb km => some (4, kd, va, vb, km)
  | .vcmpGe kd va vb km => some (5, kd, va, vb, km)
  | _ => none

def compareHolds (c : Nat) (x y : Int) : Prop :=
  match c with
  | 0 => x = y
  | 1 => x ≠ y
  | 2 => x < y
  | 3 => x ≤ y
  | 4 => y < x
  | _ => y ≤ x

/-- Destination and result of the mask instructions that write a mask (R164 Table 7). -/
def maskOf (i : Instr) (l : Slot) : Option (BitVec 3 × BitVec 32) :=
  match i with
  | .kand kd ka kb => some (kd, l.kr ka &&& l.kr kb)
  | .kor kd ka kb => some (kd, l.kr ka ||| l.kr kb)
  | .kxor kd ka kb => some (kd, l.kr ka ^^^ l.kr kb)
  | .knot kd ka => some (kd, ~~~(l.kr ka))
  | .kmovMaskToMask kd ka => some (kd, l.kr ka)
  | .kmovScalarToMask kd ra => some (kd, (l.gr ra).setWidth 32)
  | _ => none

/-- A vector load or store: data register, mask, space, lane addresses, index register if any, and whether PIDX counts (R165 to R170). -/
structure LaneOp where
  vt : BitVec 5
  km : BitVec 3
  sp : BitVec 2
  addr : Nat → Word
  index : Option VReg
  long : Bool

/-- Lane addresses of a vector access (R165). -/
def laneOpOf (i : Instr) (l : Slot) : Option (Bool × LaneOp) :=
  let base (ra : BitVec 4) (off : BitVec 6) : Word := l.gr ra + BitVec.ofInt 64 (off.toInt * 128)
  let unit (ra : BitVec 4) (off : BitVec 6) (j : Nat) : Word := base ra off + BitVec.ofNat 64 (4 * j)
  let stride (ra ix : BitVec 4) (off : BitVec 6) (j : Nat) : Word := base ra off + BitVec.ofNat 64 j * l.gr ix
  let index (ra ix : BitVec 4) (off : BitVec 6) (j : Nat) : Word :=
    let x := l.vr ix.toNat
    base ra off + (if x.tag = 1 then (x.word j).signExtend 64 else (x.word j).setWidth 64)
  match i with
  | .vld vt ra km sp off => some (true, ⟨vt, km, sp, unit ra off, none, false⟩)
  | .vlds vt ra ix km sp off => some (true, ⟨vt, km, sp, stride ra ix off, none, false⟩)
  | .vgth vt ra ix km sp off => some (true, ⟨vt, km, sp, index ra ix off, some (l.vr ix.toNat), true⟩)
  | .vst vt ra km sp off => some (false, ⟨vt, km, sp, unit ra off, none, false⟩)
  | .vsts vt ra ix km sp off => some (false, ⟨vt, km, sp, stride ra ix off, none, false⟩)
  | .vsct vt ra ix km sp off => some (false, ⟨vt, km, sp, index ra ix off, some (l.vr ix.toNat), true⟩)
  | _ => none

/-- Lane `j` is accessed: unmasked, and not done yet (R170). -/
def LaneOp.on (m : LaneOp) (l : Slot) (j : Nat) : Prop :=
  j < 32 ∧ (l.kr m.km).getLsbD j = true ∧ (m.long = true → l.pidx.toNat ≤ j)

/-- The index register carries I32 or N32, and a long instruction has lanes to do. -/
def LaneOp.ready (m : LaneOp) (l : Slot) : Prop :=
  (∀ x, m.index = some x → x.tag = 1 ∨ x.tag = 2) ∧ (m.long = true → l.pidx.toNat < 32)

/-- PIDX after the instruction has completed (R332). -/
def LaneOp.pidx (m : LaneOp) (l : Slot) : BitVec 32 := if m.long then 0 else l.pidx

/-! Rounding (R117, R119, R121). -/

/-- Fraction bits, exponent of the smallest subnormal, code of the largest finite magnitude, and place of the sign bit (R117 Table 2). -/
def floatFormat (t : Nat) : Option (Nat × Int × Nat × Nat) :=
  match t with
  | 3 => some (23, -149, 0x7F7FFFFF, 31)
  | 4 => some (10, -24, 0x7BFF, 15)
  | 5 => some (7, -133, 0x7F7F, 15)
  | 7 => some (3, -9, 0x7E, 7)
  | 9 => some (1, -1, 7, 3)
  | _ => none

/-- Magnitude of a code with `f` fraction bits, in units of the smallest subnormal (R117). -/
def codeMag (f c : Nat) : Nat := if c < 2 ^ f then c else (2 ^ f + c % 2 ^ f) * 2 ^ (c / 2 ^ f - 1)

/-! Values of elements (R116 to R118, R125, R140 to R142, R158, R162, R163). -/

/-- The value of a number that is finite and exact. -/
def Num.rat : Num → Option Rat
  | .fin neg m e false => some ((if neg then -1 else 1) * (m : Rat) * (2 : Rat) ^ e)
  | _ => none

/-- The sign bit of a number that is no NaN. -/
def Num.minus : Num → Bool
  | .nan _ => false
  | .inf n => n
  | .fin n _ _ _ => n

/-- Element `e` of a register, as the value of its code under the register's tag. -/
def VReg.value (x : VReg) (e : Nat) : Num := decodeElem x.tag.toNat (x.code e)

/-- Two finite values stand in a relation. -/
def Num.Rel (p : Rat → Rat → Prop) (x y : Num) : Prop := ∃ a b, x.rat = some a ∧ y.rat = some b ∧ p a b

/-- `r` is the exact sum of `x` and `y`, in which an exact zero has the sign `zero` (R140). -/
def IsSum (zero : Bool) (x y r : Num) : Prop :=
  match x, y with
  | .nan _, _ => r.isNan = true
  | _, .nan _ => r.isNan = true
  | .inf a, .inf b => if a = b then r = .inf a else r.isNan = true
  | .inf a, _ => r = .inf a
  | _, .inf b => r = .inf b
  | x, y => x.Rel (fun a b => r.rat = some (a + b) ∧ (a + b = 0 → r.minus = zero)) y

/-- `r` is the exact product of `x` and `y` (R140). -/
def IsProduct (x y r : Num) : Prop :=
  if x.isNan || y.isNan || (x.rat.isNone && y.rat == some 0) || (y.rat.isNone && x.rat == some 0) then r.isNan = true
  else if x.rat.isNone || y.rat.isNone then r = .inf (x.minus != y.minus)
  else x.Rel (fun a b => r.rat = some (a * b) ∧ r.minus = (x.minus != y.minus)) y

/-- A number less than another, neither of them NaN; −0 and +0 are equal (R145). -/
def Num.less : Num → Num → Prop
  | .inf a, y => a = true ∧ y ≠ .inf true
  | _, .inf b => b = false
  | x, y => x.Rel (fun a b => a < b) y

/-- The order of VMIN and VMAX, in which −0 lies below +0 (R140). -/
def Num.below (x y : Num) : Prop := x.less y ∨ (¬y.less x ∧ x.minus = true ∧ y.minus = false)

/-- `r` is the least, or the greatest, of some values, and NaN if one of them is (R140, R158). -/
def IsExtreme (greater : Bool) (xs : List Num) (r : Num) : Prop :=
  ((∃ x ∈ xs, x.isNan = true) → r.isNan = true) ∧
  ((∀ x ∈ xs, x.isNan = false) → r ∈ xs ∧ ∀ x ∈ xs, if greater then ¬r.below x else ¬x.below r)

/-- `r` is the exact sum of some values (R158). -/
def IsTotal (xs : List Num) (r : Num) : Prop :=
  let bad := (∃ x ∈ xs, x.isNan = true) ∨ (.inf true ∈ xs ∧ .inf false ∈ xs)
  (bad → r.isNan = true) ∧ (¬bad → ∀ n, .inf n ∈ xs → r = .inf n) ∧
  ((∀ x ∈ xs, x.rat.isSome = true) → r.rat = some ((xs.map (fun x => x.rat.getD 0)).foldr (fun a b => a + b) 0))

/-- `r` is a value times 2^(c − 127), under scale code `c` (R125). -/
def IsScaled (c : Nat) (x r : Num) : Prop :=
  if c = 0xFF then r.isNan = true
  else match x with
    | .nan _ => r.isNan = true
    | .inf n => r = .inf n
    | x => ∃ a, x.rat = some a ∧ r.rat = some (a * (2 : Rat) ^ ((c : Int) - 127)) ∧ r.minus = x.minus

/-- `r` is finite of the sign `neg`; its magnitude satisfies `eq`, or lies between two neighbours of which the lower one alone is below the
exact value, as `lt` says. -/
def IsRoot (neg : Bool) (lt eq : Rat → Prop) (r : Num) : Prop :=
  ∃ m e more, r = .fin neg m e more ∧ (more = false → eq ((m : Rat) * (2 : Rat) ^ e)) ∧
    (more = true → lt ((m : Rat) * (2 : Rat) ^ e) ∧ ¬lt (((m + 1 : Nat) : Rat) * (2 : Rat) ^ e) ∧ ¬eq (((m + 1 : Nat) : Rat) * (2 : Rat) ^ e))

/-- VRCP, VRSQ, VEX2 and VLG2 by number: the special cases of R163; 1/a and 1/√a; 2^a of an integer, and of another value its whole part and a
lower bound; log2 of a power of two, and of another value its whole part. -/
def IsElementary (op : Nat) (x r : Num) : Prop :=
  match x with
  | .nan _ => r.isNan = true
  | .inf neg =>
    match op with
    | 0 => r.rat = some 0 ∧ r.minus = neg
    | 1 => if neg then r.isNan = true else r.rat = some 0 ∧ r.minus = false
    | 2 => if neg then r.rat = some 0 ∧ r.minus = false else r = .inf false
    | _ => if neg then r.isNan = true else r = .inf false
  | x => ∃ a, x.rat = some a ∧
    match op with
    | 0 => if a = 0 then r = .inf x.minus else
        IsRoot x.minus (fun q => q * (if x.minus then -a else a) < 1) (fun q => q * (if x.minus then -a else a) = 1) r
    | 1 => if a = 0 then r = .inf x.minus else if a < 0 then r.isNan = true else IsRoot false (fun q => q * q * a < 1) (fun q => q * q * a = 1) r
    | 2 => (∀ n : Int, a = (n : Rat) → -4096 < n → n < 4096 → r.rat = some ((2 : Rat) ^ n)) ∧
        (∀ (n w : Int) (k : Nat), a = (n : Rat) * (2 : Rat) ^ (-(k : Int)) → w * 2 ^ k < n → n < (w + 1) * 2 ^ k → -4096 ≤ w → w < 4096 →
          ∃ m e, r = .fin false m e true ∧ (2 : Rat) ^ w ≤ (m : Rat) * (2 : Rat) ^ e ∧ (((m + 1 : Nat) : Rat) * (2 : Rat) ^ e) ≤ (2 : Rat) ^ (w + 1) ∧
            ((m : Rat) * (2 : Rat) ^ e) ^ (2 ^ k) ≤ (2 : Rat) ^ n)
    | _ => if a = 0 then r = .inf true else if a < 0 then r.isNan = true else
        (∀ n : Int, a = (2 : Rat) ^ n → r.rat = some (n : Rat)) ∧
        (∀ w : Int, (2 : Rat) ^ w < a → a < (2 : Rat) ^ (w + 1) → ∃ m e, r = .fin (decide (w < 0)) m e true ∧
          (0 ≤ w → (w : Rat) ≤ (m : Rat) * (2 : Rat) ^ e ∧ (((m + 1 : Nat) : Rat) * (2 : Rat) ^ e) ≤ (w : Rat) + 1) ∧
          (w < 0 → -(w : Rat) - 1 ≤ (m : Rat) * (2 : Rat) ^ e ∧ (((m + 1 : Nat) : Rat) * (2 : Rat) ^ e) ≤ -(w : Rat)))

/-- The exact result of element `e`, which one rounding delivers (R140 to R142, R151 to R153, R156 to R159, R162). -/
def vecValueOf (i : Instr) (l : Slot) : Option (Nat → Num → Prop) :=
  let v (x : BitVec 5) (e : Nat) : Num := (l.vr x.toNat).value e
  let size (x : BitVec 5) : Nat := 1024 / tagWidth (l.vr x.toNat).tag
  let down : Bool := l.rmode == 2
  let parts (va : BitVec 5) (km : BitVec 3) (n : Nat) : List Num :=
    ((List.range n).filter (fun e => (l.kr km).getLsbD (e * tagWidth (l.vr va.toNat).tag / 32))).map (v va)
  let total (xs : List Num) (r : Num) : Prop := IsTotal xs r ∧ (xs = [] → r.minus = false)
  let extreme (g : Bool) (xs : List Num) (r : Num) : Prop := if xs = [] then r.rat = some 0 ∧ r.minus = false else IsExtreme g xs r
  match i with
  | .vadd _ va vb _ => some (fun e r => IsSum (down || ((v va e).minus && (v vb e).minus)) (v va e) (v vb e) r)
  | .vsub _ va vb _ => some (fun e r => IsSum down (v va e) (v vb e).neg r)
  | .vmul _ va vb _ => some (fun e r => IsProduct (v va e) (v vb e) r)
  | .vfma _ va vb _ n => some (fun e r => ∃ p, IsProduct (v va e) (v vb e) p ∧
      let o := (l.vr (16 + n.toNat)).value e
      IsSum (down || (p.minus && o.minus)) p o r)
  | .vmin _ va vb _ => some (fun e r => IsExtreme false [v va e, v vb e] r)
  | .vmax _ va vb _ => some (fun e r => IsExtreme true [v va e, v vb e] r)
  | .vabs _ va _ => some (fun e r => r.isNan = (v va e).isNan ∧ r.minus = false ∧ ((v va e).isNan = false → r = v va e ∨ r = (v va e).neg))
  | .vneg _ va _ => some (fun e r => r.isNan = (v va e).isNan ∧ ((v va e).isNan = false → r = (v va e).neg))
  | .vcvt _ va _ tg => if valuedTag (l.vr va.toNat).tag && valuedTag tg then
      some (fun e r => if e < size va then r = v va e else r.rat = some 0 ∧ r.minus = false) else none
  | .vpack _ va vb _ => some (fun e r => r = if e < size va then v va e else v vb (e - size va))
  | .vunpkL _ va _ => some (fun e r => r = v va e)
  | .vunpkH _ va _ => some (fun e r => r = v va (size va / 2 + e))
  | .vdq _ va vb _ => some (fun e r => IsScaled ((l.vr vb.toNat).code (size va / 32 - 1)) (v va (size va - 32 + e)) r)
  | .vcbd _ va vb _ => some (fun e r =>
      IsScaled ((l.vr vb.toNat).code (e / 32)) ((c2Weights ((l.vr va.toNat).code (e / 8))).getD (e % 8) (.fin false 0 0 false)) r)
  | .vredAdd _ va km => some (fun _ r => total (parts va km (size va)) r)
  | .vredMin _ va km => some (fun _ r => extreme false (parts va km (size va)) r)
  | .vredMax _ va km => some (fun _ r => extreme true (parts va km (size va)) r)
  | .vscanAdd _ va km => some (fun e r => total (parts va km (e + 1)) r)
  | .vscanMin _ va km => some (fun e r => extreme false (parts va km (e + 1)) r)
  | .vscanMax _ va km => some (fun e r => extreme true (parts va km (e + 1)) r)
  | .vrcp _ va _ => some (fun e r => IsElementary 0 (v va e) r)
  | .vrsq _ va _ => some (fun e r => IsElementary 1 (v va e) r)
  | .vex2 _ va _ => some (fun e r => IsElementary 2 (v va e) r)
  | .vlg2 _ va _ => some (fun e r => IsElementary 3 (v va e) r)
  | _ => none

/-- Instructions that form an exact result from the elements of one number in their sources. -/
def elementwise (i : Instr) : Bool :=
  match i with
  | .vadd .. | .vsub .. | .vmul .. | .vfma .. | .vrcp .. | .vrsq .. | .vex2 .. | .vlg2 .. => true
  | _ => false

/-- Condition `c` of R145 on two values. -/
def compareNum (c : Nat) (x y : Num) : Prop :=
  if x.isNan || y.isNan then c = 1
  else match c with
    | 0 => ¬x.less y ∧ ¬y.less x
    | 1 => x.less y ∨ y.less x
    | 2 => x.less y
    | 3 => ¬y.less x
    | 4 => y.less x
    | _ => ¬x.less y

/-- The scale of a block of 32 values (R126); of a block with no finite element it is the model's choice. -/
def ScaleOf (t : BitVec 4) (xs : List Num) (c : Nat) : Prop :=
  ((∃ x ∈ xs, x.isNan = true) → c = 0xFF) ∧
  ((∀ x ∈ xs, x.isNan = false) →
    let em : Int := if t = 7 then 8 else if t = 8 then 6 else 2
    ((∀ x ∈ xs, x.rat.getD 0 = 0) → c = 127) ∧
    (∀ x a w, x ∈ xs → x.rat = some a → a ≠ 0 →
      let mag (q : Rat) : Rat := if q < 0 then -q else q
      (∀ y ∈ xs, mag (y.rat.getD 0) ≤ mag a) → (2 : Rat) ^ w ≤ mag a → mag a < (2 : Rat) ^ (w + 1) →
      (c : Int) = max 1 (min 254 (w - em + 127))))

/-! Steps of the device, and gangs (chapter 7). -/

/-- A step of the device completes: no component but those of `except`, and no slot but those of `keys`, changes. -/
def Acts (i : Instr) (s : State) (except : List Component) (keys : List Nat) (P : State → Prop) : Prop :=
  Completes i s (fun t => (∀ c, c ∉ except → c ≠ .otherSlots → c.Same s t) ∧ (∀ k, k ∉ keys → t.slot k = s.slot k) ∧ t.cur = s.cur ∧
    t.steps = s.steps ∧ t.cut = s.cut ∧ t.agenda = s.agenda ∧ P t)

/-- The register that holds the operand of a gang instruction, g0 where it has none (R173, R180). -/
def gangOperand (i : Instr) : Option (BitVec 4) :=
  match i with
  | .mxp _ _ _ rs _ => some rs
  | .dec _ _ rs _ _ => some rs
  | .phld _ _ _ => some 0
  | .phsw _ => some 0
  | .phrd _ rs => some rs
  | .phwr _ _ rs => some rs
  | .probe _ => some 0
  | _ => none

/-- The gang `task` on stall `ls` has arrived with instruction `i`, and can trap and go on. -/
structure Gathered (s : State) (ls : Nat) (task : Word) (keys : List Nat) (i : Instr) : Prop where
  found : s.gangAt ls task = some (keys, i)
  clean : ∀ k ∈ keys, (s.slot k).doomed = false ∧ (s.slot k).stepping = false ∧ CanTrap (s.slot k) (s.slot k).pc

/-- A member has completed its gang instruction (R174). -/
structure Finished (l y : Slot) : Prop where
  phase : y.phase = .ready
  arrived : y.arrived = none
  gmask : y.gmask = 0
  pc : ∀ i hs v, l.arrived = some (i, hs, v) → y.pc = l.pc + BitVec.ofNat 64 (4 * hs.length + 4)
  regs : y.g = l.g ∧ y.v = l.v ∧ y.k = l.k ∧ y.b = l.b

/-- OMUSTAT `y` after a measurement of residual `rho` has been written over `x`: RHO, EBC of R135, and PROBES (R359). -/
structure Measured (r : BitVec 16) (x y : Word) : Prop where
  rho : field y 0 16 = r.toNat
  probes : field y 32 16 = (field x 32 16 + 1) % 65536
  ebc : field y 16 4 ≤ 8 ∧ (2 * r.toNat * 2 ^ field y 16 4 ≤ 128 * 256 ∨ field y 16 4 = 0) ∧
    (field y 16 4 < 8 → 128 * 256 < 2 * r.toNat * 2 ^ (field y 16 4 + 1))
  rest : ∀ i, (21 ≤ i ∧ i < 32) ∨ 48 ≤ i → wbit y i = wbit x i

/-- The reason for which a ring instruction that waits for `w` slots at once takes cause 0x69 (R180, R221). -/
def ringReason (r : Ring) (w : Nat) : Option Nat :=
  if r.v = false then some 1 else if 1 < r.buf then some 2 else if r.slots < w then some 4 else none

/-- EVAL with the number of the member in slot `k` in bits [63:60] (R175). -/
def memberValue (k : Nat) (v : Word) : Word := BitVec.ofNat 4 (k / 8) ++ v.setWidth 60

/-- The slot and the operand of a member, as at its arrival. -/
def State.arrival (s : State) (k : Nat) : Slot × Word :=
  match (s.slot k).arrived with
  | some (_, hs, v) => ({ s.slot k with hints := hs }, v)
  | none => (s.slot k, 0)

/-- Two members have arrived alike: instruction, hints in any order, PIDX (R57, R175). -/
def State.arrivedAlike (s : State) (j k : Nat) : Prop :=
  ∃ i hs us v w, (s.slot j).arrived = some (i, hs, v) ∧ (s.slot k).arrived = some (i, us, w) ∧ (∀ h, h ∈ hs ↔ h ∈ us) ∧
    (s.slot j).pidx = (s.slot k).pidx

/-- The bits of an operand that must agree in all members (R180 Table 1). -/
def uniformBits (i : Instr) (v : Word) : Word :=
  match i with
  | .mxp .. => v &&& 0xF0007FFFF
  | .phrd .. => v
  | .phwr .. => v
  | _ => 0

/-- Cause 0x69 for a ring that must lie in the tile's own buffer, 0 AB or 1 WB, with slots of `units` 64-byte units, of which `w` are waited
for at once (R180, R221). -/
def ownRingCheck (l : Slot) (home : Nat) (q : BitVec 3) (buf units w : Nat) : Option (BitVec 8 × Word) :=
  let r := l.ring q
  let reason (n : Nat) : Option (BitVec 8 × Word) := some (0x69, BitVec.ofNat 64 (n * 256 + q.toNat))
  if r.v = false then reason 1
  else if r.buf ≠ buf ∨ (r.tsel ≠ 0 ∧ r.tsel ≠ 128 + home % 128) then reason 2
  else if r.slotsz < units then reason 3
  else if r.slots < w then reason 4
  else none

/-- A check finds a cause when its condition holds. -/
def finding (b : Bool) (c : BitVec 8) (v : Word) : Option (BitVec 8 × Word) := if b then some (c, v) else none

/-- The checks that the description of a gang instruction makes of the member in slot `k`, in their order (R193, R195, R197, R202, R203, R213). -/
def gangChecksOf (s : State) (ls : Nat) (i : Instr) : List (Nat → Option (BitVec 8 × Word)) :=
  let omu := (s.pstall (s.physStall ls)).omustat
  let light (_ : Nat) := finding (!wbit omu 20) 0x67 0
  let bank (_ : Nat) := finding (!(s.lstall ls).active.valid) 0x65 0
  let op (k : Nat) : Nat := (s.arrival k).2.toNat
  let ring (q : BitVec 3) (buf : Nat) (units w : Nat → Nat) (k : Nat) := ownRingCheck (s.arrival k).1 (k / 8) q buf (units k) (w k)
  let count (n : BitVec 4) (k : Nat) : Nat := (s.arrival k).1.count n
  let units (k : Nat) := finding (decide (bits (op k) 17 9 = 0 ∨ 257 < bits (op k) 8 0 + bits (op k) 17 9 ∨ bits (op k) 31 18 ≠ 0 ∨
    bits (op k) 63 33 ≠ 0)) 0x68 (s.arrival k).2
  match i with
  | .mxp qa qc n _ chain =>
    [ fun k => let v := op k
        finding (decide (bits v 11 0 = 0 ∨ bits v 18 12 = 0 ∨ 64 < bits v 18 12 ∨ bits v 30 19 % 16 ≠ 0 ∨
          4096 < bits v 30 19 + 64 * bits v 18 12 ∨ bits v 63 36 ≠ 0 ∨ bit v 31 = true ∨ (1 < bits v 11 0 ∧ chain = 0))) 0x68 (s.arrival k).2,
      ring qa 0 (fun k => if bits (op k) 33 32 ≤ 1 then 5 else 3) (fun k => Nat.max 1 (count n k)),
      fun k => if chain = 1 then ring qc 1 (fun _ => 17) (fun _ => 1) k else none,
      light,
      fun k => let ebc := bits omu.toNat 19 16
        finding (decide (ebc < (s.slot k).ebcmin.toNat)) 0x63 (BitVec.ofNat 64 ebc),
      fun k => if chain = 1 then none else bank k ]
  | .dec qa n _ toBank wf =>
    [ fun k => finding (toBank == 1 && (Nat.max 1 (count n k) != 1 || op k != 0)) 0x68 (s.arrival k).2,
      fun k =>
        let v := op k
        let tile := if bits v 63 56 = 0 then k / 8 else k / 8 / 128 * 128 + (bits v 63 56 - 128)
        if toBank = 1 then none
        else if (1 ≤ bits v 63 56 ∧ bits v 63 56 ≤ 0x7F) ∨ bits v 55 18 ≠ 0 ∨ 0x10000 < bits v 17 0 + 1088 * Nat.max 1 (count n k) ∨
          (s.lstall (tile / 16)).dead = true then some (0x21, (s.arrival k).2)
        else finding (bits v 5 0 != 0) 0x20 (s.arrival k).2,
      ring qa 1 (fun _ => match wf.toNat with | 0 => 5 | 2 => 5 | 1 => 3 | 3 => 3 | _ => 2) (fun _ => 0) ]
  | .phld qa n _ => [ ring qa 1 (fun _ => 17) (count n) ]
  | .phrd qc _ => [ units, ring qc 1 (fun _ => 17) (fun _ => 0) ]
  | .phwr qa n _ => [ units, ring qa 1 (fun _ => 17) (count n) ]
  | .probe _ => [ bank, light ]
  | _ => []

/-- The first check that finds a cause, at the first member at which it does. -/
def firstFound (keys : List Nat) (checks : List (Nat → Option (BitVec 8 × Word))) : Option (BitVec 8 × Word) :=
  checks.findSome? (fun f => keys.findSome? (fun k => (f k).map (fun x => (x.1, memberValue k x.2))))

/-- A configuration word that QCFG accepts (R214, R215). -/
def RingConfigOk (v : Nat) : Prop :=
  (bits v 63 56 = 0 ∨ 128 ≤ bits v 63 56) ∧ bits v 55 50 = 0 ∧ bits v 49 48 ≤ 1 ∧ bits v 11 0 = 0 ∧ bits v 35 24 ≠ 0 ∧ bits v 23 12 ≠ 0 ∧
  (bits v 47 36 + bits v 35 24 * bits v 23 12) * 64 ≤ (if bits v 49 48 = 0 then 0x40000 else 0x10000)

/-- An accumulator operand that raises cause 0x68 (R208). -/
def AccBad (v : Nat) (rescale : Bool) : Prop :=
  bits v 20 12 = 0 ∨ bits v 11 0 % 16 ≠ 0 ∨ 4096 < bits v 11 0 + 16 * bits v 20 12 ∨ bits v 63 42 ≠ 0 ∨ bits v 31 21 ≠ 0 ∨
  (rescale = false ∧ bits v 41 32 ≠ 0) ∨ (rescale = true ∧ bits v 41 32 = 0x200)

/-- Row `r` is among those of an accumulator operand (R208). -/
def accHas (v r : Nat) : Prop := bits v 11 0 ≤ r ∧ r < bits v 11 0 + 16 * bits v 20 12

/-- Ring, operand register, CLR and tag of ACCRD and ACCEXP, with the bytes that `n` rows give (R211). -/
def accReadOf (i : Instr) : Option (BitVec 3 × BitVec 4 × BitVec 1 × (Nat → Nat)) :=
  match i with
  | .accrd qc rs clr tg => some (qc, rs, clr, fun n => 4 * n * elemBits tg.toNat / 8)
  | .accexp qc rs clr tg => some (qc, rs, clr, fun n => 4 * n * elemBits tg.toNat / 8 + n / 8)
  | _ => none

/-! Tasks and copies (chapter 8). -/

/-- Operands of SEND.REQ and SEND.RPY: network, registers, count, and the barrier attached (R226). -/
def sendOf (i : Instr) : Option (BitVec 1 × BitVec 4 × BitVec 4 × BitVec 4 × BitVec 4 × Option (BitVec 3)) :=
  match i with
  | .sendReq rd ra rb k att bn => some (0, rd, ra, rb, k, if att = 1 then some bn else none)
  | .sendRpy rd ra rb k att bn => some (1, rd, ra, rb, k, if att = 1 then some bn else none)
  | _ => none

/-- COUNT of a barrier (R25). -/
def Slot.barriers (l : Slot) (i : BitVec 3) : BitVec 16 := (l.br i.toNat).setWidth 16

/-- The fork that a record of 64 bytes asks for with `n` iterations, with no barrier attached (R233). -/
def forkAsked (l : Slot) (x : Nat) (n : Word) : Fork :=
  { entry := BitVec.ofNat 64 (bits x 63 0), arg := BitVec.ofNat 64 (bits x 127 64), cont := BitVec.ofNat 64 (bits x 191 128),
    carg := BitVec.ofNat 64 (bits x 255 192), trips := n.toNat, grain := bits x 287 256, maxw := bits x 303 288, lab := bits x 311 304,
    lwb := bits x 319 312, gang := bit x 320, part := l.part, asid := l.asid, pcls := l.pcls, queue := l.queue, demand := l.demand,
    creator := l.taskid, node := none, barrier := none, sched := none }

/-- A slot as a new task finds it, apart from what its record brings (R12). -/
structure Fresh (s : State) (y : Slot) (p : Nat) (pcls : BitVec 3) (asid : BitVec 16) (entry : Word) : Prop where
  phase : y.phase = .ready
  pc : y.pc = entry
  asid : y.asid = asid
  pcls : y.pcls = pcls
  part : y.part = p
  status : ∀ i, i < 7 ∨ (10 ≤ i ∧ i < 24) ∨ (27 ≤ i ∧ i < 32) ∨ 36 ≤ i → wbit y.status i = false
  flags : y.flags = 0
  vectors : ∀ i, y.vr i = {}
  masks : ∀ k : BitVec 3, k ≠ 0 → y.kr k = 0
  rings : ∀ i, (y.ring i).v = false
  barriers : ∀ i, y.br i = 0
  rngs : y.rngs = (if y.taskid.setWidth 32 = 0x9E3779B9#32 then 1 else y.taskid.setWidth 32 ^^^ 0x9E3779B9#32)
  initial : y.quota = (s.part p).cfg.quota0 ∧ y.wdog = (s.part p).cfg.wdog0 ∧ y.gto = (s.part p).cfg.gto0 ∧ y.tvec = (s.part p).cfg.tvec0 ∧
    y.ebcmin = (s.part p).cfg.ebcmin0 ∧ y.cwm = 0

/-- g1 to g15 hold a list, and 0 beyond it. -/
def Slot.holds (l : Slot) (args : List Word) : Prop := ∀ i, 1 ≤ i → i < 16 → l.gr (BitVec.ofNat 4 i) = args.getD (i - 1) 0

/-! Steps of the device (chapters 4 and 8 to 12). -/

/-- A slot whose wait has ended: it executes its instruction again. IDLE has retired already, so that its PRIO grants here; the others grant
when they retire (R56, R113). -/
def Slot.woken (l : Slot) : Slot :=
  if l.phase = .waiting .idle then { l with phase := .ready, prio := l.prioRun, prioRun := false } else { l with phase := .ready }

/-- A record that starts at `e` with arguments `args`, and asks for no lease and no command. -/
structure Record.Plain (r : Record) (e : Word) (args : List Word) : Prop where
  kind : r.kind = .task e args
  args : args.length ≤ 8
  leases : r.lab = 0 ∧ r.lwb = 0
  sched : r.sched = none

/-- What the switches hold for others than `w` is held as before (R323). -/
def OthersHeld (w : HeldBy) (s t : State) : Prop := ∀ h ∈ s.held, h.who ≠ w → h ∈ t.held

/-- No record and no host write waits for a page exchange or a checkpoint to end (R287, R417). -/
def State.nothingWaits (s : State) : Prop := (∀ e ∈ s.queues, e.2.comps = []) ∧ (∀ p ∈ s.parts, p.peqWait = []) ∧ s.dev.hostWaits = []

/-- DRTH as `th` governs the comparisons of a quadrant now: the latest write that has come into force, the value at reset before any (R38, R398). -/
def Quad.governs (u : Quad) (now : Nat) (th : BitVec 8) : Prop :=
  (∃ newer w older, u.drths = newer ++ w :: older ∧ (∀ x ∈ newer, now < x.1) ∧ w.1 ≤ now ∧ th = w.2) ∨
  ((∀ x ∈ u.drths, now < x.1) ∧ th = 0x19)

/-- The node of a graph at an address is in the state `st`, and there is one. -/
def State.nodeIs (t : State) (n : Node) (st : NodeState) : Prop :=
  (∃ w ∈ t.nodes, w.gid = n.gid ∧ w.va = n.va) ∧ ∀ w ∈ t.nodes, w.gid = n.gid → w.va = n.va → w.state = st

/-- Units charged in a quadrant: of its resident tasks, and of those switched out from it (R402). -/
def State.unitsIn (s : State) (q : Nat) : Nat :=
  ((s.slots.filter (fun e => e.2.occupied && e.1 / 8 / 512 == q)).map (fun e => e.2.units)).sum +
  (((s.parts.flatMap (fun p => p.saved)).filter (fun x => x.home.toNat / 512 == q)).map (fun x => x.ctx.units)).sum

/-- The sum of the latest 10 samples after `w` (R400). -/
def sampleSum (w : Nat) (ws : List Nat) : Nat := ((w :: ws).take 10).sum

/-- Bytes and places of HBM4 and near memory in a checkpoint's image (R417). -/
def imageHolds (s t : State) : Prop :=
  (∀ a, a < 512000000000 → t.byte (s.dev.ckBase + a) = s.byte (0x0080_0000_0000 + a)) ∧
  ∀ a, a < 0x0002_0000_0000 → t.byte (s.dev.ckBase + 512000000000 + a) = s.byte a

/-- A halted task with one slot. -/
structure HaltedAlone (s : State) (task : Word) (k : Nat) : Prop where
  slots : s.haltedSlots task = [k]
  task : (s.slot k).taskid = task
  single : (s.slot k).gang = false
  halted : (s.slot k).phase = .halted

/-! Control flits (R383). -/

/-- The routes of the two copies: two lanes of a bundle, up bundles to a device, up bundles of a flood; never one twice. -/
def OnHop (b : Nat) (r : CtlRoute) : Prop := ∃ l, r = .hop b l ∧ l.Nodup ∧ l.length ≤ 2
def ToEnd (dst : BitVec 18) (r : CtlRoute) : Prop := ∃ l, r = .ends dst l ∧ l.Nodup ∧ l.length ≤ 2
def Floods (r : CtlRoute) : Prop := ∃ l, r = .flood l ∧ l.Nodup ∧ l.length ≤ 2

/-- Of the device's block only the record of control flits heard may have changed. -/
def Heard (s t : State) : Prop := t.dev = { s.dev with heard := t.dev.heard }

/-- The device has sent one control flit, with the next identifier; of the rest of its block only the record of those heard may have changed. -/
def Sends (s t : State) (op : Nat) (route : CtlRoute → Prop) (args : List Nat) : Prop :=
  ∃ r, route r ∧
    t.dev = { s.dev with ctl := { op := op, route := r, cid := s.dev.cid, args := args } :: s.dev.ctl, cid := s.dev.cid + 1, heard := t.dev.heard }

end Sys2Proof.Machine
end

