-- ==== Sys2Proof/Certificates/Slice0/Obligations.lean ====
section
/-! DEFINITION. The statements for the provers, from the numbered rules of spec/ file by file. -/

open Sys2Proof Sys2Proof.Machine

/-! What reset leaves, and the form of memory. -/

/-- The machine right after reset: every slot free, every queue empty (mailboxes, run queues, send queues, copy channels, bank operations, work
queues, and the networks), both phase banks of every stall invalid, the identity tile map, and the reset values of MQCAP, ROTIVL and DRTH
(01_machine_state.md Table 9, R192, R320, R321, R398). It is safe: memory is in canonical form, and there are 16 partitions. -/
def Obligations.ResetState : Prop :=
  State.reset.Safe ∧
  (∀ k, (State.reset.slot k).phase = .free) ∧
  (∀ h, (State.reset.tile h).mailbox = [] ∧ (State.reset.tile h).runq = [] ∧ (State.reset.tile h).mqcap = 1024 ∧
    (State.reset.tile h).sendReq = [] ∧ (State.reset.tile h).sendRpy = [] ∧ ∀ c, ((State.reset.tile h).chan c).cmds = []) ∧
  (∀ u, fget [] State.reset.bankops u = []) ∧ State.reset.net = [] ∧ State.reset.refusals = [] ∧ State.reset.nodes = [] ∧
  (∀ q, (State.reset.queue q).head = (State.reset.queue q).tail ∧ (State.reset.queue q).comps = []) ∧
  (∀ p ∈ State.reset.parts, p.waiting = []) ∧
  (∀ k, (State.reset.lstall k).active.valid = false ∧ (State.reset.lstall k).shadow.valid = false) ∧
  (∀ a, (State.reset.arcade a).map = [0, 1, 2, 3, 4, 5, 6, 7] ∧ (State.reset.arcade a).rotivl = 400) ∧
  (∀ q, (State.reset.quad q).drth = 0x19) ∧
  (∀ ls, ls < 128 → State.reset.physStall ls = ls)

/-- Every step keeps memory in canonical form and the 16 partitions. -/
def Obligations.StepKeepsSafe : Prop := ∀ s t, s.Safe → Machine.step s = .next t → t.Safe

/-- A write of `n` bytes is read back as written, little-endian, and leaves every other byte alone (R5). Two safe states whose memories
read alike at every address hold the same memory. -/
def Obligations.MemoryReadAfterWrite : Prop :=
  (∀ s t : State, s.Safe → t.Safe → (∀ a, s.byte a = t.byte a) → s.mem = t.mem) ∧
  ∀ (s : State) (pa n v : Nat), v < 256 ^ n →
    (s.rawWrite pa n v).rd pa n = v ∧
    (∀ i, i < n → (s.rawWrite pa n v).byte (pa + i) = BitVec.ofNat 8 (v / 256 ^ i)) ∧
    (∀ a, a < pa ∨ pa + n ≤ a → (s.rawWrite pa n v).byte a = s.byte a)

/-! Encoding. -/

/-- Words written out from the encoding tables, one or two for each family, decode to the instruction that each stands for. -/
def Obligations.WordsDecode : Prop :=
  decode 0x048C4700#32 = .ok (.sext 2 3 1) ∧
  decode 0x0448CA00#32 = .ok (.csel 1 2 3) ∧
  decode 0x0848C100#32 = .ok (.div 1 2 3) ∧
  decode 0x288C0005#32 = .ok (.shli 2 3 5) ∧
  decode 0x288B8000#32 = .ok (.lih 2 2 0x8000) ∧
  decode 0x12000838#32 = .ok (.addi 8 0 0x838) ∧
  decode 0x05518CC0#32 = .ok (.lea 5 4 6 3) ∧
  decode 0x304C3FFD#32 = .ok (.bNe 3 0 0x3FFD) ∧
  decode 0x444B4002#32 = .ok (.ld 1 2 3 1 0 2) ∧
  decode 0x559D4240#32 = .ok (.waita 6 7 5) ∧
  decode 0x60400923#32 = .ok (.vfma 2 0 1 1 3) ∧
  decode 0x6841_1817#32 = .ok (.vqnt 2 1 3 7) ∧
  decode 0x748C0041#32 = .ok (.vld 4 6 0 1 1) ∧
  decode 0x80A45001#32 = .ok (.mxp 1 2 4 5 1) ∧
  decode 0x8481_0200#32 = .ok (.qadvC 1 1) ∧
  decode 0xA03AB009#32 = .ok (.cpy 0 7 5 6 1 1) ∧
  decode 0xB409181A#32 = .ok (.fork 1 2 3 1 2) ∧
  decode 0xC1400840#32 = .ok (.srr 5 0x021) ∧
  decode 0xFC000052#32 = .ok (.limmA 0x52) ∧
  decode 0x00000000#32 = .error 0x01#8 ∧
  decode 0x0448FFC1#32 = .error 0x02#8 ∧
  decode 0x0448C001#32 = .error 0x03#8 ∧
  decode 0x60190000#32 = .error 0x04#8

/-- Decoding the word of a well-formed instruction gives it back, with every operand at every value its encoding admits. -/
def Obligations.DecodeOfEncode : Prop := ∀ i w, i.wf = true → encode i = some w → decode w = .ok i

/-- Every instruction that the decoder answers is well formed and has that word: no bit of a word is dropped, and no word that the
encoding tables leave out decodes. An unassigned major opcode raises cause 0x01 (R45). A step of the device has no word, and every other
instruction has one. -/
def Obligations.EncodeOfDecode : Prop :=
  (∀ w i, decode w = .ok i → i.wf = true ∧ encode i = some w) ∧
  (∀ w : BitVec 32, fld w 26 6 ∉
      [0x01#6, 0x02, 0x04, 0x05, 0x06, 0x07, 0x08, 0x09, 0x0A, 0x0C, 0x0D, 0x0E, 0x0F, 0x10, 0x11, 0x12, 0x13, 0x14, 0x15, 0x16,
       0x18, 0x19, 0x1A, 0x1B, 0x1C, 0x1D, 0x1E, 0x1F, 0x20, 0x21, 0x28, 0x2C, 0x2D, 0x30, 0x31, 0x3F] →
    decode w = .error 0x01) ∧
  (∀ i : Instr, i.isEvent = true ↔ encode i = none)

/-! The step. -/

/-- A step runs the instruction that the word at the pc decodes to: fetched, with its hint run legal, it is executed in the state that
the fetch leaves, and the step's time passes.
Of the model's choice in it: log entries 1, 2 (notes/assumptions). -/
def Obligations.StepRunsInstruction : Prop :=
  ∀ (s : State) u w i, s.issues → s.fetch s.cur = .ok (u, w) → decode w = .ok i → hintMisuse i u.me.hints = false →
    Machine.step s = ticked (exec i u)

/-- A fetch fault, a word that is no instruction, and a misused hint run each make the step that traps (R45, R57, R81). A step of the device
that waits on the agenda acts first; while the controller holds the module in reset only a cold reset does (R414), and with both host links
down no access of the host does (R404, R416). A slot chosen at a complete barrier performs it (R317). The fetch reads the 32-bit
little-endian word at the physical address that the pc translates to, or that a line of its caches names, when the page may be executed at
the slot's privilege and holds no poison (R41, R277, R278); the line then lies in the tile's L1, and no register and no byte of memory changes.
Of the model's choice in it: log entries 1, 59 (notes/assumptions). -/
def Obligations.StepOtherwise : Prop :=
  ((∀ (s : State) e rest, s.agenda = e :: rest → s.admits e = true → Machine.step s = ticked (exec e { s with agenda := rest })) ∧
  (∀ (s : State) e rest, s.agenda = e :: rest → s.admits e = false → Machine.step s = .next ({ s with agenda := rest } : State).tick) ∧
  (∀ (s : State) e, (s.dev.held = true → isColdReset e = false → s.admits e = false) ∧
    (s.dev.portDown = 3 → isBarAccess e = true → s.admits e = false) ∧
    (s.dev.held = false → s.dev.portDown ≠ 3 → (∀ x y, e ≠ .gangBarrierComplete x y) → s.admits e = true)) ∧
  (∀ s : State, s.agenda = [] → s.dev.held = false → s.gangDue s.cur = true →
    Machine.step s = ticked (exec (.gangBarrierComplete (BitVec.ofNat 7 (stallOf (homeOf s.cur))) s.me.taskid) s)) ∧
  (∀ (s : State) c, s.issues → s.fetch s.cur = .error c → Machine.step s = ticked (exec (.fetchFault c) s)) ∧
  (∀ (s : State) u w c, s.issues → s.fetch s.cur = .ok (u, w) → decode w = .error c → Machine.step s = ticked (exec (.illegalWord w c) u)) ∧
  (∀ (s : State) u w i, s.issues → s.fetch s.cur = .ok (u, w) → decode w = .ok i → hintMisuse i u.me.hints = true →
    Machine.step s = ticked (exec (.illegalWord w 0x05) u))) ∧
  (∀ (s : State) key u x, let l := s.slot key
    let hit := s.lineBits (s.physTile (homeOf key)) { l with seg := {} } false (l.pc.toNat / 32)
    (hit = none ∧ s.translate l.part l.asid.toNat l.pc.toNat true = .ok (u, x)) ∨
      (u = s ∧ ∃ b, hit = some b ∧ s.lineXlat l.part l.asid.toNat l.pc.toNat b = some x) →
    x.ex = true → (x.priv = false ∨ 1 ≤ (s.slot key).pl) → s.poisoned x.pa 4 = false → s.deepGone x.pa = false →
    ∃ v, s.fetch key = .ok (v, u.byte (x.pa + 3) ++ u.byte (x.pa + 2) ++ u.byte (x.pa + 1) ++ u.byte x.pa) ∧
      (v.l1Bits (s.physTile (homeOf key)) l.part l.asid.toNat (l.pc.toNat / 32)).isSome = true ∧
      (∀ a, v.byte a = u.byte a) ∧ ∀ k, v.slot k = s.slot k)

/-! Scalar instructions (chapter 3). -/

/-- The register forms of R69, R71 to R76, R78 and R79 write their result, and the division forms OR DZ into FLAGS; nothing else changes.
The immediate forms of R77, with the immediate sign-extended or, under LIMM.A or LIMM.B, formed as R58 states. -/
def Obligations.ScalarResults : Prop :=
  (∀ i (s : State) rd v, scalarResult i s.me = some (rd, v) → s.goesOn →
    Retires i s [] { g := [rd], flags := true } (fun t => Wrote rd v t ∧ t.me.flags = s.me.flags ||| scalarFlags i s.me)) ∧
  (∀ i (s : State) rd imm v r,
    v = (if s.me.hint 0 = none ∧ s.me.hint 1 = none then imm.signExtend 64 else limmValue imm (s.me.hint 0) (s.me.hint 1)) →
    immediateResult i s.me v = some (rd, imm, r) → s.goesOn → Retires i s [] { g := [rd] } (Wrote rd r))

/-- CLZ, CTZ and POPC, format A with major 0x01 and fn 0x18 to 0x1A, count zeros above the highest one bit, zeros below the lowest, and
one bits; CLZ and CTZ give 64 for 0. A nonzero rb field raises cause 0x03 (R70). -/
def Obligations.CountingResults : Prop :=
  (∀ (rd ra rb : BitVec 4),
    decode (0x01#6 ++ rd ++ ra ++ rb ++ 0x18#8 ++ 0#6) = (if rb = 0 then .ok (.clz rd ra) else .error 0x03) ∧
    decode (0x01#6 ++ rd ++ ra ++ rb ++ 0x19#8 ++ 0#6) = (if rb = 0 then .ok (.ctz rd ra) else .error 0x03) ∧
    decode (0x01#6 ++ rd ++ ra ++ rb ++ 0x1A#8 ++ 0#6) = (if rb = 0 then .ok (.popc rd ra) else .error 0x03)) ∧
  (∀ rd ra (s : State), s.goesOn → ∃ n ≤ 64, (s.me.gr ra = 0 → n = 64) ∧
    (s.me.gr ra ≠ 0 → n < 64 ∧ (s.me.gr ra).getLsbD (63 - n) = true ∧ ∀ j, 63 - n < j → (s.me.gr ra).getLsbD j = false) ∧
    Retires (.clz rd ra) s [] { g := [rd] } (Wrote rd (BitVec.ofNat 64 n))) ∧
  (∀ rd ra (s : State), s.goesOn → ∃ n ≤ 64, (s.me.gr ra = 0 → n = 64) ∧
    (s.me.gr ra ≠ 0 → n < 64 ∧ (s.me.gr ra).getLsbD n = true ∧ ∀ j, j < n → (s.me.gr ra).getLsbD j = false) ∧
    Retires (.ctz rd ra) s [] { g := [rd] } (Wrote rd (BitVec.ofNat 64 n))) ∧
  (∀ rd ra (s : State), s.goesOn →
    Retires (.popc rd ra) s [] { g := [rd] }
      (Wrote rd (BitVec.ofNat 64 ((List.range 64).filter (fun j => (s.me.gr ra).getLsbD j)).length)))

/-- A conditional branch goes to pc + 4 × offset when its condition holds and to pc + 4 when it does not; it changes no register. An
illegal destination, of either kind, raises cause 0x09 (R80, R82).
Of the model's choice in it: log entries 10 (notes/assumptions). -/
def Obligations.Branches : Prop :=
  ∀ i (s : State) c off, branchOf i s.me = some (c, off) →
    (c → LegalTarget (s.me.pc.toNat + 4 * off.toInt) →
      GoesTo i s (BitVec.ofInt 64 (s.me.pc.toNat + 4 * off.toInt)) {} (fun _ => True)) ∧
    (c → ¬LegalTarget (s.me.pc.toNat + 4 * off.toInt) →
      exec i s = .next (s.trapMe 0x09 (BitVec.ofInt 64 (s.me.pc.toNat + 4 * off.toInt)))) ∧
    (¬c → s.goesOn → GoesTo i s (s.me.pc + 4) {} (fun _ => True)) ∧
    (¬c → ¬s.goesOn → exec i s = .next (s.trapMe 0x09 (s.me.pc + 4)))

/-- J, JAL, JALR and JR go to their target, JAL and JALR with the link pc + 4; an illegal target raises cause 0x09 with nothing written
(R80, R83, R84). The target is formed from the register's value before the link is written, JR is JALR with rd = 0, and JALR takes no
LIMM hint. -/
def Obligations.Jumps : Prop :=
  (∀ off, decode (0x0D#6 ++ off) = .ok (.j off) ∧ decode (0x0E#6 ++ off) = .ok (.jal off)) ∧
  (∀ (rd ra : BitVec 4) (imm : BitVec 18), decode (0x0F#6 ++ rd ++ ra ++ imm) = .ok (if rd = 0 then .jr ra imm else .jalr rd ra imm)) ∧
  (∀ rd ra imm p, hintMisuse (.jalr rd ra imm) [(0, p)] = true ∧ hintMisuse (.jalr rd ra imm) [(1, p)] = true ∧
    hintMisuse (.jr ra imm) [(0, p)] = true ∧ hintMisuse (.jr ra imm) [(1, p)] = true) ∧
  (∀ i (s : State) t rd, jumpOf i s.me = some (t, rd) →
    (LegalTarget t → GoesTo i s (BitVec.ofInt 64 t) { g := [rd] } (Wrote rd (s.me.pc + 4))) ∧
    (¬LegalTarget t → exec i s = .next (s.trapMe 0x09 (BitVec.ofInt 64 t))))

/-- LOOP, format B with major 0x10 and its cond and rb fields 0, counts its register down and branches while it is not 0 (R85). -/
def Obligations.Loop : Prop :=
  (∀ (cond ra rb : BitVec 4) (off : BitVec 14),
    decode (0x10#6 ++ cond ++ ra ++ rb ++ off) = (if cond = 0 ∧ rb = 0 then .ok (.loop ra off) else .error 0x03)) ∧
  ∀ (s : State) ra off,
    (s.me.gr ra = 0 → s.goesOn → GoesTo (.loop ra off) s (s.me.pc + 4) {} (fun _ => True)) ∧
    (s.me.gr ra = 1 → s.goesOn → GoesTo (.loop ra off) s (s.me.pc + 4) { g := [ra] } (Wrote ra 0)) ∧
    (s.me.gr ra ≠ 0 → s.me.gr ra ≠ 1 → LegalTarget (s.me.pc.toNat + 4 * off.toInt) →
      GoesTo (.loop ra off) s (BitVec.ofInt 64 (s.me.pc.toNat + 4 * off.toInt)) { g := [ra] } (Wrote ra (s.me.gr ra - 1))) ∧
    (s.me.gr ra ≠ 0 → s.me.gr ra ≠ 1 → ¬LegalTarget (s.me.pc.toNat + 4 * off.toInt) →
      exec (.loop ra off) s = .next (s.trapMe 0x09 (BitVec.ofInt 64 (s.me.pc.toNat + 4 * off.toInt)))) ∧
    (s.me.gr ra = 0 ∨ s.me.gr ra = 1 → ¬s.goesOn → exec (.loop ra off) s = .next (s.trapMe 0x09 (s.me.pc + 4)))

/-- A HINT joins the run and writes no register but the pc; a kind that the run already holds raises cause 0x05 with EVAL the word (R46,
R56, R57). An instruction that always continues in sequence raises cause 0x09 where its successor's address is no legal one, before any other
effect or trap of it (R80).
Of the model's choice in it: log entries 10 (notes/assumptions). -/
def Obligations.Sequencing : Prop :=
  (∀ i (s : State) kind p, hintOf i = some (kind, p) →
    (s.me.hasHint kind.toNat = false → s.goesOn →
      Completes i s (fun t => Unchanged [] s t ∧ Keeps {} s.me t.me ∧ t.me.pc = s.me.pc + 4 ∧ t.me.hints = s.me.hints ++ [(kind, p)] ∧
        t.me.runStart = s.me.unitStart)) ∧
    (s.me.hasHint kind.toNat = false → ¬s.goesOn → exec i s = .next (s.trapMe 0x09 (s.me.pc + 4))) ∧
    (s.me.hasHint kind.toNat = true → exec i s = .next (s.trapWord 0x05 (0#32 ++ 0x3F#6 ++ kind ++ p)))) ∧
  (∀ i (s : State), alwaysSequential i = true → ¬s.goesOn → exec i s = .next (s.trapMe 0x09 (s.me.pc + 4)))

/-! Traps, the return from one, and system registers (chapters 1, 8 and 12). -/

/-- Taking a trap: TakeTrap of R326, with the task ended where the handler cannot start. -/
def Obligations.TrapEntry : Prop :=
  ∀ (s : State) key c e v,
    (CanTrap (s.slot key) e → ∃ y, s.enterTrap key c e v = s.setSlot key y ∧ TrapTaken (s.slot key) y c e v) ∧
    (¬CanTrap (s.slot key) e → s.enterTrap key c e v =
      (s.setSlot key { (s.slot key).calm with pc := (s.slot key).unitStart }).endTask key c v)

/-- A doomed segment is undone in place of any other trap: registers, FLAGS bits 6 to 0 and RNGS go back to their values at its start, the
version is discarded, and 0x40 or 0x41 is taken with EPC its first instruction; ESTATUS keeps TBW (R262, R263, R264). A precise trap, at a
slot that no doom and no gang concerns, changes nothing but what trap entry changes. Words that hold no instruction and fetch faults trap
so, with EVAL the word and the pc; a fetch from a lost page ends the task (R46, R59, R81, R277, R296, R326).
Of the model's choice in it: log entries 11, 48 (notes/assumptions). -/
def Obligations.PreciseTraps : Prop :=
  (∀ (s : State) key c e v, let l := s.slot key
    l.doomed = true → CanTrap l l.seg.start → ∃ y, s.raise key c e v = s.setSlot key y ∧
      y.g = l.seg.image.g ∧ y.v = l.seg.image.v ∧ y.k = l.seg.image.k ∧ y.rngs = l.seg.image.rngs ∧ y.pidx = 0 ∧
      (∀ i, wbit y.flags i = if i < 7 then wbit l.seg.image.flags i else wbit l.flags i) ∧
      y.q = l.q ∧ y.b = l.b ∧ y.seg.version = [] ∧ y.seg.reads = [] ∧ y.seg.writes = [] ∧ y.doomed = false ∧
      y.estatus = l.status ∧ y.tbw = false ∧ y.epc = l.seg.start ∧ y.pc = l.tvec ∧
      (∀ g, l.seg.doom = some g → y.ecause = 0x40 ∧ y.eval = g) ∧ (l.seg.doom = none → y.ecause = 0x41 ∧ y.eval = 0)) ∧
  ((∀ (s : State) c v, s.alone → CanTrap s.me s.me.unitStart → c ≠ 0x2D → Trapped s (s.trapMe c v) c v ∧ Trapped s (s.trapWord c v) c v) ∧
  (∀ (s : State) w c, s.alone → CanTrap s.me s.me.unitStart → Completes (.illegalWord w c) s (fun t => Trapped s t c (w.setWidth 64))) ∧
  (∀ (s : State) c, c ≠ 0x2D → s.alone → CanTrap s.me s.me.unitStart → Completes (.fetchFault c) s (fun t => Trapped s t c s.me.pc)) ∧
  (∀ s : State, s.me.gang = false → exec (.fetchFault 0x2D) s = .next (s.endTask s.cur 0x2D s.me.pc)))

/-- What comes before the effect of every instruction that commits: the commit, the undo of a doomed segment, or the wait of a sealed one
(R88, R114, R261). A commit makes every byte of a version within one granule visible at once, in memory and nowhere else but in the leaf entry whose D
bit it sets; a new segment begins, with nothing in it and STATUS.TBW clear (R256, R258, R260, R276).
Of the model's choice in it: log entries 11, 12, 13 (notes/assumptions). -/
def Obligations.Commits : Prop :=
  (∀ s : State,
    (s.clean → s.commitBefore = .ok (s.commitSlot s.cur)) ∧
    (s.me.committed = false → s.me.doomed = true → s.commitBefore = .error (s.trapMe s.me.doomCause s.me.doomEval)) ∧
    (s.me.committed = false → s.me.doomed = false → s.me.seg.sealedCommit = true ∨ s.commitBlocked s.me (homeOf s.cur) = true →
      ∃ t, s.commitBefore = .error t ∧ t.me.phase = .waiting .completion ∧ t.me.seg.sealedCommit = true ∧
        t.me.pc = s.me.unitStart ∧ t.me.seg.version = s.me.seg.version ∧ Unchanged [] s t)) ∧
  (∀ (s : State) g x, (∀ a b, fget none s.me.seg.version a = some b → a / 32 = g) → s.me.seg.version ≠ [] →
    fwf none s.me.seg.version = true → s.walk s.me.part s.me.asid.toNat (g * 32) = .ok x → x.ty ≠ 1 → s.deepGone x.pa = false →
    s.inTable (x.pa / 32) = false → s.vaInTable s.me g = false → (∀ a, s.inRxdir a = false) → (x.at' + 8 ≤ x.pa ∨ x.pa + 32 ≤ x.at') →
    (∀ i, i < 32 → (s.commitSlot s.cur).byte (x.pa + i) = (fget none s.me.seg.version (g * 32 + i)).getD (s.byte (x.pa + i))) ∧
    (∀ a, a < x.pa ∨ x.pa + 32 ≤ a → a < x.at' ∨ x.at' + 8 ≤ a → (s.commitSlot s.cur).byte a = s.byte a) ∧
    (let y := (s.commitSlot s.cur).me
     y.seg.version = [] ∧ y.seg.reads = [] ∧ y.seg.writes = [] ∧ y.seg.start = s.me.unitStart ∧ y.tbw = false ∧ y.doomed = false ∧
     y.g = s.me.g ∧ y.v = s.me.v ∧ y.k = s.me.k ∧ y.seg.image = s.me.image))

/-- TRAP n commits and takes cause 0xE0 + n (R251); BKPT halts the task or takes cause 0x0A (R253, R344); ERET returns, at PL 0 it takes
cause 0x01, and an EPC that is no legal target takes cause 0x09 (R252). TIME reads the device's time (R254). IDLE leaves the slot waiting
at pc + 4, and a detach on one of its barriers lets it go on (R255).
Of the model's choice in it: log entries 10, 11 (notes/assumptions). -/
def Obligations.SystemInstructions : Prop :=
  (∀ (s : State) rd, s.goesOn → Retires (.time rd) s [] { g := [rd] } (Wrote rd s.time)) ∧
  (∀ s : State, s.goesOn → s.me.stepping = false →
    Retires .idle s [] {} (fun t => t.me.phase = .waiting .idle ∧ t.me.idleAt = s.now)) ∧
  (∀ (l : Slot) i c, l.phase = .waiting .idle → (l.detach i c).phase = .ready ∧ (l.detach i c).pc = l.pc) ∧
  (∀ (s : State) n, s.clean → exec (.trap n) s = .next ((s.commitSlot s.cur).trapMe (BitVec.ofNat 8 (0xE0 + n.toNat)) 0)) ∧
  (∀ s : State, wbit (s.part s.me.part).dbgctl 0 = false → exec .bkpt s = .next (s.trapMe 0x0A 0)) ∧
  (∀ s : State, wbit (s.part s.me.part).dbgctl 0 = true → s.me.gang = false → s.me.phase = .ready → s.me.hasWork = false →
    s.midSwap (stallOf (homeOf s.cur)) = false →
    Completes .bkpt s (fun t => Unchanged [] s t ∧ Keeps {} s.me t.me ∧ t.me.phase = .halted ∧ t.me.pc = s.me.unitStart)) ∧
  (∀ s : State, s.me.pl ≠ 0 → LegalTarget s.me.epc.toNat →
    GoesTo .eret s s.me.epc { status := [0, 1, 2, 3, 4, 16, 17] } (fun t =>
      ∀ i, i ∈ [0, 1, 2, 3, 4, 16, 17] → wbit t.me.status i = wbit s.me.estatus i)) ∧
  (∀ s : State, s.me.pl ≠ 0 → ¬LegalTarget s.me.epc.toNat → exec .eret s = .next (s.trapMe 0x09 s.me.epc)) ∧
  (∀ s : State, s.me.pl = 0 → exec .eret s = .next (s.trapMe 0x01 0xC4000001))

/-- SRR reads the register. SRR and SRW outside Table 9, below its levels, or to a read-only register raise cause 0x01 with EVAL the word
(R37, R38, R250). SRW writes the register, cut to its width and its range, and no other one; no general register changes (R31, R38, R39, R250).
Of the model's choice in it: log entries 34 (notes/assumptions). -/
def Obligations.SystemRegisters : Prop :=
  ((∀ (s : State) rd (sr : BitVec 12) r w, (sr.toNat, r, w) ∈ sysTable → r ≤ s.me.pl → s.goesOn →
    ∃ v, s.sysReg sr.toNat = some v ∧ Retires (.srr rd sr) s [] { g := [rd] } (Wrote rd v)) ∧
  (∀ (s : State) rd (sr : BitVec 12), (¬∃ r w, (sr.toNat, r, w) ∈ sysTable ∧ r ≤ s.me.pl) →
    exec (.srr rd sr) s = .next (s.trapMe 0x01 (0#32 ++ 0x30#6 ++ rd ++ 0#4 ++ sr ++ 0x00#6))) ∧
  (∀ (s : State) ra (sr : BitVec 12), (¬∃ r w, (sr.toNat, r, some w) ∈ sysTable ∧ w ≤ s.me.pl) →
    exec (.srw ra sr) s = .next (s.trapMe 0x01 (0#32 ++ 0x30#6 ++ 0#4 ++ ra ++ sr ++ 0x01#6)))) ∧
  (∀ (s : State) ra (sr : BitVec 12) r w, s.Safe → (sr.toNat, r, some w) ∈ sysTable → w ≤ s.me.pl → s.goesOn →
    Completes (.srw ra sr) s (fun t =>
      t.sysReg sr.toNat = some (s.sysStored sr.toNat (s.me.gr ra)) ∧ (∀ m, m ≠ sr.toNat → t.sysReg m = s.sysReg m) ∧
      t.me.g = s.me.g ∧ t.me.v = s.me.v ∧ t.me.k = s.me.k ∧ t.me.q = s.me.q ∧ t.me.b = s.me.b ∧ t.me.pc = s.me.pc + 4 ∧
      t.me.seg.version = s.me.seg.version ∧ Unchanged [.tiles, .arcades, .quads, .parts, .otherSlots] s t))

/-! Memory accesses (chapter 4). -/

/-- The checks of a typed-buffer access: TSEL, bits [55:18], the buffer's end, then alignment; the own tile's number names the same buffer
as TSEL 0x00 (R26, R27). The buffers of a dead stall are unmapped (R348). The checks of a global access, in their order (R87 Table 2, with
R273 and R275 for what is mapped); an access that hits a line of its caches is checked against the permission bits copied with the line,
without a walk (R278).
Of the model's choice in it: log entries 59 (notes/assumptions). -/
def Obligations.AccessChecks : Prop :=
  (∀ (s : State) home sp (a : Word) sz, 1 ≤ sz →
    let tsel := (a >>> 56).toNat
    let off := (a &&& 0x3FFFF#64).toNat
    let tile := if tsel = 0 then home else home / 128 * 128 + (tsel - 128)
    let size := if sp = 1 then 0x40000 else 0x10000
    ((s.lstall (tile / 16)).dead = false →
      ((1 ≤ tsel ∧ tsel ≤ 0x7F) ∨ (a >>> 18) &&& 0x3FFFFFFFFF#64 ≠ 0 ∨ size < off + sz → s.checkBuffer home sp a sz = .error 0x21) ∧
      (¬(1 ≤ tsel ∧ tsel ≤ 0x7F) → (a >>> 18) &&& 0x3FFFFFFFFF#64 = 0 → off + sz ≤ size →
        s.checkBuffer home sp a sz = if off % sz = 0 then .ok (tile, off) else .error 0x20)) ∧
    ((s.lstall (tile / 16)).dead = true → s.checkBuffer home sp a sz = .error 0x21) ∧
    (tsel = 0 → s.checkBuffer home sp (a ||| (BitVec.ofNat 64 (0x80 + home % 128) <<< 56)) sz = s.checkBuffer home sp a sz)) ∧
  (∀ (s : State) pt l acc ea sz, 1 ≤ sz →
    let found (t : State) (x : Xlat) : Prop := s.checkGlobal pt l acc ea sz =
      match firstCause (checkList s l acc ea sz x (if x.ty = 1 then s.windowEntry l.part ea else none)) with
      | some c => .error c
      | none => .ok (t, x)
    (2 ^ 52 ≤ ea → s.checkGlobal pt l acc ea sz = .error 0x21) ∧
    (ea < 2 ^ 52 → ea % sz ≠ 0 → s.checkGlobal pt l acc ea sz = .error 0x20) ∧
    let walks : Prop := (∀ c, s.translate l.part l.asid.toNat ea true = .error c → s.checkGlobal pt l acc ea sz = .error c) ∧
      ∀ t x, s.translate l.part l.asid.toNat ea true = .ok (t, x) → found t x
    (ea < 2 ^ 52 → ea % sz = 0 → s.hitBits pt l acc ea = none → walks) ∧
    (∀ b, ea < 2 ^ 52 → ea % sz = 0 → s.hitBits pt l acc ea = some b →
      (∀ x, s.lineXlat l.part l.asid.toNat ea b = some x → found s x) ∧ (s.lineXlat l.part l.asid.toNat ea b = none → walks)))

/-- LD and ST in AB and WB: the bytes at the offset in the named tile's buffer, zero-extended or written; a store sets STATUS.TBW and
changes no other byte of any buffer (R90, R92). A failed check traps. A store of 8 bytes may be performed as two words, the second at
the slot's next boundary.
Of the model's choice in it: log entries 60 (notes/assumptions). -/
def Obligations.BufferLoadsStores : Prop :=
  (∀ (s : State) (tile : BitVec 11) (slot : BitVec 3) h sp o v, let k := tile.toNat * 8 + slot.toNat
    (s.slot k).late = some (h, sp, o, v) → s.midSwap (stallOf tile.toNat) = false →
    Acts (.boundaryEvent tile slot) s [.tiles] [k] (fun t => t.slot k = { s.slot k with late := none } ∧ (∀ j, j ≠ h → t.tile j = s.tile j) ∧
      (∀ i, i < 4 → fget 0 ((t.tile h).buf sp) (o + i) = byteOf (BitVec.ofNat 64 v) i) ∧
      ∀ a, a < o ∨ o + 4 ≤ a → fget 0 ((t.tile h).buf sp) a = fget 0 ((s.tile h).buf sp) a)) ∧
  ∀ (s : State) rd ra sz ord (sp : BitVec 2) off, sp ≠ 0 → s.goesOn →
    let ea := accessEa s.me ra off sz
    let n := 2 ^ sz.toNat
    (∀ c, s.checkBuffer (homeOf s.cur) sp.toNat ea n = .error c →
      exec (.ld rd ra sz ord sp off) s = .next (s.trapMe c ea) ∧ exec (.st rd ra sz ord sp off) s = .next (s.trapMe c ea)) ∧
    (∀ h o, s.checkBuffer (homeOf s.cur) sp.toNat ea n = .ok (h, o) → s.bufHeld h = false →
      (s.markedIn h sp.toNat o n = none → ∃ v : Word,
        (∀ i, i < n → byteOf v i = fget 0 ((s.tile h).buf sp.toNat) (o + i)) ∧ v.toNat < 256 ^ n ∧
        Retires (.ld rd ra sz ord sp off) s [] { g := [rd] } (Wrote rd v)) ∧
      let only (t : State) (from' len : Nat) : Prop := t.me.tbw = true ∧ (∀ k, k ≠ h → t.tile k = s.tile k) ∧
        (∀ a, a < from' ∨ from' + len ≤ a → fget 0 ((t.tile h).buf sp.toNat) a = fget 0 ((s.tile h).buf sp.toNat) a) ∧
        (∃ m, t.tile h = { ((s.tile h).setBuf sp.toNat ((t.tile h).buf sp.toNat)) with marked := m })
      (n ≠ 8 ∨ s.cut = none → Retires (.st rd ra sz ord sp off) s [.tiles] { status := [6] } (fun t => only t o n ∧ t.me.late = s.me.late ∧
        ∀ i, i < n → fget 0 ((t.tile h).buf sp.toNat) (o + i) = byteOf (s.me.gr rd) i)) ∧
      (∀ c, n = 8 → s.cut = some c → let j := if c % 2 = 0 then 0 else 4
        Retires (.st rd ra sz ord sp off) s [.tiles] { status := [6] } (fun t => only t (o + j) 4 ∧
          (∀ i, i < 4 → fget 0 ((t.tile h).buf sp.toNat) (o + j + i) = byteOf (s.me.gr rd) (j + i)) ∧
          ∃ v, t.me.late = some (h, sp.toNat, o + (4 - j), v) ∧ ∀ i, i < 4 → byteOf (BitVec.ofNat 64 v) i = byteOf (s.me.gr rd) (4 - j + i))))

/-- LD in the global space: each byte from the segment's version where it holds the byte, else the committed one, zero-extended, with
the commits of its order; a failed check traps (R88, R90, R91, R258). A release makes the version's bytes visible as a commit does, and begins
a new segment. A byte of a private page may also be an older one, of before a commit that fell since the segment began (R268). A failed check
of an acquiring load traps in the state after its commit.
Of the model's choice in it: log entries 11, 14, 17, 59 (notes/assumptions). -/
def Obligations.GlobalLoads : Prop :=
  ∀ (s u : State) rd ra sz ord off, s.goesOn → s.me.sent = false → s.me.load = none → AccessFrom ord s u →
    let ea := accessEa s.me ra off sz
    let n := 2 ^ sz.toNat
    (∀ c, u.checkMine .load ea.toNat n = .error c → exec (.ld rd ra sz ord 0 off) s = .next (u.trapMe c ea)) ∧
    (∀ w x, u.checkMine .load ea.toNat n = .ok (w, x) → u.opPending u.me (homeOf u.cur) (fun g => g == ea.toNat / 32) = false →
      (u.isDeep x.pa = false ∨ inVersion u.me.seg.version ea.toNat n = true) →
      let own (i : Nat) : Option Byte := fget none u.me.seg.version (ea.toNat + i)
      ∃ (v : Word) (y : State), v.toNat < 256 ^ n ∧
        ((∀ i, i < n → byteOf v i = (own i).getD (w.byte (x.pa + i))) ∨
          (x.pvt = true ∧ ∃ e d, e ∈ w.dirty ∧ e.1 = x.pa / 32 ∧ e.2 = some d ∧ u.me.seg.began < d.first ∧
            ∀ i, i < n → byteOf v i = (own i).getD (BitVec.ofNat 8 (d.stale.toNat / 256 ^ (x.pa % 32 + i))))) ∧
        Unchanged accessScope u y ∧ LeafOnly x u y ∧ Keeps { g := [rd], seg := true } u.me y.me ∧ y.me.seg.version = u.me.seg.version ∧
        (ord.getLsbD 1 = false → exec (.ld rd ra sz ord 0 off) s = .next y ∧ y.me.pc = s.me.pc + 4 ∧ y.me.hints = [] ∧ Wrote rd v y) ∧
        (ord.getLsbD 1 = true → u.me.doomed = false → u.quiet → Completes (.ld rd ra sz ord 0 off) s (fun t =>
          t.me.seg.version = [] ∧ t.me.seg.reads = [] ∧ t.me.pc = s.me.pc + 4 ∧ t.me.hints = [] ∧ Wrote rd v t ∧
          t.mem = (y.commitSlot y.cur).mem ∧ ∀ r, r ≠ rd → t.me.gr r = u.me.gr r)))

/-- ST in the global space: the bytes enter the segment's version, and no byte of memory changes but the leaf entry's A bit; a release
commits the version; a failed check traps, of an acquiring store in the state after its commit (R88, R90, R91, R258).
Of the model's choice in it: log entries 11, 12, 13, 59 (notes/assumptions). -/
def Obligations.GlobalStores : Prop :=
  ∀ (s u : State) rd ra sz ord off, s.goesOn → s.me.sent = false → AccessFrom ord s u →
    let ea := accessEa s.me ra off sz
    let n := 2 ^ sz.toNat
    (∀ c, u.checkMine .store ea.toNat n = .error c → exec (.st rd ra sz ord 0 off) s = .next (u.trapMe c ea)) ∧
    (∀ w x, u.checkMine .store ea.toNat n = .ok (w, x) → ∃ y : State,
      Unchanged accessScope u y ∧ LeafOnly x u y ∧ Keeps { seg := true } u.me y.me ∧
      (∀ i, i < n → fget none y.me.seg.version (ea.toNat + i) = some (byteOf (s.me.gr rd) i)) ∧
      (∀ a, a < ea.toNat ∨ ea.toNat + n ≤ a → fget none y.me.seg.version a = fget none u.me.seg.version a) ∧
      (ord.getLsbD 1 = false → exec (.st rd ra sz ord 0 off) s = .next y ∧ y.me.pc = s.me.pc + 4 ∧ y.me.hints = []) ∧
      (ord.getLsbD 1 = true → u.me.doomed = false → u.quiet → Completes (.st rd ra sz ord 0 off) s (fun t =>
        t.me.seg.version = [] ∧ t.me.pc = s.me.pc + 4 ∧ t.me.hints = [] ∧ t.mem = (y.commitSlot y.cur).mem)))

/-- PF writes no register, no memory and no read set; CFL writes the granule's dirty line back and leaves every byte as it was, as does
CINV at its default scope, after which the tile's L1 and the stall cache hold no copy (R95, R96, R97).
Of the model's choice in it: log entries 9, 59 (notes/assumptions). -/
def Obligations.CacheOperations : Prop :=
  ∀ (s : State) ra off, s.goesOn →
    let ea := ((s.me.gr ra + BitVec.ofInt 64 (off.toInt * 32)).toNat / 32) * 32
    Retires (.pf ra off) s [.pstalls, .place, .walks, .lines, .caches] {} (fun _ => True) ∧
    Retires (.cfl ra off) s [.lines] {} (fun t =>
      s.me.hint 4 = none → ∀ x, s.peek s.me ea = some x → fget none t.dirty (x.pa / 32) = none) ∧
    Retires (.cinv ra off) s [.lines, .caches] {} (fun t => s.me.hint 4 = none → ∀ x, s.peek s.me ea = some x →
      (∀ d, fget none s.dirty (x.pa / 32) = some d → d.holder = s.stallAt s.cur → fget none t.dirty (x.pa / 32) = none) ∧
      t.l1Bits s.myTile s.me.part s.me.asid.toNat (ea / 32) = none ∧
      t.cacheBits (s.stallAt s.cur) s.me.part s.me.asid.toNat (ea / 32) = none)

/-- AMO and CAS commit, then read and write indivisibly: the old value goes to rd, the new one to memory at once, and no other byte
changes but the leaf entry (R88, R98, R99, R100). Checks and waits come after the commit, and a failed check traps in the state after it.
Of the model's choice in it: log entries 11, 13, 17, 59 (notes/assumptions). -/
def Obligations.Atomics : Prop :=
  ∀ i (s : State) rd ra ord dw f, atomicOf i s.me = some (rd, ra, ord, dw, f) → s.goesOn → s.clean →
    let u := s.commitSlot s.cur
    let ea := s.me.gr ra
    let n := if dw = 0 then 4 else 8
    (∀ c, u.checkMine .atomic ea.toNat n = .error c → exec i s = .next (u.trapMe c ea)) ∧
    (∀ w x, u.checkMine .atomic ea.toNat n = .ok (w, x) → w.writeWaits x.pa = false → w.opQueued x.pa = false →
      u.deepGone x.pa = false → u.inRxdir (x.pa / 16 * 16) = false → u.inTable (x.pa / 32) = false → w.inTable (x.pa / 32) = false →
      (x.at' + 8 ≤ x.pa ∨ x.pa + n ≤ x.at') →
      Completes i s (fun t =>
        Wrote rd (BitVec.ofNat 64 (w.rd x.pa n)) t ∧ t.rd x.pa n = (f (w.rd x.pa n)).getD (w.rd x.pa n) ∧
        (∀ a, a < x.pa ∨ x.pa + n ≤ a → a < x.at' ∨ x.at' + 8 ≤ a → t.byte a = u.byte a) ∧
        Keeps { g := [rd], seg := true } u.me t.me ∧ t.me.pc = s.me.pc + 4 ∧ t.me.hints = [] ∧ t.me.seg.version = []))

/-- MOP.RED completes when its operation is queued at its unit, behind those that wait; MOP.CAS and MOP.SAC queue theirs and wait for the old
value, which the application of the operation writes to rd. Nothing else changes (R101 to R104).
Of the model's choice in it: log entries 55, 66 (notes/assumptions). -/
def Obligations.BankOperations : Prop :=
  (∀ i (s : State) ra rb dw op w x, redOf i = some (ra, rb, dw, op) → s.goesOn →
    let n := if dw = 0 then 4 else 8
    s.checkMine .bankop (s.me.gr ra).toNat n = .ok (w, x) → (fget [] s.bankops (s.unitOf x.pa)).length < 32 →
    Retires i s [.memory, .place, .walks, .bankops] {} (fun t => LeafOnly x s t ∧
      (∀ k, k ≠ s.unitOf x.pa → fget [] t.bankops k = fget [] s.bankops k) ∧
      ∃ o : BankOp, fget [] t.bankops (s.unitOf x.pa) = fget [] s.bankops (s.unitOf x.pa) ++ [o] ∧
        o.op = op ∧ o.size = n ∧ o.pa = x.pa ∧ o.b = s.me.gr rb ∧ o.wants = false ∧ o.task = s.me.taskid)) ∧
  (∀ i (s : State) rd ra rb dw op w x, valueOpOf i = some (rd, ra, rb, dw, op) → s.goesOn →
    let n := if dw = 0 then 4 else 8
    s.checkMine .bankop (s.me.gr ra).toNat n = .ok (w, x) → (fget [] s.bankops (s.unitOf x.pa)).length < 32 →
    Completes i s (fun t => Unchanged [.memory, .place, .walks, .bankops] s t ∧ LeafOnly x s t ∧ Keeps {} s.me t.me ∧
      t.me.phase = .waiting (.bankValue rd s.me.pc) ∧ t.me.pc = s.me.unitStart ∧
      ∃ o : BankOp, fget [] t.bankops (s.unitOf x.pa) = fget [] s.bankops (s.unitOf x.pa) ++ [o] ∧
        o.op = op ∧ o.size = n ∧ o.pa = x.pa ∧ o.b = s.me.gr rb ∧ o.expect = s.me.gr rd ∧ o.wants = true ∧ o.slot = s.cur))

/-- GTH: the descriptor is checked (0x20, 0x21, 0x25), then the destination, which lies in the tile's own AB (0x21, 0x20); a PIDX at or
beyond COUNT completes at once, and else the slot waits with an engine of its column, of which there are four (R105 to R107, R294, R332).
The engine copies the elements that its indices name into the tile's own AB from PIDX on, and with the last GTH writes the number of bytes
and completes; at a stop point, or under the debugger's STEP after one element, it leaves PIDX at the next element. A failed read of an
index or an element, and an index of TLEN or more (0x26), trap with PIDX at the element (R107, R108, R345).
Of the model's choice in it: log entries 6, 20, 60, 62 (notes/assumptions). -/
def Obligations.Gathers : Prop :=
  (∀ (s : State) rd ra rb, s.goesOn →
    (let a := s.me.gr ra
      let b := (s.me.gr rb).toNat
      let home := homeOf s.cur
      (∀ c, s.checkBuffer home 1 a 32 = .error c → exec (.gth rd ra rb) s = .next (s.trapMe c a)) ∧
      ∀ dh d0, s.checkBuffer home 1 a 32 = .ok (dh, d0) → s.markedIn dh 1 d0 32 = none →
        let x := s.bufRead dh 1 d0 32
        let bad := bits x 195 192 < 2 ∨ 9 < bits x 195 192 ∨ bits x 197 196 = 3 ∨ bits x 159 128 = 0 ∨ bits x 255 198 ≠ 0
        let own := (bits b 63 56 = 0 ∨ bits b 63 56 = 128 + home % 128) ∧ bits b 55 18 = 0 ∧
          bits b 17 0 + bits x 159 128 * 2 ^ bits x 195 192 ≤ 0x40000 ∧ (s.lstall (home / 16)).dead = false
        (bad → exec (.gth rd ra rb) s = .next (s.trapMe 0x25 a)) ∧
        (¬bad → ¬own → exec (.gth rd ra rb) s = .next (s.trapMe 0x21 (s.me.gr rb))) ∧
        (¬bad → own → bits b 17 0 % 2 ^ bits x 195 192 ≠ 0 → exec (.gth rd ra rb) s = .next (s.trapMe 0x20 (s.me.gr rb))) ∧
        (¬bad → own → bits b 17 0 % 2 ^ bits x 195 192 = 0 → ∃ d : Gather, s.gatherPlan a (s.me.gr rb) = .ok (d, home, bits b 17 0) ∧
          d.tbase.toNat = bits x 63 0 ∧ d.ibase.toNat = bits x 127 64 ∧ d.count = bits x 159 128 ∧ d.tlen = bits x 191 160 ∧
          d.elog = bits x 195 192 ∧ d.iw = bits x 197 196)) ∧
    (∀ c v, s.gatherPlan (s.me.gr ra) (s.me.gr rb) = .error (c, v) → exec (.gth rd ra rb) s = .next (s.trapMe c v)) ∧
    (∀ d h o, s.gatherPlan (s.me.gr ra) (s.me.gr rb) = .ok (d, h, o) →
      (d.count ≤ s.me.pidx.toNat → Retires (.gth rd ra rb) s [] { pidx := true } (fun t => t.me.pidx = 0)) ∧
      (s.me.pidx.toNat < d.count → s.gathers (s.stallAt s.cur) < 4 →
        Completes (.gth rd ra rb) s (fun t => Unchanged [] s t ∧ Keeps {} s.me t.me ∧
          t.me.phase = .waiting (.gather { desc := d, home := h, off := o, rd := rd, at' := s.me.pc }) ∧ t.me.pc = s.me.unitStart)) ∧
      (s.me.pidx.toNat < d.count → 4 ≤ s.gathers (s.stallAt s.cur) → exec (.gth rd ra rb) s = .next (s.waitFor .completion)))) ∧
  (∀ (s : State) (tile : BitVec 11) (slot : BitVec 3) (g : GatherRun), let k := tile.toNat * 8 + slot.toNat
    let u : State := { s with cur := k }
    let n := g.desc.count - (s.slot k).pidx.toNat
    (s.slot k).phase = .waiting (.gather g) → s.midSwap (stallOf tile.toNat) = false →
    (∀ v, s.cut = none → (s.slot k).stepping = false → u.gatherRun g (s.slot k).pidx.toNat n = .ok v → Completes (.gatherComplete tile slot) s (fun t =>
      t.cur = s.cur ∧ Component.memory.Same v t ∧ Component.tiles.Same v t ∧ (∀ j, j ≠ k → t.slot j = v.slot j) ∧
      Keeps { g := [g.rd], pidx := true } (v.slot k) (t.slot k) ∧ (t.slot k).pidx = 0 ∧ (t.slot k).pc = g.at' + 4 ∧
      (t.slot k).gr g.rd = (if g.rd = 0 then 0 else BitVec.ofNat 64 (g.desc.count * 2 ^ g.desc.elog)))) ∧
    (∀ s1 ix s2 e, s.cut = none → g.desc.count = 1 → (s.slot k).pidx = 0 → ix < g.desc.tlen →
      u.gatherRead g.desc.ibase (2 ^ (g.desc.iw + 1)) = .ok (s1, ix) →
      s1.gatherRead (g.desc.tbase + BitVec.ofNat 64 (ix * 2 ^ g.desc.elog)) (2 ^ g.desc.elog) = .ok (s2, e) →
      Completes (.gatherComplete tile slot) s (fun t => (t.slot k).gr g.rd = (if g.rd = 0 then 0 else BitVec.ofNat 64 (2 ^ g.desc.elog)) ∧
        (t.slot k).pidx = 0 ∧ (t.slot k).pc = g.at' + 4 ∧ (t.slot k).tbw = true ∧ (∀ a, t.byte a = s2.byte a) ∧
        (∀ i, i < 2 ^ g.desc.elog → fget 0 (t.tile g.home).ab (g.off + i) = BitVec.ofNat 8 (e / 256 ^ i)) ∧
        (∀ a, a < g.off ∨ g.off + 2 ^ g.desc.elog ≤ a → fget 0 (t.tile g.home).ab a = fget 0 (s2.tile g.home).ab a))) ∧
    (∀ m v, s.cut = some m → m < n → (s.slot k).stepping = false → u.gatherRun g (s.slot k).pidx.toNat m = .ok v →
      (v.slot k).stepping = false → Completes (.gatherComplete tile slot) s (fun t =>
        (t.slot k).phase = (v.slot k).phase ∧ (t.slot k).pidx = BitVec.ofNat 32 ((s.slot k).pidx.toNat + m) ∧ Component.memory.Same v t)) ∧
    (∀ v, (s.slot k).stepping = true → 1 < n → u.gatherRun g (s.slot k).pidx.toNat 1 = .ok v → (v.slot k).stepping = true →
      Completes (.gatherComplete tile slot) s (fun t => (t.slot k).phase = .halted ∧ (t.slot k).stepping = false ∧
        (t.slot k).pidx = BitVec.ofNat 32 ((s.slot k).pidx.toNat + 1) ∧ (t.slot k).pc = (v.slot k).pc ∧ Component.memory.Same v t)) ∧
    (n = 1 → s.cut = none → (s.slot k).stepping = false → (s.slot k).gang = false → (s.slot k).doomed = false →
      CanTrap (s.slot k) (s.slot k).unitStart →
      let ia := g.desc.ibase + BitVec.ofNat 64 ((s.slot k).pidx.toNat * 2 ^ (g.desc.iw + 1))
      let traps (c : BitVec 8) (v : Word) : Prop := Completes (.gatherComplete tile slot) s (fun t =>
        (t.slot k).ecause = c ∧ (t.slot k).eval = v ∧ (t.slot k).epc = (s.slot k).unitStart ∧ (t.slot k).pc = (s.slot k).tvec ∧
        (t.slot k).pidx = (s.slot k).pidx ∧ (t.slot k).g = (s.slot k).g)
      (∀ c, c ≠ 0x2D → u.gatherRead ia (2 ^ (g.desc.iw + 1)) = .error c → traps c ia) ∧
      (∀ s1 ix, u.gatherRead ia (2 ^ (g.desc.iw + 1)) = .ok (s1, ix) → s1.cur = k → s1.slot k = s.slot k →
        let ta := g.desc.tbase + BitVec.ofNat 64 (ix * 2 ^ g.desc.elog)
        (g.desc.tlen ≤ ix → traps 0x26 (BitVec.ofNat 64 ix)) ∧
        (∀ c, c ≠ 0x2D → ix < g.desc.tlen → s1.gatherRead ta (2 ^ g.desc.elog) = .error c → traps c ta))))

/-- COMMIT and the fences commit and retire; FENCE and FENCE.G wait while a bank operation of the slot is queued, and at system scope they
write back every line that the task has committed (R109, R110). WAITA ends when the dword has reached the target, and else waits at the
instruction; WAITANY reports and clears the first ready barrier from the start pointer, which is an acquire (R88); REFL reports and clears
the record of window stores once none is outstanding (R111, R112, R115).
Of the model's choice in it: log entries 16, 55, 59 (notes/assumptions). -/
def Obligations.Synchronisation : Prop :=
  (∀ s : State, s.goesOn → s.clean →
    let u := s.commitSlot s.cur
    exec .commit s = .next u.retire ∧ exec .fenceB s = .next u.retire ∧
    (u.opPending u.me (homeOf u.cur) (fun _ => true) = false → ∀ i, i = .fence ∨ i = .fenceG →
      (s.me.scopeHint ≠ some 4 → exec i s = .next u.retire) ∧
      (s.me.scopeHint = some 4 → Completes i s (fun t => t.mem = u.mem ∧ t.me.g = u.me.g ∧ t.me.pc = s.me.pc + 4 ∧
        ∀ e d, e ∈ t.dirty → e.2 = some d → ∀ w ∈ d.wrote, w.2.2 ≠ s.me.taskid))) ∧
    (u.opPending u.me (homeOf u.cur) (fun _ => true) = true → ∀ i, i = .fence ∨ i = .fenceG → exec i s = .next (u.waitFor .completion))) ∧
  (∀ (s : State) rd ra rb w x, s.goesOn → s.clean →
    let u := (s.commitSlot s.cur).openHere
    let m := BitVec.ofNat 64 (w.rd x.pa 8)
    u.checkMine .wait (s.me.gr ra).toNat 8 = .ok (w, x) → w.deepGone x.pa = false → w.orphaned w.me.part x = false → x.pvt = false →
    (0 ≤ (m - s.me.gr rb).toInt → Completes (.waita rd ra rb) s (fun t => Wrote rd m t ∧ t.me.pc = s.me.pc + 4 ∧
      Keeps { g := [rd], seg := true } u.me t.me ∧ Unchanged accessScope u t ∧ LeafOnly x u t)) ∧
    ((m - s.me.gr rb).toInt < 0 → Completes (.waita rd ra rb) s (fun t => t.me.phase = .waiting (.address (s.me.gr ra)) ∧
      t.me.pc = s.me.unitStart ∧ Keeps { seg := true } u.me t.me ∧ Unchanged accessScope u t ∧ LeafOnly x u t))) ∧
  (∀ (s : State) rd ra, s.goesOn → s.clean →
    let u := (s.commitSlot s.cur).openHere
    let zero (j : Nat) : Prop := (s.me.gr ra).getLsbD j = true ∧ (u.me.br j).setWidth 16 = 0#16
    ((s.me.gr ra).setWidth 8 = 0#8 → Completes (.waitany rd ra) s (fun t => Wrote rd 0x8000000000000000 t ∧ t.me.pc = s.me.pc + 4 ∧
      Keeps { g := [rd], seg := true } u.me t.me ∧ Unchanged [] u t)) ∧
    (∀ i, i < 8 → zero ((u.me.startPtr.toNat + i) % 8) → (∀ k, k < i → ¬zero ((u.me.startPtr.toNat + k) % 8)) →
      let j := (u.me.startPtr.toNat + i) % 8
      Completes (.waitany rd ra) s (fun t =>
        Wrote rd (BitVec.ofNat 64 j ||| (((u.me.br j >>> 16) &&& 0x1FF).setWidth 64 <<< 16)) t ∧ t.me.br j = 0 ∧
        t.me.startPtr = BitVec.ofNat 3 (j + 1) ∧ t.me.pc = s.me.pc + 4 ∧ Keeps { g := [rd], bars := [j], seg := true } u.me t.me ∧
        Unchanged [.caches] u t)) ∧
    ((s.me.gr ra).setWidth 8 ≠ 0#8 → (∀ j, j < 8 → ¬zero j) → exec (.waitany rd ra) s = .next (u.waitFor .completion))) ∧
  (∀ (s : State) rd, s.goesOn →
    ((s.reflRec s.me.taskid).outstanding = 0 → Retires (.refl rd) s [.credits] { g := [rd] } (fun t =>
      Wrote rd (BitVec.ofNat 64 ((s.reflRec s.me.taskid).failed % 65536 * 65536 + (s.reflRec s.me.taskid).cause.toNat)) t ∧
      (∀ k, k ≠ s.me.taskid.toNat → fget {} t.refl k = fget {} s.refl k) ∧ t.reflRec s.me.taskid = {} ∧ t.ended = s.ended)) ∧
    ((s.reflRec s.me.taskid).outstanding ≠ 0 → exec (.refl rd) s = .next (s.waitFor .completion)))

/-! Number formats and vector instructions (chapters 5 and 6). -/

/-- To nearest, ties to even: the code delivered for a finite value within the format's range is no farther from it than any other, an even
code on a tie, and NX tells whether it differs (R117, R119, R121). The value is m × 2^(emin - k), emin the smallest subnormal's exponent. -/
def Obligations.RoundNearest : Prop :=
  ∀ t f (emin : Int) top sign (m k : Nat) neg rng sm, floatFormat t = some (f, emin, top, sign) → 0 < m → m ≤ codeMag f top * 2 ^ k →
    ∃ c, c ≤ top ∧ (roundTo t 0 sm rng (.fin neg m (emin - k) false)).bits = neg.toNat * 2 ^ sign + c ∧
      (∀ d, d ≤ top → ((m : Int) - codeMag f c * 2 ^ k).natAbs ≤ ((m : Int) - codeMag f d * 2 ^ k).natAbs) ∧
      (∀ d, d ≤ top → d ≠ c → ((m : Int) - codeMag f c * 2 ^ k).natAbs = ((m : Int) - codeMag f d * 2 ^ k).natAbs → c % 2 = 0) ∧
      ((roundTo t 0 sm rng (.fin neg m (emin - k) false)).flags.getLsbD 4 = true ↔ m ≠ codeMag f c * 2 ^ k)

/-- Rounding a value m / 2^k into an integer format whose range holds it: the nearest integer with ties to even, toward zero, down, and up
(R119 Table 3, R123). -/
def Obligations.RoundInteger : Prop :=
  ∀ t (m k : Nat) neg rng sm mode, t ∈ [1, 2, 6, 8, 10] → mode ∈ [0#3, 1#3, 2#3, 3#3] →
    let x : Int := if neg then -(m : Int) else m
    intMin t * 2 ^ k ≤ x → x ≤ intMax t * 2 ^ k →
    ∃ v : Int, intMin t ≤ v ∧ v ≤ intMax t ∧ (roundTo t mode sm rng (.fin neg m (-(k : Int)) false)).bits = (v % 2 ^ elemBits t).toNat ∧
      (roundTo t mode sm rng (.fin neg m (-(k : Int)) false)).flags = (if x = v * 2 ^ k then 0 else fNX) ∧
      (mode = 0 → 2 * (x - v * 2 ^ k).natAbs ≤ 2 ^ k ∧ (2 * (x - v * 2 ^ k).natAbs = 2 ^ k → v % 2 = 0)) ∧
      (mode = 1 → v = x.tdiv (2 ^ k)) ∧ (mode = 2 → v = x / 2 ^ k) ∧ (mode = 3 → v = -(-x / 2 ^ k))

/-- A vector instruction with a vector destination: cause 0x08 for a VOID source before cause 0x07 for a tag that is not accepted, cause
0x07 where R20 refuses the destination; otherwise it writes the destination under its mask and `lt`, and changes nothing else but FLAGS,
RNGS and STATUS.VS (R17, R19, R20, R137). Arithmetic, conversions, reductions and scans of values, and the elementary functions deliver in
every unmasked element one rounding of the exact result (R119, R140 to R142, R151 to R153, R156 to R159, R162, R163); outside stochastic mode
RNGS stays, and a NaN formed from sources that are none sets NV (R118). The codes of the floating formats have the values of R117, those of
the integer formats their own.
Of the model's choice in it: log entries 22, 64 (notes/assumptions). -/
def Obligations.VectorWrites : Prop :=
  (∀ t f (emin : Int) top sign x, floatFormat t = some (f, emin, top, sign) → let m := x % 2 ^ sign
    (m ≤ top → (decodeElem t x).rat = some ((if bit x sign then -1 else 1) * (codeMag f m : Rat) * (2 : Rat) ^ emin) ∧
      (decodeElem t x).minus = bit x sign) ∧
    (m = top + 1 → t ≠ 7 → decodeElem t x = .inf (bit x sign)) ∧
    (top < m → t = 7 ∨ m ≠ top + 1 → (decodeElem t x).isNan = true ∧ ((decodeElem t x).isSnan = true ↔ t ≠ 7 ∧ bit x (f - 1) = false))) ∧
  (∀ (x : VReg) e, intTag x.tag = true ∨ x.tag = 10 → (x.value e).rat = some (x.int e : Rat)) ∧
  (∀ i (s : State) op R, vecOpOf i s.me = some op → vecValueOf i s.me = some R → i.wf = true → s.goesOn → op.accepted →
    op.writable (s.me.vr op.vd.toNat) →
    let on (e : Nat) : Prop := e < 1024 / tagWidth op.tag ∧ op.mask.getLsbD (e * tagWidth op.tag / 32) = true
    Completes i s (fun t =>
      (∀ e, on e → ∃ g r, R e r ∧
        (t.me.vr op.vd.toNat).code e = (roundTo op.tag.toNat s.me.rmode s.me.satMode g r).bits % 2 ^ tagWidth op.tag) ∧
      (s.me.rmode ≠ 4 → t.me.rngs = s.me.rngs) ∧
      (elementwise i = true → (∃ e, on e ∧ (∀ x ∈ op.srcs, (x.value e).isNan = false) ∧ ∀ r, R e r → r.isNan = true) →
        wbit t.me.flags 0 = true))) ∧
  ∀ i (s : State) op, vecOpOf i s.me = some op → i.wf = true → s.goesOn →
    ((∃ x ∈ op.srcs, x.tag = 0) → exec i s = .next (s.trapMe 0x08 (evalWord i))) ∧
    ((∀ x ∈ op.srcs, x.tag ≠ 0) → op.ok = false → exec i s = .next (s.trapMe 0x07 (evalWord i))) ∧
    (op.accepted → ¬op.writable (s.me.vr op.vd.toNat) → exec i s = .next (s.trapMe 0x07 (evalWord i))) ∧
    (op.accepted → op.writable (s.me.vr op.vd.toNat) →
      Retires i s [] { v := [op.vd.toNat, 24], status := [5], flags := true, rngs := true } (fun t => op.Written s.me t.me))

/-- Bit operations, shifts, selects, moves, permutes, and the bit reductions and scans: every bit of every unmasked lane (R143, R144, R146
to R149, R158 to R161). They set no flag and leave RNGS. -/
def Obligations.VectorBits : Prop :=
  ∀ i (s : State) op f, vecOpOf i s.me = some op → vecBitOf i s.me = some f → s.goesOn → op.accepted → op.writable (s.me.vr op.vd.toNat) →
    Completes i s (fun t => t.me.flags = s.me.flags ∧ t.me.rngs = s.me.rngs ∧
      ∀ p, p < 1024 → op.mask.getLsbD (p / 32) = true → (t.me.vr op.vd.toNat).lanes.getLsbD p = f p)

/-- Element arithmetic on integer tags: the exact result, saturated with SA and NX, or its low bits under a SAT hint of wrap with no flag
(R123, R140, R141, R142). -/
def Obligations.VectorIntegers : Prop :=
  ∀ i (s : State) op f, vecOpOf i s.me = some op → vecIntOf i s.me = some f → intTag op.tag = true → s.goesOn → op.accepted →
    op.writable (s.me.vr op.vd.toNat) →
    let wrap := s.me.satHint = some false
    let out (e : Nat) : Prop := op.mask.getLsbD (e * tagWidth op.tag / 32) = true ∧ (f e < intLow op.tag ∨ intHigh op.tag < f e)
    Completes i s (fun t => t.me.rngs = s.me.rngs ∧
      (∀ e, e < 1024 / tagWidth op.tag → op.mask.getLsbD (e * tagWidth op.tag / 32) = true →
        (wrap → (t.me.vr op.vd.toNat).code e = (f e % 2 ^ tagWidth op.tag).toNat) ∧
        (¬wrap → (t.me.vr op.vd.toNat).int e = max (intLow op.tag) (min (intHigh op.tag) (f e)))) ∧
      ((wrap ∨ ∀ e, e < 1024 / tagWidth op.tag → ¬out e) → t.me.flags = s.me.flags) ∧
      (¬wrap → (∃ e, e < 1024 / tagWidth op.tag ∧ out e) → t.me.flags = s.me.flags ||| 0x30))

/-- VCMP writes its mask register and no vector register: a bit is 1 exactly when its lane is unmasked and the condition holds for every
element of the lane, on values of any tag: −0 equals +0, and a NaN makes NE alone hold; k0 discards the result (R19, R22, R145). Mask
instructions, and the moves from a mask or a lane to a scalar register (R22, R150, R164). -/
def Obligations.MaskRegisters : Prop :=
  (∀ i (s : State) c kd va vb km, compareOf i = some (c, kd, va, vb, km) → s.goesOn →
    let a := s.me.vr va.toNat
    let b := s.me.vr vb.toNat
    (a.tag = 0 ∨ b.tag = 0 → exec i s = .next (s.trapMe 0x08 (evalWord i))) ∧
    (a.tag ≠ 0 → b.tag ≠ 0 → ¬(arithmeticTag a.tag = true ∧ b.tag = a.tag) → exec i s = .next (s.trapMe 0x07 (evalWord i))) ∧
    (arithmeticTag a.tag = true → b.tag = a.tag →
      Retires i s [] { k := [kd], status := [5], flags := true } (fun t => t.me.vs = true ∧
        (kd = 0 → t.me.kr kd = 0xFFFFFFFF) ∧ (kd ≠ 0 → ∀ j, (s.me.kr km).getLsbD j = false → (t.me.kr kd).getLsbD j = false) ∧
        (intTag a.tag = true → t.me.flags = s.me.flags ∧ (kd ≠ 0 → ∀ j, j < 32 → (s.me.kr km).getLsbD j = true →
          ((t.me.kr kd).getLsbD j = true ↔ ∀ e, e < 1024 / tagWidth a.tag → e * tagWidth a.tag / 32 = j → compareHolds c (a.int e) (b.int e)))) ∧
        (kd ≠ 0 → ∀ j, j < 32 → (s.me.kr km).getLsbD j = true → ((t.me.kr kd).getLsbD j = true ↔
          ∀ e, e < 1024 / tagWidth a.tag → e * tagWidth a.tag / 32 = j → compareNum c (a.value e) (b.value e))) ∧
        (a.tag = 3 → kd ≠ 0 → ∀ j, j < 32 → (s.me.kr km).getLsbD j = true → 0x7F800000 < (a.word j).toNat % 2 ^ 31 →
          ((t.me.kr kd).getLsbD j = true ↔ c = 1))))) ∧
  ((∀ i (s : State) kd v, maskOf i s.me = some (kd, v) → s.goesOn →
    Retires i s [] { k := [kd], status := [5] } (fun t => t.me.kr kd = (if kd = 0 then 0xFFFFFFFF else v) ∧ t.me.vs = true)) ∧
  (∀ (s : State) rd ka, s.goesOn →
    Retires (.kmovMaskToScalar rd ka) s [] { g := [rd] } (Wrote rd ((s.me.kr ka).setWidth 64)) ∧
    Retires (.kpop rd ka) s [] { g := [rd] } (Wrote rd (BitVec.ofNat 64 ((List.range 32).filter (fun j => (s.me.kr ka).getLsbD j)).length)) ∧
    ∃ n, n ≤ 32 ∧ (∀ j, j < n → (s.me.kr ka).getLsbD j = false) ∧ (n < 32 → (s.me.kr ka).getLsbD n = true) ∧
      Retires (.kff rd ka) s [] { g := [rd] } (Wrote rd (BitVec.ofNat 64 n))) ∧
  (∀ (s : State) rd (va : BitVec 5) (lane : BitVec 5), s.goesOn →
    ((s.me.vr va.toNat).tag = 0 → exec (.vext rd va lane) s = .next (s.trapMe 0x08 (evalWord (.vext rd va lane)))) ∧
    ((s.me.vr va.toNat).tag ≠ 0 →
      Retires (.vext rd va lane) s [] { g := [rd] } (Wrote rd (((s.me.vr va.toNat).word lane.toNat).setWidth 64)))))

/-- VQNT funnels: what the narrow register and the scale register hold moves toward element 0 to make room for the new blocks. Each new
block of 32 takes the scale that its largest finite magnitude gives, and each new element is one rounding of the source element times
2^(127 − scale); a block that holds a NaN is written as zeros and sets NV. Lane 31 of the scale register counts the saturated and the
flushed elements, and `lt` is written (R126, R154, R155). It completes whenever its source is F32, H16 or B16, the narrow register is
VOID or has the narrow tag, and the scale register is VOID or E8; any other tag raises cause 0x08 or 0x07. Where vd and vb name one
register that register keeps the scales, and `lt` takes the narrow elements.
Of the model's choice in it: log entries 65, 75 (notes/assumptions). -/
def Obligations.Quantise : Prop :=
  ∀ (s : State) (vd va vb : BitVec 5) (tg : BitVec 4), (Instr.vqnt vd va vb tg).wf = true → s.goesOn →
    let a := s.me.vr va.toNat
    let d := s.me.vr vd.toNat
    let b := s.me.vr vb.toNat
    let n := 1024 / tagWidth tg
    let m := 1024 / tagWidth a.tag
    let accepted := (a.tag = 3 ∨ a.tag = 4 ∨ a.tag = 5) ∧ (d.tag = tg ∨ d.tag = 0) ∧ (b.tag = 12 ∨ b.tag = 0)
    (a.tag = 0 → exec (.vqnt vd va vb tg) s = .next (s.trapMe 0x08 (evalWord (.vqnt vd va vb tg)))) ∧
    (a.tag ≠ 0 → ¬accepted → exec (.vqnt vd va vb tg) s = .next (s.trapMe 0x07 (evalWord (.vqnt vd va vb tg)))) ∧
    (accepted → ∃ t, exec (.vqnt vd va vb tg) s = .next t ∧ Unchanged [] s t ∧
      Keeps { v := [vd.toNat, vb.toNat, 24], status := [5], flags := true, rngs := true } s.me t.me ∧ t.me.pc = s.me.pc + 4 ∧ t.me.hints = [] ∧
      let x := t.me.vr vd.toNat
      let y := t.me.vr vb.toNat
      let lt := t.me.vr 24
      t.me.vs = true ∧ lt.tag = tg ∧ (∀ e, e + m < n → lt.code e = if d.tag = tg then d.code (e + m) else 0) ∧
      (vd ≠ vb → x = lt) ∧
      (vb ≠ 24 → y.tag = 12 ∧ (∀ j, j + m / 32 < n / 32 → y.code j = if b.tag = 12 then b.code (j + m / 32) else 0) ∧
        ∀ j, n / 32 ≤ j → j < 124 → y.code j = 0) ∧
      ∃ (sc : Nat → Nat) (g : Nat → BitVec 32) (r : Nat → Machine.Num),
        let res (k : Nat) : Rounded := roundTo tg.toNat s.me.rmode s.me.satMode (g k) (r k)
        let live : List Nat := (List.range m).filter (fun k => sc (k / 32) != 0xFF)
        let count (p : Rounded → Bool) (old : Nat) : Nat := Nat.min (old + (live.filter (fun k => p (res k))).length) 0xFFFF
        (∀ j, j < m / 32 → ScaleOf tg ((List.range 32).map (fun k => a.value (32 * j + k))) (sc j) ∧
          (vb ≠ 24 → y.code (n / 32 - m / 32 + j) = sc j) ∧ (sc j = 0xFF → wbit t.me.flags 0 = true)) ∧
        (∀ k, k < m → IsScaled (254 - sc (k / 32)) (a.value k) (r k) ∧
          lt.code (n - m + k) = if sc (k / 32) = 0xFF then 0 else (res k).bits % 2 ^ tagWidth tg) ∧
        (vb ≠ 24 → (y.word 31).toNat = count (fun x => x.sat) (if b.tag = 12 then (b.word 31).toNat % 65536 else 0) +
          count (fun x => x.flushed) (if b.tag = 12 then (b.word 31).toNat / 65536 else 0) * 65536))

/-- VLD, VLDS and VGTH: every unmasked lane receives the four bytes at its address, of a buffer or, for one lane, of the global space; the
other lanes and the tag stay, or become 0 and N32 for a VOID register; `lt` receives the register (R17, R20, R165 to R170). VGTH may stop
with PIDX at a lane: those below it are merged, and `lt` is not written yet (R171).
Of the model's choice in it: log entries 23, 59, 60 (notes/assumptions). -/
def Obligations.VectorLoads : Prop :=
  ∀ i (s : State) m, laneOpOf i s.me = some (true, m) → s.goesOn → s.me.load = none → m.ready s.me →
    let old := s.me.vr m.vt.toNat
    let keeps (t : State) : Prop :=
      let y := t.me.vr m.vt.toNat
      y.tag = (if old.tag = 0 then 2 else old.tag) ∧ t.me.vr 24 = y ∧ t.me.vs = true ∧ t.me.pidx = m.pidx s.me ∧
      ∀ j, j < 32 → ¬m.on s.me j → y.word j = if old.tag = 0 then 0 else old.word j
    let whole := m.long = true → s.cut = none ∧ s.me.stepping = false
    (∀ n, m.long = true → s.cut = some n → s.me.stepping = false → m.sp ≠ 0 → s.me.pidx.toNat + n < 32 →
      (∀ j, m.on s.me j → j < s.me.pidx.toNat + n → ∃ h o, s.checkBuffer (homeOf s.cur) m.sp.toNat (m.addr j) 4 = .ok (h, o) ∧ s.bufHeld h = false ∧
        s.markedIn h m.sp.toNat o 4 = none) →
      Completes i s (fun t => let y := t.me.vr m.vt.toNat
        Unchanged [] s t ∧ Keeps { v := [m.vt.toNat], status := [5], pidx := true } s.me t.me ∧ t.me.phase = .ready ∧ t.me.pc = s.me.unitStart ∧
        t.me.pidx.toNat = s.me.pidx.toNat + n ∧ y.tag = (if old.tag = 0 then 2 else old.tag) ∧
        (∀ j, j < 32 → ¬(m.on s.me j ∧ j < s.me.pidx.toNat + n) → y.word j = if old.tag = 0 then 0 else old.word j) ∧
        ∀ j h o, m.on s.me j → j < s.me.pidx.toNat + n → s.checkBuffer (homeOf s.cur) m.sp.toNat (m.addr j) 4 = .ok (h, o) →
          y.word j = BitVec.ofNat 32 (s.bufRead h m.sp.toNat o 4))) ∧
    (m.sp ≠ 0 → whole →
      (∀ j, m.on s.me j → ∃ h o, s.checkBuffer (homeOf s.cur) m.sp.toNat (m.addr j) 4 = .ok (h, o) ∧ s.bufHeld h = false ∧
        s.markedIn h m.sp.toNat o 4 = none) →
      Retires i s [] { v := [m.vt.toNat, 24], status := [5], pidx := true } (fun t => keeps t ∧
        ∀ j h o, m.on s.me j → s.checkBuffer (homeOf s.cur) m.sp.toNat (m.addr j) 4 = .ok (h, o) →
          (t.me.vr m.vt.toNat).word j = BitVec.ofNat 32 (s.bufRead h m.sp.toNat o 4))) ∧
    (∀ j w x, m.sp = 0 → whole → m.on s.me j → (∀ k, m.on s.me k → k = j) → s.checkMine .load (m.addr j).toNat 4 = .ok (w, x) →
      s.opPending s.me (homeOf s.cur) (fun g => g == (m.addr j).toNat / 32) = false →
      (s.isDeep x.pa = false ∨ inVersion s.me.seg.version (m.addr j).toNat 4 = true) → (x.pvt = false ∨ fget none s.dirty (x.pa / 32) = none) →
      Retires i s accessScope { v := [m.vt.toNat, 24], status := [5], pidx := true, seg := true } (fun t => keeps t ∧ LeafOnly x s t ∧
        t.me.seg.version = s.me.seg.version ∧
        ∀ b, b < 4 → ((t.me.vr m.vt.toNat).word j >>> (8 * b)).setWidth 8 =
          (fget none s.me.seg.version ((m.addr j).toNat + b)).getD (w.byte (x.pa + b)))) ∧
    (∀ j c, m.sp = 0 → m.long = false → m.on s.me j → (∀ k, m.on s.me k → k = j) → s.opPending s.me (homeOf s.cur) (fun _ => true) = false →
      s.checkMine .load (m.addr j).toNat 4 = .error c → exec i s = .next (s.trapMe c (m.addr j)))

/-- VST, VSTS and VSCT: every unmasked lane's four bytes go to its address, in a buffer or, for one lane, into the segment's version; where
lanes overlap the highest remains; a buffer store sets STATUS.TBW; no other byte changes (R92, R165 to R170). VSCT may stop with PIDX at a
lane, those below it stored (R171).
Of the model's choice in it: log entries 59, 60 (notes/assumptions). -/
def Obligations.VectorStores : Prop :=
  ∀ i (s : State) m, laneOpOf i s.me = some (false, m) → s.goesOn → m.ready s.me →
    let x := s.me.vr m.vt.toNat
    (x.tag = 0 → (∀ y, m.index = some y → y.tag ≠ 0) → exec i s = .next (s.trapMe 0x08 (evalWord i))) ∧
    let whole := m.long = true → s.cut = none ∧ s.me.stepping = false
    (∀ n, m.long = true → s.cut = some n → s.me.stepping = false → m.sp ≠ 0 → x.tag ≠ 0 → s.me.pidx.toNat + n < 32 →
      (∀ j, m.on s.me j → j < s.me.pidx.toNat + n → ∃ h o, s.checkBuffer (homeOf s.cur) m.sp.toNat (m.addr j) 4 = .ok (h, o) ∧ s.bufHeld h = false) →
      Completes i s (fun t => Unchanged [.tiles] s t ∧ Keeps { status := [6], pidx := true } s.me t.me ∧ t.me.phase = .ready ∧
        t.me.pc = s.me.unitStart ∧ t.me.pidx.toNat = s.me.pidx.toNat + n ∧
        ((∃ j, m.on s.me j ∧ j < s.me.pidx.toNat + n) → t.me.tbw = true) ∧
        (∀ j h o, m.on s.me j → j < s.me.pidx.toNat + n → s.checkBuffer (homeOf s.cur) m.sp.toNat (m.addr j) 4 = .ok (h, o) →
          (∀ k h' o', j < k → k < s.me.pidx.toNat + n → m.on s.me k → s.checkBuffer (homeOf s.cur) m.sp.toNat (m.addr k) 4 = .ok (h', o') →
            h' ≠ h ∨ o' ≠ o) → t.bufRead h m.sp.toNat o 4 = (x.word j).toNat) ∧
        ∀ h a, (∀ j h' o, m.on s.me j → j < s.me.pidx.toNat + n → s.checkBuffer (homeOf s.cur) m.sp.toNat (m.addr j) 4 = .ok (h', o) →
          h' ≠ h ∨ a < o ∨ o + 4 ≤ a) → fget 0 ((t.tile h).buf m.sp.toNat) a = fget 0 ((s.tile h).buf m.sp.toNat) a)) ∧
    (m.sp ≠ 0 → whole → x.tag ≠ 0 →
      (∀ j, m.on s.me j → ∃ h o, s.checkBuffer (homeOf s.cur) m.sp.toNat (m.addr j) 4 = .ok (h, o) ∧ s.bufHeld h = false) →
      Retires i s [.tiles] { status := [6], pidx := true } (fun t => t.me.pidx = m.pidx s.me ∧
        ((∃ j, m.on s.me j) → t.me.tbw = true) ∧
        (∀ j h o, m.on s.me j → s.checkBuffer (homeOf s.cur) m.sp.toNat (m.addr j) 4 = .ok (h, o) →
          (∀ k h' o', j < k → m.on s.me k → s.checkBuffer (homeOf s.cur) m.sp.toNat (m.addr k) 4 = .ok (h', o') → h' ≠ h ∨ o' ≠ o) →
          t.bufRead h m.sp.toNat o 4 = (x.word j).toNat) ∧
        (∀ h a, (∀ j h' o, m.on s.me j → s.checkBuffer (homeOf s.cur) m.sp.toNat (m.addr j) 4 = .ok (h', o) → h' ≠ h ∨ a < o ∨ o + 4 ≤ a) →
          fget 0 ((t.tile h).buf m.sp.toNat) a = fget 0 ((s.tile h).buf m.sp.toNat) a))) ∧
    (∀ j w e, m.sp = 0 → whole → x.tag ≠ 0 → m.on s.me j → (∀ k, m.on s.me k → k = j) →
      s.checkMine .store (m.addr j).toNat 4 = .ok (w, e) →
      Retires i s accessScope { pidx := true, seg := true } (fun t => t.me.pidx = m.pidx s.me ∧ LeafOnly e s t ∧
        (∀ b, b < 4 → fget none t.me.seg.version ((m.addr j).toNat + b) = some ((x.word j >>> (8 * b)).setWidth 8)) ∧
        (∀ a, a < (m.addr j).toNat ∨ (m.addr j).toNat + 4 ≤ a → fget none t.me.seg.version a = fget none s.me.seg.version a)))

/-! Gangs, rings and accumulators (chapter 7). -/

/-- A gang instruction outside a gang raises cause 0x62; a member that issues one arrives: its bit of GMASK is set in every member, and it
waits with its instruction, its hints and its operand (R173, R174). The barrier breaks when a member that has not arrived takes a trap:
every waiting member takes cause 0x60 at its gang instruction, with the breaking member's cause and number in EVAL, and GMASK becomes 0
(R176).
Of the model's choice in it: log entries 24 (notes/assumptions). -/
def Obligations.GangArrival : Prop :=
  (∀ i (s : State) r, gangOperand i = some r → s.goesOn →
    (s.me.gang = false → exec i s = .next (s.trapMe 0x62 0)) ∧
    (s.me.gang = true → s.me.phase ≠ .free →
      Completes i s (fun t => Unchanged [.otherSlots] s t ∧ Keeps { gmask := true } s.me t.me ∧ t.me.phase = .waiting .gang ∧
        t.me.arrived = some (i, s.me.hints, s.me.gr r) ∧ t.me.performing = false ∧ t.me.pc = s.me.unitStart ∧
        (∀ k, k ∈ s.gangKeys s.cur → (t.slot k).gmask = (s.slot k).gmask ||| (1#16 <<< (homeOf s.cur % 16))) ∧
        (∀ k, k ≠ s.cur → t.slot k = { s.slot k with gmask := (t.slot k).gmask }) ∧
        (∀ k, k ≠ s.cur → k ∉ s.gangKeys s.cur → t.slot k = s.slot k)))) ∧
  (∀ (s : State) key c e v, let l := s.slot key
    l.gang = true → l.arrived = none → l.doomed = false → CanTrap l e →
    (∀ j ∈ s.gangKeys key, (s.slot j).arrived.isSome = true → (s.slot j).doomed = false ∧ CanTrap (s.slot j) (s.slot j).pc) →
    let t := s.trap key c e v
    TrapTaken l (t.slot key) c e v ∧
    ∀ j ∈ s.gangKeys key, j ≠ key → (t.slot j).gmask = 0 ∧
      ((s.slot j).arrived.isSome = true →
        TrapTaken (s.slot j) (t.slot j) 0x60 (s.slot j).pc (BitVec.ofNat 64 (c.toNat * 256 + homeOf key % 16))) ∧
      ((s.slot j).arrived = none → t.slot j = { s.slot j with gmask := 0 }))

/-- A complete barrier: members that differ in instruction, hints or PIDX give cause 0x62, in a uniform operand bit 0x68, a retired OMU
0x66, and else the checks of the instruction's description are made in their order, each over every member (R175, R180, R193, R195, R197,
R202, R203, R213, R221, R348); what they find is taken by every member, with the lowest one found in EVAL. PHSW exchanges the banks, which
settle, and without SETTLE completes at once (R192, R194); a pass begins with CWM at its first row (R204). A member's GTO that runs out
while a member is still to arrive gives every waiting member cause 0x61 with GMASK (R177).
Of the model's choice in it: log entries 26, 27, 38, 80 (notes/assumptions). -/
def Obligations.GangBarriers : Prop :=
  (∀ (s : State) ls keys k0 i, keys.head? = some k0 → (∀ k ∈ keys, k / 8 / 16 = ls) →
    (∀ k ∈ keys, ∃ j hs v, (s.slot k).arrived = some (j, hs, v) ∧ (hs.map (fun h => h.1)).Nodup) →
    let alike (k : Nat) : Prop := s.arrivedAlike k0 k
    let uniform (k : Nat) : Prop := uniformBits i (s.arrival k).2 = uniformBits i (s.arrival k0).2
    (∀ pre k post, keys = pre ++ k :: post → (∀ j ∈ pre, alike j) → ¬alike k → s.gangFinding ls keys i = some (0x62, memberValue k 0)) ∧
    (∀ pre k post, keys = pre ++ k :: post → (∀ j ∈ keys, alike j) → (∀ j ∈ pre, uniform j) → ¬uniform k →
      s.gangFinding ls keys i = some (0x68, memberValue k (s.arrival k).2)) ∧
    ((∀ j ∈ keys, alike j ∧ uniform j) →
      ((s.pstall (s.physStall ls)).omuRetired = true → s.gangFinding ls keys i = some (0x66, 0)) ∧
      ((s.pstall (s.physStall ls)).omuRetired = false → s.gangFinding ls keys i = firstFound keys (gangChecksOf s ls i)))) ∧
  (∀ (s : State) (stall : BitVec 7) task keys i c v, Gathered s stall.toNat task keys i → s.inPass keys = false →
    s.gangFinding stall.toNat keys i = some (c, v) →
    Completes (.gangBarrierComplete stall task) s (fun t => t.mem = s.mem ∧ t.tiles = s.tiles ∧ t.lstalls = s.lstalls ∧
      (∀ k, k ∉ keys → t.slot k = s.slot k) ∧
      ∀ k ∈ keys, TrapTaken (s.slot k) (t.slot k) c (s.slot k).pc v ∧ (t.slot k).gmask = 0)) ∧
  (∀ (s : State) (stall : BitVec 7) task keys settle hs p, let ls := stall.toNat
    Gathered s ls task keys (.phsw settle) → s.inPass keys = false → (s.pstall (s.physStall ls)).omuRetired = false →
    (∀ k ∈ keys, (∃ v, (s.slot k).arrived = some (.phsw settle, hs, v)) ∧ (s.slot k).pidx = p) →
    Acts (.gangBarrierComplete stall task) s [.lstalls, .pstalls] keys (fun t =>
      (t.lstall ls).active = (s.lstall ls).shadow ∧ (t.lstall ls).shadow = (s.lstall ls).active ∧
      (t.pstall (s.physStall ls)).settling = true ∧ (t.pstall (s.physStall ls)).omustat = (s.pstall (s.physStall ls)).omustat ∧
      (settle = 0 → ∀ k ∈ keys, Finished (s.slot k) (t.slot k)) ∧
      (settle = 1 → ∀ k ∈ keys, (t.slot k).performing = true ∧ (t.slot k).phase = .waiting .gang))) ∧
  (∀ (s : State) (stall : BitVec 7) task keys qa qc n rs chain, let ls := stall.toNat
    Gathered s ls task keys (.mxp qa qc n rs chain) → s.inPass keys = false → s.gangFinding ls keys (.mxp qa qc n rs chain) = none →
    (∀ k ∈ keys, (s.slot k).pidx = 0) → 0 < bits (s.lead keys).2.toNat 11 0 → 0 < bits (s.lead keys).2.toNat 18 12 →
    Acts (.gangBarrierComplete stall task) s [] keys (fun t =>
      ∀ k ∈ keys, (t.slot k).performing = true ∧ (t.slot k).arrived = (s.slot k).arrived ∧ (t.slot k).q = (s.slot k).q ∧
        ∀ i hs v, (s.slot k).arrived = some (i, hs, v) → (t.slot k).cwm.toNat = bits v.toNat 30 19)) ∧
  (∀ (s : State) (stall : BitVec 7) task m, let keys := s.members stall.toNat task
    let waits (k : Nat) : Prop := k ∈ keys ∧ (s.slot k).arrived.isSome = true ∧ (s.slot k).phase = .waiting .gang
    s.midSwap stall.toNat = false → m ≠ 0xFFFF →
    (∀ k, waits k → (s.slot k).doomed = false ∧ CanTrap (s.slot k) (s.slot k).pc ∧ (s.slot k).gmask = m) →
    (∃ k, waits k ∧ (s.slot k).performing = false ∧ (s.slot k).gto ≠ 0 ∧ (s.slot k).gto.toNat ≤ (s.slot k).gangFor) →
    Acts (.gangTimeout stall task) s [] keys (fun t => (∀ k ∈ keys, (t.slot k).gmask = 0) ∧
      (∀ k, waits k → TrapTaken (s.slot k) (t.slot k) 0x61 (s.slot k).pc (m.setWidth 64)) ∧
      (∀ k ∈ keys, ¬waits k → t.slot k = { s.slot k with gmask := 0 })))

/-- The work of the mesh: under CHAIN a K-block begins with the load of its image, which is swapped in; one activation slot of a pass adds the
readings of its 64 rows to the accumulators of every member, drains its ring, moves PIDX on, and the last completes MXP (R131, R133, R203). A
row's readings lie in −128 to 127, and its contributions are invalid under a NaN scale or a NaN element (R130, R131). DEC writes the shadow bank
with TOBANK, and else stripes its image to each member's output (R197); PHLD reads the image's units from PIDX, may stop behind any of them, and
loads the shadow bank behind the last (R193); PHRD copies units of a bank to its ring's slot, and PHWR units of a slot into a bank that stays
valid, or finds cause 0x65 (R195); an image's unit u lies in member u mod 16, at 64 × Floor(u / 16) (R190). PROBE writes what it measured and
completes at every member (R213).
Of the model's choice in it: log entries 6, 25, 27, 60, 78 (notes/assumptions). -/
def Obligations.GangWork : Prop :=
  (∀ (s : State) p r, let out := s.rowReadings p r
    let xa := s.bufRead (p.ls * 16) 1 (p.offs.getD 0 0 + actBytes p.fmt + r) 1
    let xw := rdN p.image 2 1
    let nan := ∃ x ∈ s.rowInputs p r, x.isNan = true
    out.1.length = 64 ∧ (∀ d ∈ out.1, -128 ≤ d ∧ d ≤ 127) ∧ (xa = 0xFF ∨ xw = 0xFF ∨ nan → out.2 = none) ∧
    (xa ≠ 0xFF → xw ≠ 0xFF → ¬nan → out.2 = some (((passMant (rdN p.image 4 4)).2 - 7) + ((xa : Int) - 127) + ((xw : Int) - 127) +
      (match p.fmt with | 0 => 9 | 1 => 7 | _ => 3) + (p.gain : Int) - 7))) ∧
  (∀ (s : State) ls off first n im, let x := s.readUnits ls off first n im
    (∀ u i, first ≤ u → u < first + n → i < 64 →
      fget 0 x (64 * u + i) = fget 0 ((s.tile (ls * 16 + u % 16)).buf 2) (off (u % 16) + 64 * (u / 16) + i)) ∧
    ∀ a, a < 64 * first ∨ 64 * (first + n) ≤ a → fget 0 x a = fget 0 im a) ∧
  (∀ (s : State) ls task q prod, let keys := s.members ls task
    keys.length = 16 → ∀ k ∈ keys, let r := (s.slot k).ring q
      s.slotOffset keys q prod (k / 8 % 16) = (r.base + (if prod then r.prod else r.cons) * r.slotsz) * 64) ∧
  (∀ (s : State) (stall : BitVec 7) task keys qc rs, let ls := stall.toNat
    let v := (s.lead keys).2.toNat
    let bank := if bit v 32 then (s.lstall ls).shadow else (s.lstall ls).active
    let im : Image := if bank.valid then bank.bytes else []
    Gathered s ls task keys (.phrd qc rs) → s.inPass keys = true → (∀ k ∈ keys, 1 ≤ ((s.slot k).ring qc).free) →
    bits v 8 0 + bits v 17 9 ≤ 257 →
    Acts (.gangBarrierComplete stall task) s [.tiles] keys (fun t => ∀ k ∈ keys,
      let r := (s.slot k).ring qc
      let at' (u : Nat) : Nat := (r.base + r.prod * r.slotsz) * 64 + 64 * (u / 16)
      let mine (u : Nat) : Prop := u % 16 = k / 8 % 16 ∧ bits v 8 0 ≤ u ∧ u < bits v 8 0 + bits v 17 9
      (∀ u i, mine u → i < 64 → fget 0 (t.tile (k / 8)).wb (at' u + i) = fget 0 im (64 * u + i)) ∧
      (∀ a, (∀ u, mine u → a < at' u ∨ at' u + 64 ≤ a) → fget 0 (t.tile (k / 8)).wb a = fget 0 (s.tile (k / 8)).wb a) ∧
      (t.tile (k / 8)).ab = (s.tile (k / 8)).ab ∧ (t.slot k).qr qc.toNat = (r.advProd 1).toBits ∧ (t.slot k).tbw = true ∧
      Finished (s.slot k) (t.slot k))) ∧
  (∀ (s : State) (stall : BitVec 7) task keys qa n rs, let ls := stall.toNat
    let v := (s.lead keys).2.toNat
    let l := s.lstall ls
    let bank := if bit v 32 then l.shadow else l.active
    let x := s.readUnits ls (s.slotOffset keys qa false) (bits v 8 0) (bits v 17 9) (if bank.valid then bank.bytes else [])
    let im := wrN x 8 4 (imageSum x)
    Gathered s ls task keys (.phwr qa n rs) → s.inPass keys = true →
    (∀ k ∈ keys, Nat.max 1 ((s.lead keys).1.count n) ≤ ((s.slot k).ring qa).filled) → (∀ h, h / 16 = ls → (s.tile h).marked = []) →
    (imageFault im = none → Acts (.gangBarrierComplete stall task) s [.lstalls, .pstalls] keys (fun t =>
      (bit v 32 = true → (t.lstall ls).shadow = { valid := true, bytes := im } ∧ (t.lstall ls).active = l.active ∧
        ∀ p, t.pstall p = s.pstall p) ∧
      (bit v 32 = false → (t.lstall ls).active = { valid := true, bytes := im } ∧ (t.lstall ls).shadow = l.shadow ∧
        (t.pstall (s.physStall ls)).settling = true) ∧
      ∀ k ∈ keys, (t.slot k).qr qa.toNat = (((s.slot k).ring qa).advCons 1).toBits ∧ Finished (s.slot k) (t.slot k))) ∧
    (∀ o, imageFault im = some o → Acts (.gangBarrierComplete stall task) s [] keys (fun t => ∀ k ∈ keys,
      TrapTaken (s.slot k) (t.slot k) 0x65 (s.slot k).pc (BitVec.ofNat 64 o)))) ∧
  (∀ (s : State) (stall : BitVec 7) task keys qa n rs wf im, let ls := stall.toNat
    Gathered s ls task keys (.dec qa n rs 0 wf) → s.inPass keys = true → (s.lead keys).1.count n ≤ 1 → (s.lead keys).1.pidx = 0 → s.held = [] →
    (∀ k ∈ keys, 1 ≤ ((s.slot k).ring qa).filled ∧ bits (s.arrival k).2.toNat 63 56 = 0) → (∀ h, h / 16 = ls → (s.tile h).marked = []) →
    (s.weightBlock ls (s.slotOffset keys qa false) wf.toNat).bind decompose = some im →
    Acts (.decBlockComplete stall task) s [.tiles] keys (fun t => ∀ k ∈ keys,
      let at' (u : Nat) : Nat := bits (s.arrival k).2.toNat 17 0 + 64 * (u / 16)
      let mine (u : Nat) : Prop := u % 16 = k / 8 % 16 ∧ u < 257
      (∀ u i, mine u → i < 64 → fget 0 (t.tile (k / 8)).wb (at' u + i) = fget 0 im (64 * u + i)) ∧
      (∀ a, (∀ u, mine u → a < at' u ∨ at' u + 64 ≤ a) → fget 0 (t.tile (k / 8)).wb a = fget 0 (s.tile (k / 8)).wb a) ∧
      (t.tile (k / 8)).ab = (s.tile (k / 8)).ab ∧ (t.slot k).qr qa.toNat = (((s.slot k).ring qa).advCons 1).toBits ∧
      (t.slot k).pidx = 0 ∧ (t.slot k).tbw = true ∧ Finished (s.slot k) (t.slot k))) ∧
  (∀ (s : State) (stall : BitVec 7) task keys qa qc n rs chain, let ls := stall.toNat
    let v := (s.lead keys).2.toNat
    let i := (s.lead keys).1.pidx.toNat
    let last := bits v 11 0 * bits v 18 12
    Gathered s ls task keys (.mxp qa qc n rs chain) → s.inPass keys = true → s.meshFree ls = true → i < last → last < 2 ^ 32 →
    (∀ k ∈ keys, Nat.min (Nat.max 1 ((s.lead keys).1.count n)) (last - i) ≤ ((s.slot k).ring qa).filled) →
    chain = 0 ∨ i % bits v 18 12 ≠ 0 ∨ (s.lead keys).1.chained = some ((s.lead keys).1.pc, i) → (∀ h, h / 16 = ls → (s.tile h).marked = []) →
    let p : PassSlot := { ls := ls, fmt := bits v 33 32, gain := bits v 35 34, offs := (List.range 16).map (s.slotOffset keys qa false),
                          image := (s.lstall ls).active.bytes, ebc := bits (s.pstall (s.physStall ls)).omustat.toNat 19 16 }
    let out (k : Nat) := contributeAll ((List.range 64).map (s.rowReadings p)) (k / 8 % 16)
      (bits (s.arrival k).2.toNat 30 19 + 64 * (i % bits v 18 12)) (passMant (rdN p.image 4 4)).1 p.ebc (s.arrival k).1.rmode
      (s.tile (k / 8), 0, (s.slot k).rngs)
    Acts (.mxpSlotComplete stall task) s [.tiles] keys (fun t => (∀ h, h / 16 ≠ ls → t.tile h = s.tile h) ∧
      (∀ k ∈ keys, t.tile (k / 8) = (out k).1 ∧ (t.slot k).rngs = (out k).2.2 ∧
        ∀ b, (out k).2.1.getLsbD b = true → wbit (t.slot k).flags b = true) ∧
      ∀ k ∈ keys, (t.slot k).qr qa.toNat = (((s.slot k).ring qa).advCons 1).toBits ∧
        (i + 1 < last → (t.slot k).pidx.toNat = i + 1 ∧ (t.slot k).performing = true ∧ (t.slot k).arrived = (s.slot k).arrived) ∧
        (i + 1 = last → (t.slot k).pidx = 0 ∧ (t.slot k).tbw = true ∧ Finished (s.slot k) (t.slot k)) ∧
        (∀ j hs w, (s.slot k).arrived = some (j, hs, w) → (t.slot k).cwm = if i / bits v 18 12 + 1 = bits v 11 0 then
          BitVec.ofNat 16 (bits w.toNat 30 19 + 64 * (i % bits v 18 12 + 1)) else (s.slot k).cwm))) ∧
  (∀ (s : State) (stall : BitVec 7) task keys qa qc n rs im, let ls := stall.toNat
    let v := (s.lead keys).2.toNat
    let i := (s.lead keys).1.pidx.toNat
    Gathered s ls task keys (.mxp qa qc n rs 1) → s.inPass keys = true → s.meshFree ls = true → i < bits v 11 0 * bits v 18 12 →
    i % bits v 18 12 = 0 → (s.lead keys).1.chained ≠ some ((s.lead keys).1.pc, i) → (∀ k ∈ keys, 1 ≤ ((s.slot k).ring qc).filled) →
    s.ringImage ls keys qc = .ok im →
    Acts (.mxpSlotComplete stall task) s [.lstalls, .pstalls] keys (fun t =>
      (t.lstall ls).active = { valid := true, bytes := im } ∧ (t.lstall ls).shadow = (s.lstall ls).active ∧
      (t.pstall (s.physStall ls)).settling = true ∧
      ∀ k ∈ keys, (t.slot k).qr qc.toNat = (((s.slot k).ring qc).advCons 1).toBits ∧ (t.slot k).pidx = (s.slot k).pidx ∧
        (t.slot k).chained = some ((s.slot k).pc, i) ∧ (t.slot k).performing = true ∧ (t.slot k).arrived = (s.slot k).arrived)) ∧
  (∀ (s : State) (stall : BitVec 7) task keys qa n rs wf im, let ls := stall.toNat
    Gathered s ls task keys (.dec qa n rs 1 wf) → s.inPass keys = true → (s.lead keys).1.count n ≤ 1 → (s.lead keys).1.pidx = 0 →
    (∀ k ∈ keys, 1 ≤ ((s.slot k).ring qa).filled) → (∀ h, h / 16 = ls → (s.tile h).marked = []) →
    (s.weightBlock ls (s.slotOffset keys qa false) wf.toNat).bind decompose = some im →
    Acts (.decBlockComplete stall task) s [.lstalls] keys (fun t => (t.lstall ls).shadow = { valid := true, bytes := im } ∧
      (t.lstall ls).active = (s.lstall ls).active ∧
      ∀ k ∈ keys, (t.slot k).qr qa.toNat = (((s.slot k).ring qa).advCons 1).toBits ∧ (t.slot k).pidx = 0 ∧ Finished (s.slot k) (t.slot k))) ∧
  (∀ (s : State) (stall : BitVec 7) task keys qa n swap, let ls := stall.toNat
    let l := (s.lead keys).1
    let p := l.pidx.toNat
    Gathered s ls task keys (.phld qa n swap) → s.inPass keys = true → p < 257 →
    (∀ k ∈ keys, Nat.max 1 (l.count n) ≤ ((s.slot k).ring qa).filled) → (∀ h, h / 16 = ls → (s.tile h).marked = []) →
    (∀ m, s.cut = some m → p + m < 257 → Acts (.gangBarrierComplete stall task) s [] keys (fun t => ∀ k ∈ keys,
      (t.slot k).pidx.toNat = p + m ∧ (t.slot k).performing = true ∧ (t.slot k).arrived = (s.slot k).arrived ∧ (t.slot k).q = (s.slot k).q)) ∧
    (s.cut = none → let im := s.readUnits ls (s.slotOffset keys qa false) p (257 - p) (s.stagedImage l)
      imageFault im = none → Acts (.gangBarrierComplete stall task) s [.lstalls, .pstalls] keys (fun t =>
        (swap = 0 → (t.lstall ls).shadow = { valid := true, bytes := im } ∧ (t.lstall ls).active = (s.lstall ls).active ∧
          ∀ x, t.pstall x = s.pstall x) ∧
        (swap = 1 → (t.lstall ls).active = { valid := true, bytes := im } ∧ (t.lstall ls).shadow = (s.lstall ls).active ∧
          (t.pstall (s.physStall ls)).settling = true) ∧
        ∀ k ∈ keys, (t.slot k).qr qa.toNat = (((s.slot k).ring qa).advCons 1).toBits ∧ (t.slot k).pidx = 0 ∧ Finished (s.slot k) (t.slot k)))) ∧
  (∀ (s : State) (stall : BitVec 7) task keys full rho, let ls := stall.toNat
    let ps := s.physStall ls
    Gathered s ls task keys (.probe full) → s.inPass keys = true → s.meshFree ls = true →
    ∃ t, exec (.probeComplete stall task rho) s = .next t ∧
      Measured rho (s.pstall ps).omustat (t.pstall ps).omustat ∧ wbit (t.pstall ps).omustat 20 = wbit (s.pstall ps).omustat 20 ∧
      (∀ x, x ≠ ps → t.pstall x = s.pstall x) ∧ (∀ k ∈ keys, Finished (s.slot k) (t.slot k)) ∧ (∀ k, k ∉ keys → t.slot k = s.slot k) ∧
      ∀ c, c ≠ Component.pstalls → c ≠ Component.otherSlots → c.Same s t)

/-- The optical matrix unit: the end of a settle, with the PHSW that waits for it (R194, R356); a pilot that is due is put off by a settle, skipped
without light, and else writes what it measured when the active bank is valid (R357); recovery probes write what they measured (R360); lost lines
clear LIGHT and stop a pass with cause 0x67, the activation slot that streams completed first (R360, R361); the standby source takes over, and a
restored one once both were lost (R360).
Of the model's choice in it: log entries 25, 32 (notes/assumptions). -/
def Obligations.OpticalUnit : Prop :=
  (∀ (s : State) (ps : BitVec 7), (s.pstall ps.toNat).settling = true →
    Acts (.omuSettleEnd ps) s [.pstalls] (slotsOfStall (s.logStall ps.toNat)) (fun t =>
      t.pstall ps.toNat = { s.pstall ps.toNat with settling := false } ∧ (∀ k, k ≠ ps.toNat → t.pstall k = s.pstall k) ∧
      ∀ task keys settle, Gathered s (s.logStall ps.toNat) task keys (.phsw settle) → s.inPass keys = true →
        ∀ k ∈ keys, Finished (s.slot k) (t.slot k))) ∧
  (∀ (s : State) (ps : BitVec 7) rho, let p := s.pstall ps.toNat
    let light := wbit p.omustat 20 = true
    let valid := (s.lstall (s.logStall ps.toNat)).active.valid = true
    (s.now < pilotAfter ps.toNat p.pilotFrom ∨ (light ∧ p.settling = true) → exec (.pilot ps rho) s = .next s) ∧
    (pilotAfter ps.toNat p.pilotFrom ≤ s.now → ¬(light ∧ p.settling = true) → Acts (.pilot ps rho) s [.pstalls] [] (fun t =>
      (∀ k, k ≠ ps.toNat → t.pstall k = s.pstall k) ∧ (t.pstall ps.toNat).pilotFrom = s.now + 1 ∧
      (¬(light ∧ valid) → t.pstall ps.toNat = { p with pilotFrom := s.now + 1 }) ∧
      (light → valid → Measured rho p.omustat (t.pstall ps.toNat).omustat ∧ wbit (t.pstall ps.toNat).omustat 20 = true))) ∧
    (¬light → p.settling = false → s.dev.sourceLost s.dev.source = false → s.testing .omu ps.toNat = false →
      Acts (.lightRecovery ps rho) s [.pstalls] [] (fun t => Measured rho (s.pstall ps.toNat).omustat (t.pstall ps.toNat).omustat ∧
        wbit (t.pstall ps.toNat).omustat 20 = true ∧ ∀ k, k ≠ ps.toNat → t.pstall k = s.pstall k))) ∧
  (∀ (s : State) (stalls : BitVec 128), (∀ k, stalls.getLsbD k = true → s.gangTasks (s.logStall k) = []) →
    Acts (.lineLoss stalls false) s [.pstalls] [] (fun t => ∀ k,
      (stalls.getLsbD k = false → t.pstall k = s.pstall k) ∧
      (stalls.getLsbD k = true → t.pstall k = { s.pstall k with omustat := (t.pstall k).omustat } ∧ wbit (t.pstall k).omustat 20 = false ∧
        ∀ i, i ≠ 20 → wbit (t.pstall k).omustat i = wbit (s.pstall k).omustat i))) ∧
  (∀ (s : State) (ps : BitVec 7) task keys qa qc n rs chain, s.gangTasks (s.logStall ps.toNat) = [task] →
    let ls := s.logStall ps.toNat
    let i := (s.lead keys).1.pidx.toNat
    let from' := (s.lead keys).1.passFrom.toNat
    Gathered s ls task keys (.mxp qa qc n rs chain) → s.inPass keys = true →
    (s.streams ls keys qa n chain = false → Acts (.lineLoss (1#128 <<< ps.toNat) false) s [.pstalls] keys (fun t => ∃ v : Word, v.toNat ≤ i ∧
      (from' < i → from' ≤ v.toNat ∧ v.toNat < i) ∧ ∀ k ∈ keys, TrapTaken (s.slot k) (t.slot k) 0x67 (s.slot k).pc v)) ∧
    (s.streams ls keys qa n chain = true → (∀ h, h / 16 = ls → (s.tile h).marked = []) → i + 1 < 2 ^ 32 → from' ≤ i →
      Acts (.lineLoss (1#128 <<< ps.toNat) false) s [.pstalls, .tiles] keys (fun t => ∃ v : Word, from' ≤ v.toNat ∧ v.toNat ≤ i ∧
        ∀ k ∈ keys, (t.slot k).ecause = 0x67 ∧ (t.slot k).eval = v ∧ (t.slot k).epc = (s.slot k).pc ∧ (t.slot k).pc = (s.slot k).tvec ∧
          (t.slot k).pidx.toNat = i + 1 ∧ (t.slot k).qr qa.toNat = (((s.slot k).ring qa).advCons 1).toBits))) ∧
  (∀ s : State, s.dev.sourceLost s.dev.source = false → s.dev.sourceLost (1 - s.dev.source) = false →
    Completes (.lineLoss 0 true) s (fun t => t.dev.source = 1 - s.dev.source ∧ t.dev.sourceLost s.dev.source = true ∧
      ∀ k, k < 128 → wbit (t.pstall k).omustat 21 = decide (t.dev.source = 1))) ∧
  (∀ (s : State) src, (s.dev.lost0 = false ∨ s.dev.lost1 = false) →
    Acts (.sourceRestored src) s [.device] [] (fun t => t.dev.sourceLost src = false ∧ t.dev.source = s.dev.source)) ∧
  (∀ (s : State) src, s.dev.lost0 = true → s.dev.lost1 = true →
    Completes (.sourceRestored src) s (fun t => t.dev.sourceLost src = false ∧ t.dev.source = src ∧
      ∀ k, k < 128 → wbit (t.pstall k).omustat 21 = decide (src = 1)))

/-- The ring instructions (R214 to R219, R221): QCFG writes or invalidates a handle, or raises causes 0x69 and 0x6A; QADV.P, QADV.C and
QWAIT raise cause 0x69, wait, or advance the handle as one update; QSTAT reads it.
Of the model's choice in it: log entries 26, 80 (notes/assumptions). -/
def Obligations.RingInstructions : Prop :=
  (∀ (s : State) qa rs, s.goesOn → let v := (s.me.gr rs).toNat
    (s.ringInUse qa = true → exec (.qcfg qa rs) s = .next (s.trapMe 0x69 (BitVec.ofNat 64 (0x500 + qa.toNat)))) ∧
    (s.ringInUse qa = false → v = 0 → Retires (.qcfg qa rs) s [] { rings := [qa.toNat] } (fun t => (t.me.ring qa).v = false)) ∧
    (s.ringInUse qa = false → v ≠ 0 → ¬RingConfigOk v → exec (.qcfg qa rs) s = .next (s.trapMe 0x6A (s.me.gr rs))) ∧
    (s.ringInUse qa = false → RingConfigOk v → Retires (.qcfg qa rs) s [] { rings := [qa.toNat] } (fun t =>
      t.me.ring qa = { tsel := bits v 63 56, buf := bits v 49 48, base := bits v 47 36, slotsz := bits v 35 24, slots := bits v 23 12,
                       prod := 0, cons := 0, filled := 0, free := bits v 23 12, v := true }))) ∧
  (∀ (s : State) qa n, s.goesOn → let r := s.me.ring qa
    let w := s.me.count n
    (∀ k, ringReason r w = some k → ∀ i, i = .qadvP qa n ∨ i = .qadvC qa n ∨ i = .qwait qa n →
      exec i s = .next (s.trapMe 0x69 (BitVec.ofNat 64 (k * 256 + qa.toNat)))) ∧
    (ringReason r w = none →
      (w ≤ r.free → Retires (.qadvP qa n) s [] { rings := [qa.toNat] } (fun t => t.me.qr qa.toNat =
        ({ r with prod := (r.prod + w) % r.slots, filled := r.filled + w, free := r.free - w } : Ring).toBits)) ∧
      (r.free < w → exec (.qadvP qa n) s = .next (s.waitFor .completion)) ∧
      (w ≤ r.filled → Retires (.qadvC qa n) s [] { rings := [qa.toNat] } (fun t => t.me.qr qa.toNat =
        ({ r with cons := (r.cons + w) % r.slots, filled := r.filled - w, free := r.free + w } : Ring).toBits)) ∧
      (r.filled < w → exec (.qadvC qa n) s = .next (s.waitFor .completion)) ∧
      (w ≤ r.filled → Retires (.qwait qa n) s [] { rings := [qa.toNat] } (fun t => t.me.ring qa = r)) ∧
      (r.filled < w → exec (.qwait qa n) s = .next (s.waitFor .completion)))) ∧
  (∀ (s : State) qa rs, s.goesOn → let r := s.me.ring qa
    Retires (.qstat qa rs) s [] { g := [rs] } (Wrote rs (if r.v then
      BitVec.ofNat 12 r.prod ++ BitVec.ofNat 12 r.cons ++ BitVec.ofNat 12 r.filled ++ BitVec.ofNat 12 r.free ++ 1#16 else 0)))

/-- UNF checks its descriptor and its rings and hands the tile's unit a command (R199, R201); the unit fills one slot of the ring, element
by element from the map, and moves PROD and NEXT on (R200); a stall that is mid-swap holds its accesses (R323). With NEXT at its end and ADV the
unit waits while its source ring holds no filled slot to advance over (R24).
Of the model's choice in it: log entries 26, 71 (notes/assumptions). -/
def Obligations.Unfolding : Prop :=
  (∀ (s : State) (tile : BitVec 11) u k, let home := tile.toNat
    let d := UDesc.ofNat (s.bufRead home 1 u.desc 32)
    (s.tile home).unfold = some u → u.rings = none → s.findSlot u.task home = some k → d.next = d.total → u.adv = true →
    ((s.slot k).ring u.qc).filled = 0 → exec (.unfoldSlot tile) s = .next s) ∧
  (∀ (s : State) qa qc n rs adv, s.goesOn → let a := s.me.gr rs
    let home := homeOf s.cur
    (∀ c, s.checkBuffer home 1 a 32 = .error c → exec (.unf qa qc n rs adv) s = .next (s.trapMe c a)) ∧
    (∀ h o, s.checkBuffer home 1 a 32 = .ok (h, o) → h ≠ home → exec (.unf qa qc n rs adv) s = .next (s.trapMe 0x68 a)) ∧
    (∀ o, s.checkBuffer home 1 a 32 = .ok (home, o) → s.markedIn home 1 o 32 = none →
      (s.me.ring qa).v = true → (s.me.ring qa).buf = 0 → (s.me.ring qc).v = true → (s.me.ring qc).buf = 0 →
      let d := UDesc.ofNat (s.bufRead home 1 o 32)
      (d.bad (s.me.ring qc).slotsz = true → exec (.unf qa qc n rs adv) s = .next (s.trapMe 0x68 a)) ∧
      (d.bad (s.me.ring qc).slotsz = false → (s.me.ring qa).slotsz < (if d.fmt ≤ 1 then 5 else 3) →
        exec (.unf qa qc n rs adv) s = .next (s.trapMe 0x69 (BitVec.ofNat 64 (0x300 + qa.toNat)))) ∧
      (d.bad (s.me.ring qc).slotsz = false → (if d.fmt ≤ 1 then 5 else 3) ≤ (s.me.ring qa).slotsz →
        ((s.tile home).unfold ≠ none → exec (.unf qa qc n rs adv) s = .next (s.waitFor .completion)) ∧
        ((s.tile home).unfold = none → Retires (.unf qa qc n rs adv) s [.tiles] { status := [6] } (fun t =>
          t.me.tbw = true ∧ (∀ h, h ≠ home → t.tile h = s.tile h) ∧
          ∃ u : Unfold, t.tile home = { s.tile home with unfold := some u } ∧ u.slot.toNat = s.cur % 8 ∧ u.task = s.me.taskid ∧
            u.qa = qa ∧ u.qc = qc ∧ u.left = Nat.max 1 (s.me.count n) ∧ u.desc = o ∧ u.adv = decide (adv = 1)))))) ∧
  (∀ (s : State) (tile : BitVec 11) u k, let home := tile.toNat
    let ra := (s.slot k).ring u.qa
    let rc := (s.slot k).ring u.qc
    let d := UDesc.ofNat (s.bufRead home 1 u.desc 32)
    let hc := (tselHome home rc.tsel).getD home
    let ha := (tselHome home ra.tsel).getD home
    let kc := d.kh * d.kw * d.c
    let g := (d.oh * d.ow + 63) / 64
    (s.tile home).unfold = some u → u.rings = none → s.midSwap (stallOf home) = false → s.findSlot u.task home = some k → d.next ≠ d.total →
    1 ≤ rc.filled → 1 ≤ ra.free → s.heldUp (stallOf ha) (u.access home) = false → s.heldUp (stallOf hc) (u.access home) = false →
    s.tileDead ha = false → s.tileDead hc = false → (s.tile hc).marked = [] → d.next + 1 < 2 ^ 32 →
    Acts (.unfoldSlot tile) s [.tiles, .held] [k] (fun t => OthersHeld (u.access home) s t ∧ (t.slot k).qr u.qa.toNat = (ra.advProd 1).toBits ∧
      (t.tile home).unfold = (if u.left ≤ 1 then none else some { u with left := u.left - 1 }) ∧
      t.bufRead home 1 (u.desc + 16) 4 = d.next + 1 ∧
      (ha ≠ home ∨ ra.offset ra.prod + actBytes d.fmt + 64 ≤ u.desc + 16 ∨ u.desc + 20 ≤ ra.offset ra.prod →
        ∀ r j, r < 64 → j < 4 →
          let p := 64 * (d.next % g) + r
          let e := 64 * (d.next / g) + 4 * (home % 16) + j
          let y : Int := (p / d.ow : Nat) * d.sh - d.pt + (e / (d.c * d.kw) : Nat)
          let x : Int := (p % d.ow : Nat) * d.sw - d.pl + (e / d.c % d.kw : Nat)
          t.bufElem ha 1 (ra.offset ra.prod) (if d.fmt ≤ 1 then 8 else 4) (4 * r + j) =
            if p < d.oh * d.ow ∧ e < kc ∧ 0 ≤ y ∧ y < d.h ∧ 0 ≤ x ∧ x < d.w then
              s.bufElem hc 1 (rc.offset rc.cons) (if d.fmt ≤ 1 then 8 else 4) ((y.toNat * d.w + x.toNat) * d.c + e % d.c)
            else 0)))

/-- The accumulator instructions (R208 to R212), and what one reading adds to an entry (R131 to R133, R136): a bad operand raises cause
0x68; ACCCLR clears the rows or their counts; ACCPRO folds each narrow run into its wide value and sets the exponent that RESCALE gives;
ACCRD and ACCEXP fill the ring's next slot, ACCRD with each value rounded once; CNTRD reads a block record. The contributions of an activation
slot each add to one entry, and to no row but theirs.
Of the model's choice in it: log entries 26, 28, 79 (notes/assumptions). -/
def Obligations.Accumulators : Prop :=
  (∀ (s : State) rs, s.goesOn → let v := (s.me.gr rs).toNat
    (∀ c, AccBad v false → exec (.accclr rs c) s = .next (s.trapMe 0x68 (s.me.gr rs))) ∧
    (∀ r, AccBad v (r == 1) → exec (.accpro rs r) s = .next (s.trapMe 0x68 (s.me.gr rs))) ∧
    (∀ i qc clr f, accReadOf i = some (qc, rs, clr, f) → AccBad v false → exec i s = .next (s.trapMe 0x68 (s.me.gr rs))) ∧
    (bits v 63 14 ≠ 0 → exec (.cntrd rs) s = .next (s.trapMe 0x68 (s.me.gr rs))) ∧
    (bits v 63 14 = 0 → Retires (.cntrd rs) s [] { g := [rs] } (Wrote rs (
      let b := (s.tile (homeOf s.cur)).block (bits v 13 12) (bits v 11 0)
      0#16 ++ b.fzcnt ++ b.satcnt ++ b.ebc ++ 0#2 ++ b.e)))) ∧
  (∀ (s : State) rs c, s.goesOn → let v := (s.me.gr rs).toNat
    let old := s.tile (homeOf s.cur)
    ¬AccBad v false → Retires (.accclr rs c) s [.tiles] { status := [6] } (fun t => let new := t.tile (homeOf s.cur)
      t.me.tbw = true ∧ (∀ h, h ≠ homeOf s.cur → t.tile h = s.tile h) ∧ new.ab = old.ab ∧ new.wb = old.wb ∧
      ∀ col r, col < 4 → r < 4096 →
        (¬accHas v r → new.entry col r = old.entry col r ∧ new.block col r = old.block col r) ∧
        (accHas v r → c = 0 → new.entry col r = {} ∧ new.block col r = {}) ∧
        (accHas v r → c = 1 → new.entry col r = old.entry col r ∧
          new.block col r = { old.block col r with satcnt := 0, fzcnt := 0 }))) ∧
  (∀ (s : State) rs r, s.goesOn → let v := (s.me.gr rs).toNat
    let old := s.tile (homeOf s.cur)
    ¬AccBad v (r == 1) → old.marked = [] →
    Retires (.accpro rs r) s [.tiles] { status := [6], flags := true, rngs := true } (fun t => let new := t.tile (homeOf s.cur)
      t.me.tbw = true ∧ (∀ h, h ≠ homeOf s.cur → t.tile h = s.tile h) ∧ new.ab = old.ab ∧ new.wb = old.wb ∧
      (∀ col q, col < 4 → q < 4096 → ¬accHas v q → new.entry col q = old.entry col q ∧ new.block col q = old.block col q) ∧
      (∀ col q, col < 4 → accHas v q → (new.entry col q).n = 0 ∧ (new.entry col q).c = 0) ∧
      (r = 0 → t.me.rngs = s.me.rngs ∧ ∀ col q, col < 4 → accHas v q → (new.block col q).e = (old.block col q).e ∧
        (new.entry col q).w.toInt = max (-(2 ^ 79)) (min (2 ^ 79 - 1) ((old.entry col q).w.toInt + (old.entry col q).n.toInt))) ∧
      (r = 1 → ∀ col q, col < 4 → accHas v q → (new.block col q).e = BitVec.ofNat 10 (bits v 41 32)))) ∧
  (∀ i (s : State) qc rs clr f, accReadOf i = some (qc, rs, clr, f) → s.goesOn → let v := (s.me.gr rs).toNat
    let old := s.tile (homeOf s.cur)
    let r := s.me.ring qc
    let h := (tselHome (homeOf s.cur) r.tsel).getD (homeOf s.cur)
    let m := f (16 * bits v 20 12)
    ¬AccBad v false → old.marked = [] →
    (∀ k, ringReason r 0 = some k → exec i s = .next (s.trapMe 0x69 (BitVec.ofNat 64 (k * 256 + qc.toNat)))) ∧
    (ringReason r 0 = none → m ≤ 64 * r.slotsz → s.tileDead h = false →
      (r.free = 0 → exec i s = .next (s.waitFor .completion)) ∧
      (1 ≤ r.free → s.bufHeld h = true → exec i s = .next (s.holdAccess h)) ∧
      (1 ≤ r.free → s.bufHeld h = false →
        Retires i s [.tiles] { rings := [qc.toNat], status := [6], flags := true, rngs := true } (fun t =>
          t.me.qr qc.toNat = (r.advProd 1).toBits ∧ t.me.tbw = true ∧ (∀ k, k ≠ h → k ≠ homeOf s.cur → t.tile k = s.tile k) ∧
          (∀ sp a, sp = 1 ∨ sp = 2 → sp ≠ r.buf + 1 ∨ a < r.offset r.prod ∨ r.offset r.prod + m ≤ a →
            fget 0 ((t.tile h).buf sp) a = fget 0 ((s.tile h).buf sp) a) ∧
          (∀ col q, col < 4 → q < 4096 → (t.tile (homeOf s.cur)).entry col q = if clr = 1 ∧ bits v 11 0 ≤ q ∧
            q < bits v 11 0 + 16 * bits v 20 12 then {} else old.entry col q) ∧
          (∀ tg, i = .accrd qc rs clr tg → ∀ e, e < 64 * bits v 20 12 → ∃ rng,
            t.bufRead h (r.buf + 1) (r.offset r.prod) m / 2 ^ (elemBits tg.toNat * e) % 2 ^ elemBits tg.toNat =
              (roundTo tg.toNat s.me.rm .default rng (old.entryNum (e % 4) (bits v 11 0 + e / 4))).bits % 2 ^ elemBits tg.toNat))))) ∧
  (∀ (t : Tile) col row (d : Int) (ms ebc : Nat) mode rng, col < 4 → row < 4096 → (t.block col row).e ≠ 0x200 →
    let b := t.block col row
    let x := t.entry col row
    (d * ms).natAbs < 2 ^ 23 → -(2 ^ 23) ≤ x.n.toInt + d * ms → x.n.toInt + d * ms < 2 ^ 23 → x.c.toNat < 15 → b.satcnt.toNat < 0xFFFF →
    let u := (t.contribute col row d ms (some b.e.toInt) ebc mode rng).1
    u.entry col row = { x with n := BitVec.ofInt 24 (x.n.toInt + d * ms), c := x.c + 1 } ∧
    (u.block col row).e = b.e ∧ (u.block col row).ebc.toNat = Nat.min b.ebc.toNat ebc ∧
    (u.block col row).satcnt = (if d = -128 ∨ d = 127 then b.satcnt + 1 else b.satcnt) ∧ (u.block col row).fzcnt = b.fzcnt ∧
    ∀ c q, c < 4 → q < 4096 → (c ≠ col ∨ q ≠ row) → u.entry c q = t.entry c q) ∧
  (∀ rows t row0 ms ebc mode (x : Tile) rng, row0 + rows.length ≤ 4096 →
    let y := (contributeAll rows t row0 ms ebc mode (x, 0, rng)).1
    (∀ c q, c < 4 → q < 4096 → q < row0 ∨ row0 + rows.length ≤ q → y.entry c q = x.entry c q) ∧
    ∀ c j, c < 4 → j < rows.length →
      let d := (rows.getD j ([], none)).1.getD (4 * t + c) 0
      let q := (rows.getD j ([], none)).2
      let e := x.entry c (row0 + j)
      let b := x.block c (row0 + j)
      (q = none → y.entry c (row0 + j) = e) ∧
      (b.e ≠ 0x200 → q = some b.e.toInt → (d * ms).natAbs < 2 ^ 23 → -(2 ^ 23) ≤ e.n.toInt + d * ms → e.n.toInt + d * ms < 2 ^ 23 →
        e.c.toNat < 15 → y.entry c (row0 + j) = { e with n := BitVec.ofInt 24 (e.n.toInt + d * ms), c := e.c + 1 }))

/-! Tasks, messages and copies (chapter 8). -/

/-- What a slot holds at task start (R12), for a task of `args`, and for the handler of a message, whose g9 names the sender. -/
def Obligations.TaskStart : Prop :=
  (∀ (s : State) p pcls asid task entry args gang msg, p < 16 → args.length ≤ 8 →
    let y := s.freshSlot p pcls asid task entry args gang msg
    Fresh s y p pcls asid entry ∧ y.holds args ∧ y.taskid = task ∧ y.gang = gang ∧ y.msg = msg ∧ y.mig = false) ∧
  (∀ (s : State) key m, m.migrant = none → m.payload.length ≤ 8 →
    let y := (s.startMessage key m).slot key
    Fresh s y (taskPart m.task) m.pcls m.asid m.pc ∧ y.msg = true ∧ y.mig = false ∧ y.gang = false ∧ y.gr 9 = m.sender.setWidth 64 ∧
    ∀ i, 1 ≤ i → i < 16 → i ≠ 9 → y.gr (BitVec.ofNat 4 i) = m.payload.getD (i - 1) 0)

/-- SEND commits, raises cause 0x82 for a bad destination and cause 0x80 for a full queue on the reply network or in a handler, waits for
room, or queues its message and attaches its barrier (R226, R227). MIGR raises the cause of its page or cause 0x83, completes in place, waits for
room unless a handler issued it, or sends the context and waits (R231). Causes 0x80, 0x82 and 0x83 and those of the page are taken in the state
after the commit.
Of the model's choice in it: log entries 11, 31 (notes/assumptions). -/
def Obligations.Messages : Prop :=
  (∀ i (s : State) net rd ra rb k att, sendOf i = some (net, rd, ra, rb, k, att) → s.goesOn → s.clean →
    let u := s.commitSlot s.cur
    let home := homeOf s.cur
    let d := s.me.gr rd
    let a := s.me.gr ra
    let good := d.toNat < 2048 ∧ s.ownsArcade s.me.part (d.toNat / 128) = true
    let q := (u.tile home).sendQ net
    (¬good → exec i s = .next (u.trapMe 0x82 d)) ∧
    (good → ¬LegalTarget a.toNat → exec i s = .next (u.trapMe 0x82 a)) ∧
    (good → LegalTarget a.toNat → (s.part s.me.part).cfg.sqd ≤ q.length →
      (net = 1 ∨ s.me.msg = true → exec i s = .next (u.trapMe 0x80 d)) ∧
      (net = 0 → s.me.msg = false → exec i s = .next (u.waitFor .completion))) ∧
    (good → LegalTarget a.toNat → q.length < (s.part s.me.part).cfg.sqd → (∀ b, att = some b → s.me.barriers b ≠ 0xFFFF) →
      Completes i s (fun t => Unchanged [.tiles] u t ∧ Keeps { bars := match att with | some b => [b.toNat] | none => [] } u.me t.me ∧
        t.me.pc = s.me.pc + 4 ∧ t.me.hints = [] ∧ (∀ b, att = some b → t.me.barriers b = s.me.barriers b + 1) ∧
        (∀ h, h ≠ home → t.tile h = u.tile h) ∧ (t.tile home).sendQ (1 - net) = (u.tile home).sendQ (1 - net) ∧
        ∃ m : Message, (t.tile home).sendQ net = q ++ [m] ∧ m.net = net ∧ m.dest.toNat = d.toNat ∧ m.pc = a ∧ m.cookie = s.me.gr rb ∧
          m.barrier = att ∧ m.task = s.me.taskid ∧ m.pcls = s.me.pcls ∧ m.asid = s.me.asid ∧ m.migrant = none ∧
          m.payload.length = k.toNat ∧ ∀ j, j < k.toNat → m.payload.getD j 0 = s.me.gr (BitVec.ofNat 4 (j + 1))))) ∧
  (∀ (s : State) ra, s.goesOn → s.clean → s.me.stepping = false → let u := s.commitSlot s.cur
    let page := u.translate s.me.part s.me.asid.toNat (s.me.gr ra).toNat false
    (∀ c, page = .error c → exec (.migr ra) s = .next (u.trapMe c (s.me.gr ra))) ∧
    ∀ w x, page = .ok (w, x) →
    let stall := nearStall x.pa
    let stay := w.storage x.pa ≠ .near ∨ stall = w.stallAt s.cur ∨ w.ownsArcade s.me.part (stall / 8) = false
    let window := x.ty ≠ 1 ∨ w.windowEntry s.me.part (s.me.gr ra).toNat ≠ none
    (¬window → exec (.migr ra) s = .next (w.trapMe 0x21 (s.me.gr ra))) ∧
    (window → s.me.settledHere = true → exec (.migr ra) s = .next (w.trapMe 0x83 0)) ∧
    (window → s.me.settledHere = false → stay → exec (.migr ra) s = .next w.retire) ∧
    (window → s.me.settledHere = false → ¬stay → (s.part s.me.part).cfg.sqd ≤ ((u.tile (homeOf s.cur)).sendReq).length →
      exec (.migr ra) s = .next (if s.me.msg then w.retire else w.waitFor .completion)) ∧
    (window → s.me.settledHere = false → ¬stay → ((u.tile (homeOf s.cur)).sendReq).length < (s.part s.me.part).cfg.sqd →
      Completes (.migr ra) s (fun t => Unchanged [.tiles, .walks] u t ∧ Keeps {} u.me t.me ∧ t.me.phase = .waiting .migrate ∧
        t.me.pc = s.me.unitStart ∧ (∀ h, h ≠ homeOf s.cur → t.tile h = u.tile h) ∧
        ∃ m : Message, (t.tile (homeOf s.cur)).sendReq = (u.tile (homeOf s.cur)).sendReq ++ [m] ∧ m.dest.toNat / 16 = u.logStall stall ∧
          m.pc = s.me.pc + 4 ∧ m.task = s.me.taskid ∧ m.fromSlot = s.cur ∧ m.migrant.isSome = true)))

/-- The ways of a message and of a migrant: they enter the network in order (R227); an arrival starts in a free slot, joins the mailbox
or is refused (R228, R232); an acceptance detaches the barrier and frees the migrant's old slot (R229, R231); a refusal reaches the
sender as a trap with the cookie or at its barrier, and lets a migrant go on (R229, R231). What a moving stall's switch holds is delivered in
order of arrival (R323).
Of the model's choice in it: log entries 31, 71 (notes/assumptions). -/
def Obligations.MessageSteps : Prop :=
  (∀ (s : State) (tile : BitVec 11) net m rest, (s.tile tile.toNat).sendQ net = m :: rest → s.midSwap (stallOf tile.toNat) = false →
    s.sentBefore m = false →
    Acts (.messageInjection tile net) s [.tiles, .messages] [] (fun t => t.net = s.net ++ [m] ∧ t.refusals = s.refusals ∧
      (t.tile tile.toNat).sendQ net = rest ∧ (t.tile tile.toNat).sendQ (1 - net) = (s.tile tile.toNat).sendQ (1 - net) ∧
      ∀ h, h ≠ tile.toNat → t.tile h = s.tile h)) ∧
  (∀ (s : State) idx m, s.arrives idx false = some m → m.barrier = none → s.tileDead m.dest.toNat = false →
    let mail := (s.tile m.dest.toNat).mailbox
    let room := mail.length < (s.tile m.dest.toNat).mqcap.toNat ∧ s.mailboxLost m.dest.toNat = false
    (∀ k, mail = [] → (s.freeSlots m.dest.toNat).head? = some k → m.payload.length ≤ 8 →
      Acts (.messageArrival idx) s [.messages, .parts, .caches, .held] [k] (fun t => t.net = s.net.eraseIdx idx ∧ OthersHeld m.held s t ∧
        Fresh s (t.slot k) (taskPart m.task) m.pcls m.asid m.pc ∧ (t.slot k).msg = true ∧ (t.slot k).gr 9 = m.sender.setWidth 64 ∧
        ∀ i, 1 ≤ i → i < 9 → (t.slot k).gr (BitVec.ofNat 4 i) = m.payload.getD (i - 1) 0)) ∧
    ((mail ≠ [] ∨ s.freeSlots m.dest.toNat = []) → room → Acts (.messageArrival idx) s [.messages, .tiles, .held] [] (fun t =>
      t.net = s.net.eraseIdx idx ∧ OthersHeld m.held s t ∧ t.tile m.dest.toNat = { s.tile m.dest.toNat with mailbox := mail ++ [m] } ∧
      ∀ h, h ≠ m.dest.toNat → t.tile h = s.tile h)) ∧
    ((mail ≠ [] ∨ s.freeSlots m.dest.toNat = []) → ¬room → Acts (.messageArrival idx) s [.messages, .held] [] (fun t =>
      t.net = s.net.eraseIdx idx ∧ OthersHeld m.held s t ∧ t.refusals = s.refusals ++ [m]))) ∧
  (∀ (s : State) idx m b j, s.arrives idx false = some m → m.barrier = some b → s.tileDead m.dest.toNat = false →
    s.findSlot m.task m.sender.toNat = some j → (s.newTask (taskPart m.task)).2 ≠ m.task →
    let mail := (s.tile m.dest.toNat).mailbox
    let room := mail.length < (s.tile m.dest.toNat).mqcap.toNat ∧ s.mailboxLost m.dest.toNat = false
    (∀ k, mail = [] → (s.freeSlots m.dest.toNat).head? = some k → m.payload.length ≤ 8 →
      Acts (.messageArrival idx) s [.messages, .parts, .caches, .held] [k, j] (fun t => t.net = s.net.eraseIdx idx ∧ OthersHeld m.held s t ∧
        Fresh s (t.slot k) (taskPart m.task) m.pcls m.asid m.pc ∧ (t.slot k).msg = true ∧ t.slot j = (s.slot j).detach b.toNat 0)) ∧
    ((mail ≠ [] ∨ s.freeSlots m.dest.toNat = []) → room → Acts (.messageArrival idx) s [.messages, .tiles, .held] [j] (fun t =>
      t.net = s.net.eraseIdx idx ∧ OthersHeld m.held s t ∧ t.tile m.dest.toNat = { s.tile m.dest.toNat with mailbox := mail ++ [m] } ∧
      (∀ h, h ≠ m.dest.toNat → t.tile h = s.tile h) ∧ t.slot j = (s.slot j).detach b.toNat 0)) ∧
    ((mail ≠ [] ∨ s.freeSlots m.dest.toNat = []) → ¬room → Acts (.messageArrival idx) s [.messages, .held] [] (fun t =>
      t.net = s.net.eraseIdx idx ∧ OthersHeld m.held s t ∧ t.refusals = s.refusals ++ [m]))) ∧
  (∀ (s : State) idx m k, s.arrives idx true = some m → m.barrier = none → s.tileDead m.dest.toNat = false →
    (s.tile m.dest.toNat).mailbox = [] → (s.freeSlots m.dest.toNat).head? = some k → (s.slot m.fromSlot).phase = .waiting .migrate →
    (s.slot m.fromSlot).taskid = m.task →
    Acts (.migrantArrival idx) s [.messages, .caches, .held] [k, m.fromSlot] (fun t => t.net = s.net.eraseIdx idx ∧ OthersHeld m.held s t ∧
      (t.slot m.fromSlot).phase = .waiting .migrate ∧ (t.slot m.fromSlot).taskid = 0 ∧
      let y := t.slot k
      let l := s.slot m.fromSlot
      y.phase = .ready ∧ y.pc = m.pc ∧ y.g = l.g ∧ y.taskid = l.taskid ∧ y.asid = l.asid ∧ y.flags = l.flags ∧ y.mig = true ∧
      y.rngs = l.rngs ∧ y.quota = l.quota ∧ y.wdog = l.wdog ∧ y.debt = l.debt ∧ y.tvec = (s.part l.part).cfg.tvec0 ∧
      y.gto = (s.part l.part).cfg.gto0 ∧ y.ebcmin = (s.part l.part).cfg.ebcmin0 ∧ y.v = [] ∧ y.k = [] ∧ y.q = [] ∧ y.b = [])) ∧
  (∀ (s : State) idx m, s.arrives idx true = some m → (s.slot m.fromSlot).phase ≠ .waiting .migrate ∨ (s.slot m.fromSlot).taskid ≠ m.task →
    Acts (.migrantArrival idx) s [.messages, .held] [] (fun t => t.net = s.net.eraseIdx idx ∧ t.refusals = s.refusals)) ∧
  (∀ (s : State) (tile : BitVec 11) (slot : BitVec 3), let k := tile.toNat * 8 + slot.toNat
    (s.slot k).phase = .waiting .migrate → (s.slot k).taskid = 0 → s.midSwap (stallOf tile.toNat) = false →
    Acts (.migrantAcceptance tile slot) s [] [k] (fun t => (t.slot k).phase = .free)) ∧
  (∀ (l : Slot) i (c : BitVec 8), l.barriers i ≠ 0 → (l.detach i.toNat c).barriers i = l.barriers i - 1) ∧
  (∀ (s : State) idx m k, s.refusals[idx]? = some m → s.midSwap (stallOf m.sender.toNat) = false → m.migrant = none →
    s.findSlot m.task m.sender.toNat = some k →
    (m.barrier = none → (s.slot k).pend.length < 8 → Acts (.messageRefusal idx) s [.messages] [k] (fun t =>
      t.refusals = s.refusals.eraseIdx idx ∧ t.slot k = { s.slot k with pend := (s.slot k).pend ++ [(0x81, m.cookie)] })) ∧
    (∀ b, m.barrier = some b → Acts (.messageRefusal idx) s [.messages] [k] (fun t => t.refusals = s.refusals.eraseIdx idx ∧
      t.slot k = ((s.slot k).detach b.toNat 0x81).credit 0x81))) ∧
  (∀ (s : State) idx m, s.refusals[idx]? = some m → s.midSwap (stallOf m.sender.toNat) = false → m.migrant.isSome = true →
    (s.slot m.fromSlot).phase = .waiting .migrate → (s.slot m.fromSlot).taskid = m.task → (s.slot m.fromSlot).stepping = false →
    Acts (.messageRefusal idx) s [.messages] [m.fromSlot] (fun t => (t.slot m.fromSlot).phase = .ready ∧ (t.slot m.fromSlot).pc = m.pc ∧
      (t.slot m.fromSlot).g = (s.slot m.fromSlot).g))

/-- FORK, JOIN and SPAWN: operand and record checks, causes 0x84, 0x87 and 0x20; workers and their cell, the handle, the join status, the
posted record with the status that SPAWN writes (R233 to R236, R239). Every worker, or every member of a gang worker, starts in the first free
slot of its tile with its share of the iterations, its number and its leases; with no unit a single worker is queued, and FORK waits where the
run queue, the cells or the attached barrier's COUNT are full. Causes 0x84 and 0x87 are taken in the state after the commit.
Of the model's choice in it: log entries 11, 29, 30, 81 (notes/assumptions). -/
def Obligations.ForksAndJoins : Prop :=
  (∀ (s : State) rd ra rb bn v x, s.goesOn → s.clean → s.me.phase = .ready → let u := s.commitSlot s.cur
    let n := s.me.gr rb
    let f := forkAsked v.me x n
    ((s.me.gr ra).toNat % 64 ≠ 0 ∨ 2 ^ 32 ≤ n.toNat → exec (.fork rd ra rb 0 bn) s = .next (u.trapMe 0x84 (s.me.gr ra))) ∧
    ((s.me.gr ra).toNat % 64 = 0 → n.toNat < 2 ^ 32 → u.readRecord (s.me.gr ra) 64 = .ok (v, x) →
      ((ForkRec.ofNat x).bad = true → exec (.fork rd ra rb 0 bn) s = .next (v.trapMe 0x84 (s.me.gr ra))) ∧
      (∀ id, (ForkRec.ofNat x).bad = false → n = 0 → f.cont = 0 →
        v.freeCellAt (stallOf (homeOf s.cur) * 64) = some id → id < 2 ^ 16 →
        Completes (.fork rd ra rb 0 bn) s (fun t => (∃ h, Wrote rd h t ∧ bits h.toNat 15 0 = id) ∧ t.me.pc = s.me.pc + 4 ∧
          ∃ c, t.cell id = some c ∧ c.total = 0 ∧ c.creator = s.me.taskid ∧ c.complete = true)) ∧
      (∀ id h k, (ForkRec.ofNat x).bad = false → f.gang = false → f.lab = 0 → f.lwb = 0 →
        v.units f (stallOf (homeOf s.cur)) (Nat.min f.maxw ((n.toNat + f.grain - 1) / f.grain)) = [h] → n ≠ 0 →
        v.freeCellAt (stallOf h * 64) = some id → id < 2 ^ 16 → (v.freeSlots h).head? = some k →
        Completes (.fork rd ra rb 0 bn) s (fun t => t.me.pc = s.me.pc + 4 ∧ (t.slot k).phase = .ready ∧ (t.slot k).pc = f.entry ∧
          (t.slot k).asid = s.me.asid ∧ (t.slot k).gr 1 = 0 ∧ (t.slot k).gr 2 = n ∧ (t.slot k).gr 3 = f.arg ∧ (t.slot k).gr 4 = 0 ∧
          (t.slot k).gr 5 = 1 ∧ Wrote rd ((t.slot k).gr 8) t ∧ bits ((t.slot k).gr 8).toNat 31 0 = id + 2 ^ 16 ∧
          ∃ c, t.cell id = some c ∧ c.total = 1 ∧ c.ended = 0 ∧ c.creator = s.me.taskid ∧ c.cont = f.cont)))) ∧
  (∀ (s : State) rd ra rb att bn v x, s.goesOn → s.clean → s.me.phase = .ready → let u := s.commitSlot s.cur
    let home := homeOf s.cur
    let n := (s.me.gr rb).toNat
    let f := { forkAsked v.me x (s.me.gr rb) with barrier := if att = 1 then some bn else none }
    let us := v.units f (stallOf home) (Nat.min f.maxw ((n + f.grain - 1) / f.grain))
    let cells := v.freeCellAt (cellBase home (us.map (fun h => if f.gang then h else stallOf h)))
    (s.me.gr ra).toNat % 64 = 0 → n < 2 ^ 32 → n ≠ 0 → u.readRecord (s.me.gr ra) 64 = .ok (v, x) → (ForkRec.ofNat x).bad = false →
    let attached (t : State) : Prop := att = 1 → t.me.barriers bn = v.me.barriers bn + 1
    let celled (t : State) (id p : Nat) : Prop := ∃ c, t.cell id = some c ∧ c.total = p ∧ c.ended = 0 ∧ c.creator = s.me.taskid ∧
      c.cont = f.cont ∧ c.carg = f.carg ∧ c.barrier = f.barrier ∧ c.tile = home
    (att = 1 → v.me.barriers bn = 0xFFFF → exec (.fork rd ra rb att bn) s = .next (v.waitFor .completion)) ∧
    ((att = 1 → v.me.barriers bn ≠ 0xFFFF) →
      (cells = none ∨ (us = [] ∧ 16 ≤ (v.tile home).runq.length) → exec (.fork rd ra rb att bn) s = .next (v.waitFor .completion)) ∧
      (∀ id, us = [] → (v.tile home).runq.length < 16 → cells = some id → Completes (.fork rd ra rb att bn) s (fun t =>
        t.me.pc = s.me.pc + 4 ∧ attached t ∧ celled t id 1 ∧ Wrote rd (handleOf id 1 s.me.taskid) t ∧
        ∃ r : Record, (t.tile home).runq = (v.tile home).runq ++ [r] ∧ r.gang = f.gang ∧ r.pcls = s.me.pcls ∧ r.lab = f.lab ∧ r.lwb = f.lwb ∧
          r.kind = .worker f.entry [0, BitVec.ofNat 64 n, f.arg, 0, 1, 0, 0, handleOf id 1 s.me.taskid] id)) ∧
      (∀ id, us ≠ [] → cells = some id → let p := us.length
        Completes (.fork rd ra rb att bn) s (fun t =>
          t.me.pc = s.me.pc + 4 ∧ attached t ∧ celled t id p ∧ Wrote rd (handleOf id p s.me.taskid) t ∧
          ∀ i unit, us[i]? = some unit →
            let homes := if f.gang then tilesOf unit else [unit]
            ∀ h k off, h ∈ homes → (v.freeSlots h).head? = some k → v.leaseRoom homes f.lab f.lwb = some off →
              let y := t.slot k
              y.phase = .ready ∧ y.pc = f.entry ∧ y.asid = s.me.asid ∧ y.pcls = s.me.pcls ∧ y.gang = f.gang ∧
              y.gr 1 = BitVec.ofNat 64 (i * (n / p) + Nat.min i (n % p)) ∧ y.gr 2 = BitVec.ofNat 64 (n / p + if i < n % p then 1 else 0) ∧
              y.gr 3 = f.arg ∧ y.gr 4 = BitVec.ofNat 64 i ∧ y.gr 5 = BitVec.ofNat 64 p ∧ y.gr 6 = BitVec.ofNat 64 off.1 ∧
              y.gr 7 = BitVec.ofNat 64 off.2 ∧ y.gr 8 = handleOf id p s.me.taskid ∧
              (f.lab ≠ 0 → (y.taskid, off.1, f.lab * 4096) ∈ (t.tile h).abLeases) ∧
              (f.lwb ≠ 0 → (y.taskid, off.2, f.lwb * 1024) ∈ (t.tile h).wbLeases))))) ∧
  (∀ (s : State) ra, s.goesOn → s.clean → let u := s.commitSlot s.cur
    let id := (s.me.gr ra).toNat % 2 ^ 16
    (u.cellHeld id = true → exec (.join ra) s = .next (u.waitFor .completion)) ∧
    (u.cellHeld id = false → u.cell id = none → exec (.join ra) s = .next (u.trapMe 0x87 (s.me.gr ra))) ∧
    (∀ c, u.cellHeld id = false → u.cell id = some c → c.creator = s.me.taskid → c.node = none → c.cont = 0 → handleOf id c.total c.creator = s.me.gr ra →
      (c.total ≤ c.ended → Completes (.join ra) s (fun t => t.cell id = none ∧ t.me.pc = s.me.pc + 4 ∧ (∀ j, j ≠ id → t.cell j = u.cell j) ∧
        Keeps { g := [ra] } u.me t.me ∧ ∃ v, Wrote ra v t ∧ bits v.toNat 15 0 = c.total % 2 ^ 16 ∧ bits v.toNat 31 16 = c.failed % 2 ^ 16 ∧
          bits v.toNat 47 32 = c.killed % 2 ^ 16 ∧ bits v.toNat 55 48 = c.cause.toNat)) ∧
      (c.ended < c.total → exec (.join ra) s = .next (u.waitFor .completion))) ∧
    (∀ c, u.cellHeld id = false → u.cell id = some c → (c.creator ≠ s.me.taskid ∨ c.node ≠ none ∨ c.cont ≠ 0) → exec (.join ra) s = .next (u.trapMe 0x87 (s.me.gr ra)))) ∧
  (∀ (s v w : State) rd ra rb x x0, s.goesOn → let a := s.me.gr ra
    let b := (s.me.gr rb).toNat
    let qn := b % 2 ^ 16
    let q := w.queue qn
    let at' := q.ring + 64 * (q.tail.toNat % q.qlen)
    let refused := 2 ^ 16 ≤ b ∨ q.part ≠ w.me.part ∨ q.hostq = true ∨ q.en = false
    let answers (c : Word) := Completes (.spawn rd ra rb) s (fun t => Wrote rd c t ∧ t.me.pc = s.me.pc + 4 ∧ Component.queues.Same w t)
    (a.toNat % 64 ≠ 0 → exec (.spawn rd ra rb) s = .next (s.trapMe 0x20 a)) ∧
    (a.toNat % 64 = 0 → ∀ c, s.checkGlobal none s.me .load a.toNat 64 = .error c → exec (.spawn rd ra rb) s = .next (s.trapMe c a)) ∧
    (a.toNat % 64 = 0 → s.checkGlobal none s.me .load a.toNat 64 = .ok (v, x0) → v.clean → (v.commitSlot v.cur).readRecord a 64 = .ok (w, x) →
      (refused → answers 2) ∧
      (¬refused → (2 ≤ bits x 7 0 ∨ bits x 63 8 ≠ 0) → answers 3) ∧
      (¬refused → ¬(2 ≤ bits x 7 0 ∨ bits x 63 8 ≠ 0) → q.qlen ≤ (q.tail - q.head).toNat → answers 1) ∧
      (¬refused → ¬(2 ≤ bits x 7 0 ∨ bits x 63 8 ≠ 0) → (q.tail - q.head).toNat < q.qlen → w.writeWaits at' = false → w.deepGone at' = false →
        Completes (.spawn rd ra rb) s (fun t => Wrote rd 0 t ∧ t.me.pc = s.me.pc + 4 ∧ (t.queue qn).tail = q.tail + 1 ∧
          (t.queue qn).head = q.head ∧ t.rd at' 64 = x % 2 ^ 512 ∧ ∀ y, y < at' ∨ at' + 64 ≤ y → t.byte y = w.byte y))))

/-- TEND commits and ends the task: its slot becomes free, a worker's end is counted in its cell, and a queue's task leaves a completion
record (R235, R237, R331, R412). YIELD goes on, or stops the task when one of its class waits (R238). A failure is recorded once, a kill
counted apart, and while DBGCTL.ENDH is 1 the task halts instead, with the other members of its gang, its pc at the first HINT of the instruction's
run; so does a switched-out one, with ECAUSE and EVAL in its save area and HALTED in those of its gang (R331, R335, R344).
Of the model's choice in it: log entries 24, 36, 70, 82 (notes/assumptions). -/
def Obligations.TaskEnds : Prop :=
  (∀ s : State, s.clean → s.me.gang = false → s.me.next = none → let u := s.commitSlot s.cur
    (s.me.origin = .nobody → Completes .tend s (fun t => t.slot s.cur = {} ∧ t.mem = u.mem)) ∧
    (∀ id c, s.me.origin = .cell id → u.cell id = some c → c.creator ≠ s.me.taskid → c.ended + 1 < c.total → u.cellHeld id = false →
      (∀ k, k ≠ s.cur → (s.slot k).taskid ≠ s.me.taskid) → s.mailed s.me.taskid = false →
      (∀ p x, x ∈ (s.part p).saved → x.ctx.taskid ≠ s.me.taskid) →
      Completes .tend s (fun t => t.slot s.cur = {} ∧ t.mem = u.mem ∧ (s.me.peerEnd = 0 → t.cell id = some { c with ended := c.ended + 1 }))) ∧
    (∀ q, s.me.origin = .queue q → s.me.peerEnd = 0 → (u.queue q).qlen ≤ ((u.queue q).ctail - (u.queue q).chead).toNat → (u.queue q).comps = [] →
      (∀ k, k ≠ s.cur → (s.slot k).taskid ≠ s.me.taskid) → s.mailed s.me.taskid = false →
      (∀ p x, x ∈ (s.part p).saved → x.ctx.taskid ≠ s.me.taskid) →
      Completes .tend s (fun t => t.slot s.cur = {} ∧ (t.queue q).comps = [(false, s.me.taskid, 0x8000000000000001)]))) ∧
  (∀ s : State, s.goesOn → let waits := ∃ r ∈ (s.tile (homeOf s.cur)).runq, s.me.pcls.toNat ≤ r.pcls.toNat
    (¬waits → Retires .yield s [] {} (fun t => t.me.stops = s.me.stops)) ∧
    (waits → (s.pickAreas s.me.part s.me.gang).isSome = true → s.me.gang = false →
      Retires .yield s [] {} (fun t => Stop.yield ∈ t.me.stops))) ∧
  (∀ (s : State) key c v, let l := s.slot key
    s.endh l.part c = true → let t := s.endTask key c v
    t.slot key = { l with phase := .halted, pc := l.unitStart, hints := [], prio := false, performing := false, ecause := c, eval := v,
                          arrived := if l.performing then none else l.arrived } ∧
    (∀ k, k ≠ key → k ∉ s.gangKeys key → t.slot k = s.slot k) ∧
    (∀ k ∈ s.gangKeys key, k ≠ key → Stop.halt ∈ (t.slot k).stops ∨ (t.slot k).phase = .halted) ∧ t.mem = s.mem ∧ t.cells = s.cells) ∧
  (∀ (s : State) p x (c : BitVec 8) v, x ∈ (s.part p).saved → (∀ y ∈ (s.part p).saved, y.area % 0x2000 = 0) → s.endh p c = true →
    let t := s.finishSaved p x c v
    t.rd (x.area + 0x38) 8 = c.toNat ∧ t.rd (x.area + 0x40) 8 = v.toNat ∧ t.slots = s.slots ∧ t.cells = s.cells ∧
    ∀ y ∈ (s.part p).saved, y.area = x.area ∨ (x.ctx.gang = true ∧ y.ctx.taskid = x.ctx.taskid) →
      bit (t.rd (y.area + 8) 8) 10 = true ∧
      ∃ z ∈ (t.part p).saved, z.area = y.area ∧ z.ctx.phase = .halted ∧ z.queued = false ∧
        (y.area = x.area → z.ctx.ecause = c ∧ z.ctx.eval = v)) ∧
  (∀ (s : State) id key (c : BitVec 8) u, s.cell id = some u → u.ended + 1 < u.total →
    (s.cellEnd id c key).cell id = some { u with
      ended := u.ended + 1
      failed := if c = 0 ∨ c = 0x86 then u.failed else u.failed + 1
      killed := if c = 0x86 then u.killed + 1 else u.killed
      cause := if c ≠ 0 ∧ c ≠ 0x86 ∧ u.cause = 0 then c else u.cause })

/-- CPY: causes 0x2E and 0x20 for its operands, a cause of R87 for descriptors that are not mapped, a wait for room; else the command is
queued with what the task's context holds now (R240). CPY commits first, so each of them is in the state after that commit, which stays
made. CPY.STEP, CPY.WM, CPY.SUM and CPY.STOP act on the channel (R249); CPY.STOP completes also where a completion word must wait for its
memory: that command stays in its channel, ending with 0x2C.
Of the model's choice in it: log entries 11, 33, 63 (notes/assumptions). -/
def Obligations.CopyIssue : Prop :=
  (∀ (s : State) ch rd ra rb att bn, s.goesOn → s.clean → let u := s.commitSlot s.cur
    let home := homeOf s.cur
    let a := s.me.gr ra
    let b := s.me.gr rb
    let q := (u.tile home).chan ch.toNat
    (b = 0 ∨ 4096 < b.toNat → exec (.cpy ch rd ra rb att bn) s = .next (u.trapMe 0x2E b)) ∧
    (b ≠ 0 → b.toNat ≤ 4096 → a.toNat % 64 ≠ 0 → exec (.cpy ch rd ra rb att bn) s = .next (u.trapMe 0x20 a)) ∧
    (b ≠ 0 → b.toNat ≤ 4096 → a.toNat % 64 = 0 →
      (∀ c v, u.checkRun u.me a.toNat (64 * b.toNat) = .error (c, v) → exec (.cpy ch rd ra rb att bn) s = .next (u.trapMe c v)) ∧
      (∀ w, u.checkRun u.me a.toNat (64 * b.toNat) = .ok w → 4 ≤ q.cmds.length → exec (.cpy ch rd ra rb att bn) s = .next (w.waitFor .completion)) ∧
      (∀ w, u.checkRun u.me a.toNat (64 * b.toNat) = .ok w → q.cmds.length < 4 → (att = 1 → s.me.barriers bn ≠ 0xFFFF) →
        Completes (.cpy ch rd ra rb att bn) s (fun t => Unchanged [.tiles, .walks] u t ∧
          Keeps { g := [rd], bars := if att = 1 then [bn.toNat] else [], rngs := true } u.me t.me ∧ t.me.pc = s.me.pc + 4 ∧ t.me.hints = [] ∧
          Wrote rd (a + 64 * b) t ∧ (att = 1 → t.me.barriers bn = s.me.barriers bn + 1) ∧ (s.me.rm ≠ 4 → t.me.rngs = s.me.rngs) ∧
          (∀ h, h ≠ home → t.tile h = u.tile h) ∧
          ∃ m : Command, ((t.tile home).chan ch.toNat).cmds = q.cmds ++ [m] ∧ m.first = a ∧ m.count = b.toNat ∧ m.task = s.me.taskid ∧
            m.asid = s.me.asid ∧ m.part.toNat = s.me.part ∧ m.pl.toNat = s.me.pl ∧ m.mode = s.me.rm ∧ m.gen = s.me.rngs ∧
            m.barrier = (if att = 1 then some bn else none) ∧ m.status = 0 ∧ m.idx = 0))) ) ∧
  (∀ (s : State) ch ra, s.goesOn → let home := homeOf s.cur
    let q := (s.tile home).chan ch.toNat
    let only (t : State) (x : Channel) : Prop := (t.tile home).chan ch.toNat = x ∧ (∀ h, h ≠ home → t.tile h = s.tile h) ∧
      ∀ c, c ≠ ch.toNat → (t.tile home).chan c = (s.tile home).chan c
    Retires (.cpyStep ch ra) s [.tiles] {} (fun t =>
      only t { q with credits := BitVec.ofNat 16 (Nat.min 0xFFFF (q.credits.toNat + (s.me.gr ra).toNat % 2 ^ 16)) }) ∧
    (s.me.gr ra = 0 → Retires (.cpyWm ch ra) s [.tiles] {} (fun t => only t { q with wm := none })) ∧
    (∀ i : BitVec 3, s.me.gr ra = BitVec.ofNat 64 (256 + i.toNat) → Retires (.cpyWm ch ra) s [.tiles] {} (fun t => only t { q with wm := some i })) ∧
    (s.me.gr ra ≠ 0 → ((s.me.gr ra).toNat < 256 ∨ 264 ≤ (s.me.gr ra).toNat) → exec (.cpyWm ch ra) s = .next (s.trapMe 0x68 (s.me.gr ra))) ∧
    ((∀ m ∈ q.cmds, m.slot ≠ some s.cur) → Retires (.cpySum ch ra) s [] { g := [ra] } (Wrote ra ((fget 0 q.sums s.cur).setWidth 64))) ∧
    ((∃ m ∈ q.cmds, m.slot = some s.cur) → exec (.cpySum ch ra) s = .next (s.waitFor .completion)) ∧
    ((∀ m ∈ q.cmds, m.status = 0 ∧ m.task ≠ s.me.taskid) → Retires (.cpyStop ch) s [.tiles] {} (fun t => only t { q with credits := 0 })) ∧
    (∀ m, q.cmds = [m] → m.task = s.me.taskid → m.status = 0 → m.barrier = none → m.node = none → (∀ j, s.wordOf m j = none) →
      s.findSlot s.me.taskid home = some s.cur → Retires (.cpyStop ch) s [.tiles] { flags := true } (fun t =>
        only t { q with cmds := [], credits := 0 } ∧ field t.me.flags 16 8 = 0x2C ∧ wbit t.me.flags 24 = true)) ∧
    (∀ m w, q.cmds = [m] → m.task = s.me.taskid → m.status = 0 → m.idx < m.count → s.wordOf m m.idx = some w → s.commandWaits m w.toNat = true →
      Retires (.cpyStop ch) s [.tiles] {} (fun t =>
        only t { q with cmds := [{ m with status := 0x2C, writes := [], moved := false }], credits := 0 })))

/-- The copy engine: a descriptor from AB to WB of one dimension is read, checked and moved (R241 to R243); a descriptor that breaks a rule
ends its command with 0x2E (R241); the last descriptor's end takes the command from its channel and detaches its barrier (R247).
Of the model's choice in it: log entries 33, 63, 71 (notes/assumptions). -/
def Obligations.CopySteps : Prop :=
  (∀ (s u : State) (tile : BitVec 11) (ch : BitVec 3) m rest x, let home := tile.toNat
    let d := CopyDesc.ofNat x
    ((s.tile home).chan ch.toNat).cmds = m :: rest → m.status = 0 → m.moved = false → m.begun = false → m.reached = none →
    s.midSwap (stallOf home) = false → m.node = none → s.commandRead m home (m.first + BitVec.ofNat 64 (64 * m.idx)) 64 = .ok (u, x) →
    (d.bad (m.idx == 0) false m.prevKind = true → Completes (.copyDescriptor tile ch) s (fun t => t.mem = u.mem ∧
      ∃ y : Command, ((t.tile home).chan ch.toNat).cmds = y :: rest ∧ y.status = 0x2E ∧ y.idx = m.idx)) ∧
    (d.bad (m.idx == 0) false m.prevKind = false → d.ssp = 1 → d.dsp = 2 → d.nd = 1 → d.sum = 0 → d.inj = 0 → d.waitStep = false →
      m.leaseRel = none → d.src.toNat + d.len0 ≤ 0x40000 → d.dst.toNat + d.len0 ≤ 0x10000 → (u.tile home).marked = [] → u.tileDead home = false →
      u.heldUp (stallOf home) (m.access home) = false →
      Completes (.copyDescriptor tile ch) s (fun t =>
        (∃ y : Command, ((t.tile home).chan ch.toNat).cmds = y :: rest ∧ y.status = 0 ∧ y.moved = true ∧ y.pos = d.len0 ∧ y.idx = m.idx) ∧
        (t.tile home).ab = (u.tile home).ab ∧
        (∀ i, i < d.len0 → fget 0 (t.tile home).wb (d.dst.toNat + i) = fget 0 (u.tile home).ab (d.src.toNat + i)) ∧
        (∀ i, i < d.dst.toNat ∨ d.dst.toNat + d.len0 ≤ i → fget 0 (t.tile home).wb i = fget 0 (u.tile home).wb i)))) ∧
  (∀ (s : State) (tile : BitVec 11) (ch : BitVec 3) m rest k b, let home := tile.toNat
    let d := CopyDesc.ofNat m.image.toNat
    ((s.tile home).chan ch.toNat).cmds = m :: rest → m.status = 0 → m.moved = true → m.writes = [] → dimBytes m.dims ≤ m.pos →
    s.midSwap (stallOf home) = false → m.node = none → m.barrier = some b → d.sum = 0 → d.cword = 0 →
    (m.count ≤ m.idx + 1 → s.findSlot m.task home = some k → Acts (.copyDescriptorComplete tile ch) s [.tiles] [k] (fun t =>
      ((t.tile home).chan ch.toNat).cmds = rest ∧ t.slot k = (s.slot k).detach b.toNat 0)) ∧
    (m.idx + 1 < m.count → (∀ n ∈ rest, n.status = 0) → Acts (.copyDescriptorComplete tile ch) s [.tiles] [] (fun t =>
      ∃ y : Command, ((t.tile home).chan ch.toNat).cmds = y :: rest ∧ y.idx = m.idx + 1 ∧ y.begun = false ∧ y.status = 0)))

/-! Steps of the device: slots, queues and graphs (chapters 8 and 9). -/

/-- What reaches a slot: the ends of waits (R10, R111, R113, R255), the watchdog and pending causes at a boundary, and a kill (R329,
R341, R343); the filling of a freed slot (R315) and the start of a gang (R316); a sealed commit (R114); the reply that a load waits for
(R94).
Of the model's choice in it: log entries 7, 12, 37, 49 (notes/assumptions). -/
def Obligations.SlotEvents : Prop :=
  (∀ (s : State) (tile : BitVec 11) (slot : BitVec 3), let k := tile.toNat * 8 + slot.toNat
    let l := s.slot k
    s.midSwap (stallOf tile.toNat) = false →
    (∀ a, l.phase = .waiting (.address a) → Acts (.waitaWake tile slot) s [] [k] (fun t => t.slot k = l.woken)) ∧
    (l.phase = .waiting .completion → Acts (.waitCompletion tile slot) s [] [k] (fun t => t.slot k = l.woken)) ∧
    (l.phase = .waiting .idle → l.idleAt + 10000 ≤ s.now → Acts (.idleEnd tile slot) s [] [k] (fun t => t.slot k = l.woken)) ∧
    (l.phase = .waiting .idle → s.now < l.idleAt + 10000 → exec (.idleEnd tile slot) s = .next s) ∧
    (l.phase = .ready → l.wdog = 1 → Acts (.watchdogExpiry tile slot) s [] [k] (fun t => t.slot k = { l with wdog := 0, wdogDue := true })) ∧
    (l.phase = .ready → l.hints = [] → l.late = none → l.gang = false → l.performing = false → l.stops = [] → l.stepping = false → l.doomed = false →
      l.seg.sealedCommit = false → l.committed = false →
      (l.kill = false → l.wdogDue = false → l.pl = 0 → CanTrap l l.pc → ∀ c v rest, l.pend = (c, v) :: rest →
        Acts (.boundaryEvent tile slot) s [] [k] (fun t => TrapTaken l (t.slot k) c l.pc v ∧ (t.slot k).pend = rest)) ∧
      (l.kill = false → l.wdogDue = true → l.pl = 0 → CanTrap l l.pc →
        Acts (.boundaryEvent tile slot) s [] [k] (fun t => TrapTaken l (t.slot k) 0x0C l.pc 0 ∧ (t.slot k).wdogDue = false)) ∧
      (l.kill = false → l.wdogDue = true → 1 ≤ l.pl →
        exec (.boundaryEvent tile slot) s = .next ((s.setSlot k { l with wdogDue := false }).endTask k 0x0C 0)) ∧
      (l.kill = true → exec (.boundaryEvent tile slot) s = .next (s.endTask k 0x86 0)))) ∧
  (∀ (s : State) (tile : BitVec 11) (slot : BitVec 3), let k := tile.toNat * 8 + slot.toNat
    let home := tile.toNat
    let c := s.tile home
    (s.slot k).phase = .free → (s.slot k).held = false → s.stallDeadOrMoving (stallOf home) = false → (∀ id y, s.cell id = some y → y.due = false) →
    (∀ r e args, (s.slot k).next = some r → r.gang = false → r.Plain e args →
      Acts (.slotFill tile slot) s [.parts, .caches] [k] (fun t => Fresh s (t.slot k) r.part.toNat r.pcls r.asid e ∧ (t.slot k).holds args ∧
        (t.slot k).origin = r.origin ∧ (t.slot k).queue = r.queue ∧ (t.slot k).next = none)) ∧
    (∀ m rest, (s.slot k).next = none → c.mailbox = m :: rest → m.migrant = none → m.payload.length ≤ 8 →
      Acts (.slotFill tile slot) s [.tiles, .parts, .caches] [k] (fun t => t.tile home = { c with mailbox := rest } ∧
        (∀ h, h ≠ home → t.tile h = s.tile h) ∧ Fresh s (t.slot k) (taskPart m.task) m.pcls m.asid m.pc ∧ (t.slot k).msg = true ∧
        (t.slot k).gr 9 = m.sender.setWidth 64 ∧ ∀ i, 1 ≤ i → i < 9 → (t.slot k).gr (BitVec.ofNat 4 i) = m.payload.getD (i - 1) 0)) ∧
    (∀ r e args, (s.slot k).next = none → c.mailbox = [] → s.owesSlot home = false → c.runq = [r] → r.gang = false → r.Plain e args →
      Acts (.slotFill tile slot) s [.tiles, .parts, .caches] [k] (fun t => t.tile home = { c with runq := [] } ∧
        (∀ h, h ≠ home → t.tile h = s.tile h) ∧ Fresh s (t.slot k) r.part.toNat r.pcls r.asid e ∧ (t.slot k).holds args ∧
        (t.slot k).origin = r.origin ∧ (t.slot k).queue = r.queue))) ∧
  (∀ (s : State) (stall : BitVec 7), let ls := stall.toNat
    s.stallDeadOrMoving ls = false →
    (∀ h i r, (s.lstall ls).reserved = none → s.queuedGang ls = some (h, i, r) → (s.pstall (s.physStall ls)).omuRetired = false →
      (s.withheld ls = true → r.resumes = true) →
      Acts (.gangStart stall) s [.tiles, .lstalls] [] (fun t => t.lstall ls = { s.lstall ls with reserved := some r } ∧
        (∀ j, j ≠ ls → t.lstall j = s.lstall j) ∧ t.tile h = { s.tile h with runq := (s.tile h).runq.eraseIdx i } ∧
        ∀ g, g ≠ h → t.tile g = s.tile g)) ∧
    (∀ r e args, (s.lstall ls).reserved = some r → (s.heldSlots ls).length = 16 → r.Plain e args →
      Acts (.gangStart stall) s [.lstalls, .parts, .caches] (s.heldSlots ls) (fun t => t.lstall ls = { s.lstall ls with reserved := none } ∧
        ∃ task, ∀ k ∈ s.heldSlots ls, Fresh s (t.slot k) r.part.toNat r.pcls r.asid e ∧ (t.slot k).holds args ∧
          (t.slot k).taskid = task ∧ (t.slot k).gang = r.gang))) ∧
  (∀ (s : State) (task : Word) (tile : BitVec 11) k w, s.findSlot task tile.toNat = some k → (s.slot k).seg.sealedCommit = true →
    s.commitBlocked (s.slot k) (homeOf k) = false → (s.slot k).phase = .waiting w →
    ((s.slot k).doomed = false → Completes (.sealedCommit task tile) s (fun t => t.mem = (s.commitSlot k).mem ∧
      (t.slot k).phase = .ready ∧ (t.slot k).committed = true ∧ (t.slot k).seg.sealedCommit = false ∧ (t.slot k).seg.version = [] ∧
      (t.slot k).pc = (s.slot k).pc ∧ (t.slot k).g = (s.slot k).g)) ∧
    ((s.slot k).doomed = true → Acts (.sealedCommit task tile) s [] [k] (fun t => t.slot k =
      { (s.slot k).woken with seg := { (s.slot k).seg with sealedCommit := false, release := none, opened := false } }))) ∧
  (∀ (s : State) (task : Word) (tile : BitVec 11) (lanes : BitVec 32) k p rd ra sz sp off v, let l := s.slot k
    s.findSlot task tile.toNat = some k → s.midSwap (stallOf (homeOf k)) = false → l.load = some p → l.kept = [] → l.phase = .waiting .load →
    l.pc = p.start → l.arrived = none → l.stepping = false → p.instr = .ld rd ra sz 0 sp off → p.size ≠ 0 → p.want = 1 → p.done = 0 →
    p.image = 0 → p.log = [] → lanes.getLsbD 0 = true → s.reply l (fget 0 p.addrs 0).toNat p.size = .ok (v, false) → v < 2 ^ 64 →
    Acts (.forwardedReply task tile lanes) s [.lines, .caches] [k] (fun t => (t.slot k).phase = .ready ∧ (t.slot k).pc = p.at' + 4 ∧
      (t.slot k).load = none ∧ (t.slot k).gr rd = (if rd = 0 then 0 else BitVec.ofNat 64 v) ∧ ∀ r, r ≠ rd → (t.slot k).gr r = l.gr r))

/-- Queue records, the dispenser, pre-emption and the graph unit (R301 to R314, R411): a record is fetched and starts its task or its graph;
a node is fetched, released by its last predecessor, and run by its kind; the record that comes next goes to a tile's run queue, or takes
the slot of a victim.
Of the model's choice in it: log entries 36, 37, 67 (notes/assumptions). -/
def Obligations.QueuesAndGraphs : Prop :=
  (∀ (s : State) (queue : BitVec 16), let q := queue.toNat
    let u := s.queue q
    let i := u.head.toNat % u.qlen
    let a := u.ring + 64 * i
    let x := s.rd a 64
    let taken := u.en = true ∧ u.head ≠ u.tail ∧ (u.ctail - u.chead).toNat < u.qlen
    let next : Queue := { u with head := u.head + 1, demands := fset 0 i 0 u.demands }
    (¬taken → exec (.queueRecordFetch queue) s = .next s) ∧
    (taken → s.poisoned a 64 = false → s.isLost a = false → s.Safe →
      (bits x 7 0 = 0 → bits x 63 8 = 0 → Acts (.queueRecordFetch queue) s [.queues, .parts] [] (fun t => t.queue q = next ∧
        (∀ j, j ≠ q → t.queue j = s.queue j) ∧ (∀ j, j ≠ u.part → t.part j = s.part j) ∧
        ∃ r args, (t.part u.part).waiting = (s.part u.part).waiting ++ [r] ∧ r.kind = .task (BitVec.ofNat 64 (bits x 127 64)) args ∧
          args.length = 6 ∧ (∀ j, j < 6 → args.getD j 0 = BitVec.ofNat 64 (bits x (64 * j + 191) (64 * j + 128))) ∧ r.pcls = u.pcls ∧
          r.asid = u.asid ∧ r.part.toNat = u.part ∧ r.origin = .queue q ∧ r.queue = some q)) ∧
      (bits x 7 0 = 1 → bits x 63 8 = 0 → Acts (.queueRecordFetch queue) s [.queues, .nodes] [] (fun t =>
        { t.queue q with deficit := u.deficit } = next ∧ (∀ j, j ≠ q → t.queue j = s.queue j) ∧
        ∃ n, t.nodes = s.nodes ++ [n] ∧ n.va = BitVec.ofNat 64 (bits x 127 64) ∧ n.asid = u.asid ∧
          n.queue = q ∧ n.part.toNat = u.part ∧ n.state = .fetching ∧ n.top = true ∧ n.parent = none)) ∧
      (2 ≤ bits x 7 0 ∨ bits x 63 8 ≠ 0 → Completes (.queueRecordFetch queue) s (fun t => (t.queue q).head = u.head + 1 ∧
        wbit (t.queue q).qerr 1 = true ∧ t.nodes = s.nodes ∧ ∀ p, (t.part p).waiting = (s.part p).waiting)))) ∧
  (∀ (s u : State) (part : BitVec 4) n x, s.nodes.find? (fun n => n.part == part && n.state == .fetching) = some n →
    (s.nodes.filter (fun u => u.part == part && u.inFlight)).length < 65536 → s.commandWaits n.access (n.va + 56).toNat = false →
    s.commandRead n.access 0 n.va 64 = .ok (u, x) → (∀ w ∈ s.nodes, w.va = n.va → w = n) →
    let m : Node := { n with image := BitVec.ofNat 512 x }
    m.broken = false → m.nsucc = 0 → m.ndeps = 0 → n.deps = 0 → n.bad = false →
    Completes (.graphNodeFetch part) s (fun t => t.nodeIs n .ready ∧ ∃ w ∈ t.nodes, w.gid = n.gid ∧ w.va = n.va ∧ w.bad = false ∧
      w.image.toNat = x % 2 ^ 512)) ∧
  (∀ (s t : State) (asid : BitVec 16) (node : Word) n u, (s.nodes.filter (fun n => n.is asid node)).findSome? s.nodeResult = some (t, n) →
    s.commandWaits n.access (n.va + 56).toNat = false → u ∈ s.nodes → u.gid = n.gid → u.va ≠ n.va →
    (∀ w ∈ s.nodes, w.gid = u.gid → w.va = u.va → w = u) → n.succs.count u.va = 1 → u.state = .waiting → u.bad = false → 1 ≤ u.deps →
    Completes (.nodeComplete asid node) s (fun t' => t'.nodeIs u (if u.deps = 1 then .ready else .waiting) ∧
      ∃ w ∈ t'.nodes, w.gid = u.gid ∧ w.va = u.va ∧ w.deps = u.deps - 1 ∧ w.bad = false)) ∧
  (∀ (s t u : State) (asid : BitVec 16) (node : Word) n h hd, s.nextFork asid node = some (n, t) → s.placeTile n.part.toNat (.node n) = some h →
    t.forkWorkers (s.nodeFork n) (stallOf h) h = some (u, hd) → Completes (.forkNode asid node) s (fun t' => t'.nodeIs n .running)) ∧
  (∀ (s : State) (asid : BitVec 16) (node : Word) n h, s.readyNode asid node 1 = some n → s.copyTile n.part.toNat = some h →
    ((s.tile h).chan 7).cmds.length < 4 → s.midSwap (stallOf h) = false →
    Acts (.copyNode asid node) s [.tiles, .parts, .nodes, .credits] [] (fun t => t.nodeIs n .running ∧ (∀ j, j ≠ h → t.tile j = s.tile j) ∧
      ∃ m : Command, ((t.tile h).chan 7).cmds = ((s.tile h).chan 7).cmds ++ [m] ∧ m.first = n.entry ∧ m.count = n.aux ∧
        m.node = some (asid, node) ∧ m.asid = asid ∧ m.part = n.part)) ∧
  (∀ (s u : State) (asid : BitVec 16) (node : Word) n, s.readyNode asid node 2 = some n → n.entry ≠ 0 →
    s.commandWaits n.access n.entry.toNat = false → s.putWord n.access 0 n.entry n.arg.toNat = .ok u →
    Completes (.signalNode asid node) s (fun t => t.mem = u.mem ∧ ∀ w ∈ t.nodes, w.gid = n.gid → w.va = n.va → w.state = .running)) ∧
  (∀ (s : State) (asid : BitVec 16) (node : Word) n, s.readyNode asid node 3 = some n →
    Acts (.graphNode asid node) s [.nodes] [] (fun t => ∃ m, m ∈ t.nodes ∧ m.va = n.entry ∧ m.asid = asid ∧ m.part = n.part ∧
      m.state = .fetching ∧ m.top = true ∧ m.parent = some (n.gid, n.va))) ∧
  (∀ (s t : State) (part : BitVec 4) r h, s.nextWork part.toNat = some (.record r, t) → s.placeTile part.toNat (.record r) = some h → s.Safe →
    Acts (.dispense part) s [.tiles, .parts] [] (fun u => u.tile h = { s.tile h with runq := (s.tile h).runq ++ [r] } ∧
      (∀ j, j ≠ h → u.tile j = s.tile j) ∧ (u.part part.toNat).waiting = (s.part part.toNat).waiting.erase r)) ∧
  (∀ (s t : State) (part : BitVec 4) r k, s.nextWork part.toNat = some (.record r, t) → r.gang = false →
    (∀ ls x, (s.lstall ls).reserved = some x → x.urgent = false) → r.since + (s.part part.toNat).cfg.prewait ≤ s.now →
    t.victim part.toNat r.pcls.toNat ((t.slots.map (fun e => e.1)).filter (fun k => s.ownsArcade part.toNat (k / 8 / 128) &&
      !(s.stallClosed (stallOf (k / 8))) && (s.leaseRoom [k / 8] r.lab r.lwb).isSome)) = some k →
    (s.slot k).gang = false → s.Safe →
    Acts (.preemption part) s [.parts] [k] (fun u => u.slot k = { s.slot k with stops := [.preempt], next := some r } ∧
      (u.part part.toNat).waiting = (s.part part.toNat).waiting.erase r))

/-! Steps of the device: heat, power and memory (chapters 4, 10 and 12). -/

/-- Rotation (R321 to R324), operating points (R396, R397), budgets (R400, R401), droop (R398), sensors (R399) and energy quotas (R402).
Of the model's choice in it: log entries 38, 41, 53, 68 (notes/assumptions). -/
def Obligations.RotationAndPower : Prop :=
  (∀ (s : State) (arcade : BitVec 4), let a := arcade.toNat
    let due := s.tickDue a
    (s.now < due → exec (.rotationTick arcade) s = .next s) ∧
    (∀ h c, due ≤ s.now → (s.arcade a).swap = none → s.rotation a = some (h, c) → s.swapBarred h c = false →
      Acts (.rotationTick arcade) s [.arcades] [] (fun t => (∀ j, j ≠ a → t.arcade j = s.arcade j) ∧
        t.arcade a = { s.arcade a with due := some (tickAfter a (s.arcade a).rotivl.toNat due)
                                       swap := some (s.logStall h, s.logStall c, due) })) ∧
    (due ≤ s.now → (s.arcade a).swap.isSome = true ∨ s.rotation a = none → Acts (.rotationTick arcade) s [.arcades] [] (fun t =>
      t.arcade a = { s.arcade a with due := some (tickAfter a (s.arcade a).rotivl.toNat due) }))) ∧
  (∀ (s : State) (arcade : BitVec 4) h c t0, let a := arcade.toNat
    (s.arcade a).swap = some (h, c, t0) → h / 8 = a → c / 8 = a → h ≠ c → (s.arcade a).map.length = 8 → (∀ x ∈ (s.arcade a).map, x < 8) →
    (∀ k, k / 128 = h ∨ k / 128 = c → let l := s.slot k
      l.hints = [] ∧ l.performing = false ∧ l.late = none ∧ ∀ g, l.phase ≠ .waiting (.gather g)) →
    (∀ x ∈ s.held, ∀ id cause ends key, x.who ≠ .credit id cause ends key) →
    Completes (.swapRelease arcade) s (fun t => (t.arcade a).swap = none ∧ t.physStall h = s.physStall c ∧ t.physStall c = s.physStall h ∧
      (∀ k, k ≠ h → k ≠ c → t.physStall k = s.physStall k) ∧ (t.pstall (s.physStall h)).settling = true ∧
      (t.pstall (s.physStall c)).settling = true ∧
      (∀ j, (t.tile j).ab = (s.tile j).ab ∧ (t.tile j).wb = (s.tile j).wb ∧ (t.tile j).cb = (s.tile j).cb) ∧
      (∀ i, i < 16 → (t.tile (h * 16 + i)).sendReq = (s.tile (c * 16 + i)).sendReq ∧ (t.tile (c * 16 + i)).sendReq = (s.tile (h * 16 + i)).sendReq) ∧
      ∀ k, (t.slot k).g = (s.slot k).g ∧ (t.slot k).pc = (s.slot k).pc ∧
        (k / 128 = h ∨ k / 128 = c → (s.slot k).phase = .waiting .idle → (t.slot k).phase = .ready))) ∧
  (∀ (s : State) (quad : BitVec 2), let q := quad.toNat
    let u := s.quad q
    let absent (present : Bool) (n : Nat) : Nat := if present then 0 else n
    let first := if u.thermal then u.thermalSteps else if u.overBudget then u.budgetSteps else if s.dev.moduleOver then u.moduleSteps else 0
    let left := max (absent u.thermal u.thermalSteps) (max (absent u.overBudget u.budgetSteps) (absent s.dev.moduleOver u.moduleSteps))
    let p := s.quadDemand q - max first left
    let others (t : State) : Prop := ∀ j, j ≠ q → t.quad j = s.quad j
    (p = u.point.toNat ∨ u.droop ≠ .normal → exec (.operatingPointChange quad) s = .next s) ∧
    (p ≠ u.point.toNat → u.droop = .normal → Completes (.operatingPointChange quad) s (fun t => others t ∧
      t.quad q = { u with point := BitVec.ofNat 3 p } ∧ ∀ h, t.tile h = s.tile h)) ∧
    (let stays (present : Bool) (since : Nat) : Prop := present = true ∨ s.now < since + 100000
      let down (steps : Nat) : Nat := min steps (s.quadDemand q) - 1
      Acts (.pointRaise quad) s [.quads] [] (fun t => others t ∧
        (stays u.thermal u.thermalAt → (t.quad q).thermalSteps = u.thermalSteps ∧ (t.quad q).thermalAt = u.thermalAt) ∧
        (¬stays u.thermal u.thermalAt → (t.quad q).thermalSteps = down u.thermalSteps ∧ (t.quad q).thermalAt = s.now) ∧
        (stays u.overBudget u.budgetAt → (t.quad q).budgetSteps = u.budgetSteps ∧ (t.quad q).budgetAt = u.budgetAt) ∧
        (¬stays u.overBudget u.budgetAt → (t.quad q).budgetSteps = down u.budgetSteps ∧ (t.quad q).budgetAt = s.now) ∧
        (stays s.dev.moduleOver u.moduleAt → (t.quad q).moduleSteps = u.moduleSteps ∧ (t.quad q).moduleAt = u.moduleAt) ∧
        (¬stays s.dev.moduleOver u.moduleAt → (t.quad q).moduleSteps = down u.moduleSteps ∧ (t.quad q).moduleAt = s.now) ∧
        (t.quad q).point = u.point)) ∧
    (∀ w : BitVec 16, let ws := (w.toNat :: u.watts).take 10
      (u.overBudget = false → sampleSum w.toNat u.watts ≤ 10 * s.dev.qb.getD q 110 → Acts (.quadrantPowerSample quad w) s [.quads] [] (fun t =>
        others t ∧ (t.quad q).overBudget = false ∧ (t.quad q).watts = ws ∧ (t.quad q).budgetSteps = u.budgetSteps)) ∧
      (u.overBudget = false → 10 * s.dev.qb.getD q 110 < sampleSum w.toNat u.watts → Completes (.quadrantPowerSample quad w) s (fun t =>
        others t ∧ (t.quad q).overBudget = true ∧ (t.quad q).overAt = s.now ∧ (t.quad q).watts = ws))) ∧
    (∀ supply drth, u.governs s.now drth → let th := drth.toNat
      let nominal := [620, 650, 680, 720, 760, 800, 850, 900].getD u.point.toNat 0
      (th = 0 ∨ nominal ≤ supply.toNat + 2 * th → exec (.droopAlarm quad supply) s = .next s) ∧
      (th ≠ 0 → supply.toNat + 2 * th < nominal → Acts (.droopAlarm quad supply) s [.quads] [] (fun t => others t ∧
        (t.quad q).droop = .stretch ∧ (t.quad q).alarms = min 0xFFFF (u.alarms + 1) ∧ (t.quad q).point = u.point))) ∧
    (u.droop = .stretch → Acts (.stretchEnd quad) s [.quads] [] (fun t => others t ∧ t.quad q = { u with droop := .throttle })) ∧
    (u.droop = .throttle → Completes (.throttleEnd quad) s (fun t => others t ∧
      t.quad q = { u with droop := .normal, alarms := 0, firstAlarm := 0 }))) ∧
  (∀ (s : State) (w : BitVec 16), let n := sampleSum w.toNat s.dev.watts
    (n ≤ 18000 → s.dev.moduleOver = false → Acts (.modulePowerSample w) s [.device] [] (fun t =>
      t.dev = { s.dev with watts := (w.toNat :: s.dev.watts).take 10 })) ∧
    (18000 < n → s.dev.moduleOver = false → Completes (.modulePowerSample w) s (fun t => t.dev.moduleOver = true ∧
      ∀ q, q < 4 → (t.quad q).moduleSteps = min 7 ((s.quad q).moduleSteps + 1)))) ∧
  (∀ (s : State) (ps : BitVec 7) (logic : BitVec 8) banks, (∀ b ∈ banks, b.toNat ≤ 95) → logic.toNat < 100 →
    (s.pstall ps.toNat).hot = false → (∀ k, (s.pstall k).temp.toNat < 115) → (s.quad (ps.toNat / 32)).thermal = false →
    Acts (.sensorSample ps logic banks) s [.pstalls] [] (fun t => (∀ k, k ≠ ps.toNat → t.pstall k = s.pstall k) ∧
      t.pstall ps.toNat = { s.pstall ps.toNat with temp := logic, bankTemp := (t.pstall ps.toNat).bankTemp } ∧
      ∀ i, i < 64 → fget 0 (t.pstall ps.toNat).bankTemp i = banks.getD i 0)) ∧
  (∀ (s : State) (ps : BitVec 7) (logic : BitVec 8) banks, 100 ≤ logic.toNat →
    Completes (.sensorSample ps logic banks) s (fun t => (t.pstall ps.toNat).hot = true ∧ (t.pstall ps.toNat).temp = logic ∧
      (115 ≤ logic.toNat → (t.quad (ps.toNat / 32)).thermal = true ∧ (t.quad (ps.toNat / 32)).thermalSteps = 7))) ∧
  (∀ (s : State) (quad : BitVec 2) (energy : BitVec 48) k, let l := s.slot k
    let n := energy.toNat * l.units / s.unitsIn quad.toNat
    (k, l) ∈ s.slots → l.phase ≠ .free → k / 8 / 512 = quad.toNat → l.units ≠ 0 → l.quota ≠ 0xFFFFFFFFFFFF → l.carry = (0, 1) →
    Completes (.energyCharge quad energy) s (fun t => (t.slot k).units = 0 ∧ (t.slot k).g = l.g ∧
      (n < l.quota.toNat → (t.slot k).quota.toNat = l.quota.toNat - n ∧ (t.slot k).debt = l.debt) ∧
      (l.quota.toNat ≤ n → l.quota ≠ 0 → (t.slot k).quota = 0 ∧ (t.slot k).debt = l.debt + BitVec.ofNat 64 (n - l.quota.toNat) ∧
        Stop.quota ∈ (t.slot k).stops)))

/-- The memories: bank operations (R101 to R104), refresh (R291), placement (R285), page exchanges (R286, R287), scout accesses (R283); and
errors and loss: correctable and uncorrectable errors (R295, R346), self-test (R347), lost units (R296), CXL memory (R299, R418).
Of the model's choice in it: log entries 18, 35, 39, 40, 59, 76 (notes/assumptions). -/
def Obligations.MemoriesAndErrors : Prop :=
  (∀ (s : State) (unit : BitVec 14) o rest x, fget [] s.bankops unit.toNat = o :: rest → s.writeWaits o.pa = false →
    s.walk o.part.toNat o.asid.toNat o.va.toNat = .ok x → s.deepGone x.pa = false → s.isLost x.pa = false →
    s.poisoned x.pa o.size = false → s.inTable (x.pa / 32) = false → s.inTable ((x.pa + o.size - 1) / 32) = false →
    (∀ a, s.inRxdir a = false) → (x.at' + 8 ≤ x.pa ∨ x.pa + o.size ≤ x.at') → o.size = 4 ∨ o.size = 8 →
    let n := 8 * o.size
    let old := s.rd x.pa o.size
    let applied (t : State) : Prop := fget [] t.bankops unit.toNat = rest ∧
      (∀ u, u ≠ unit.toNat → fget [] t.bankops u = fget [] s.bankops u) ∧
      ∀ a, a < x.pa ∨ x.pa + o.size ≤ a → a < x.at' ∨ x.at' + 8 ≤ a → t.byte a = s.byte a
    let l := s.slot o.slot
    let waits (rd : BitVec 4) (a : Word) : Prop := o.wants = true ∧ l.taskid = o.task ∧ l.phase = .waiting (.bankValue rd a) ∧ l.stepping = false
    let given (t : State) (rd : BitVec 4) (a : Word) : Prop := (t.slot o.slot).phase = .ready ∧ (t.slot o.slot).pc = a + 4 ∧
      (t.slot o.slot).hints = [] ∧ ∀ r, (t.slot o.slot).gr r = if r = 0 then 0 else if r = rd then BitVec.ofNat 64 old else l.gr r
    (o.op ≤ 7 → o.wants = false → Completes (.bankOpApply unit) s (fun t => applied t ∧
      t.rd x.pa o.size = (opResult n o.op (BitVec.ofNat n old) (BitVec.ofNat n o.b.toNat)).toNat)) ∧
    (∀ rd a, o.op = 8 → waits rd a → Completes (.bankOpApply unit) s (fun t => applied t ∧ given t rd a ∧
        t.rd x.pa o.size = if old = o.expect.toNat % 2 ^ n then o.b.toNat % 2 ^ n else old)) ∧
    (∀ rd a, o.op = 9 → waits rd a → Completes (.bankOpApply unit) s (fun t => applied t ∧ given t rd a ∧ (BitVec.ofNat n (t.rd x.pa o.size)).toInt =
        max (-(2 ^ (n - 1))) (min (2 ^ (n - 1) - 1) ((BitVec.ofNat n old).toInt + (BitVec.ofNat n o.b.toNat).toInt))))) ∧
  (∀ (s : State) (ps : BitVec 7) (bank : BitVec 6) busy, let d := fget 0 (s.pstall ps.toNat).debt bank.toNat
    Acts (.refreshRowDue ps bank busy) s [.pstalls] [] (fun t => (∀ k, k ≠ ps.toNat → t.pstall k = s.pstall k) ∧
      fget 0 (t.pstall ps.toNat).debt bank.toNat = (if busy = false then 0 else if d + 1 < 4 then d + 1 else d) ∧
      ∀ b, b ≠ bank.toNat → fget 0 (t.pstall ps.toNat).debt b = fget 0 (s.pstall ps.toNat).debt b)) ∧
  (∀ s : State, (s.now < s.dev.halved + 256000 → exec .placementHalving s = .next s) ∧
    (s.dev.halved + 256000 ≤ s.now → fwf {} s.place = true → Acts .placementHalving s [.place, .device] [] (fun t =>
      t.dev = { s.dev with halved := s.now } ∧ ∀ f, (fget {} t.place f).count.toNat = (fget {} s.place f).count.toNat / 2))) ∧
  (∀ (s : State) (quad : BitVec 2) (frame : BitVec 32) g, let q := quad.toNat
    let f := frame.toNat
    (s.quad q).exch = none → s.dev.ckBusy = false → s.exchanging f = false → s.isLost (f * 0x10000) = false → s.deepGone (f * 0x10000) = false →
    ((s.moves f).filter (fun p => s.movable f p.kind)).findSome? (s.destination q f) = some g →
    Acts (.pageExchangeStart quad frame) s [.quads, .lines] [] (fun t => ∃ e, (t.quad q).exch = some e ∧ e.a = f ∧ e.b = g ∧
      (∀ j, j ≠ q → t.quad j = s.quad j) ∧ ∀ l ∈ e.leaves, ∃ m ∈ s.leaves, (m.1 = f ∨ m.1 = g) ∧ l.1 = m.2.2.2.2)) ∧
  (∀ (s : State) (quad : BitVec 2) e, let q := quad.toNat
    let leaves := s.leavesOf e.a ++ s.leavesOf e.b
    (s.quad q).exch = some e →
    (s.dev.ckBusy = true → exec (.pageExchangeCommit quad) s = .next s) ∧
    (s.dev.ckBusy = false → s.nothingWaits → s.leavesStand e = false →
      Acts (.pageExchangeCommit quad) s [.quads] [] (fun t => t.quad q = { s.quad q with exch := none })) ∧
    (s.dev.ckBusy = false → s.nothingWaits → s.leavesStand e = true → s.Safe → e.a ≠ e.b → e.a < 2 ^ 32 → e.b < 2 ^ 32 → (leaves.map (fun x => x.1)).Nodup →
      (∀ x ∈ leaves, x.1 % 8 = 0 ∧ x.1 / 0x10000 ≠ e.a ∧ x.1 / 0x10000 ≠ e.b ∧ (bits (s.rd x.1 8) 47 16 = e.a ∨ bits (s.rd x.1 8) 47 16 = e.b)) →
      Acts (.pageExchangeCommit quad) s [.quads, .memory, .poison, .lines, .place, .walks, .bankops] [] (fun t =>
        (t.quad q).exch = none ∧
        (∀ i, i < 0x10000 → t.byte (e.a * 0x10000 + i) = s.byte (e.b * 0x10000 + i) ∧ t.byte (e.b * 0x10000 + i) = s.byte (e.a * 0x10000 + i)) ∧
        (∀ x ∈ leaves, bits (t.rd x.1 8) 47 16 = (if bits (s.rd x.1 8) 47 16 = e.a then e.b else e.a) ∧
          bits (t.rd x.1 8) 15 0 = bits (s.rd x.1 8) 15 0) ∧
        ∀ a, a / 0x10000 ≠ e.a → a / 0x10000 ≠ e.b → (∀ x ∈ leaves, a < x.1 ∨ x.1 + 8 ≤ a) → t.byte a = s.byte a))) ∧
  (∀ (s : State) (ps : BitVec 7) (asid : BitVec 16) va, let p := s.partOfArcade (ps.toNat / 8)
    let w := s.translate p asid.toNat va.toNat false
    let counted := Acts (.scoutAccess ps asid va) s [.pstalls, .walks] [] (fun t =>
      t.pstall ps.toNat = { s.pstall ps.toNat with pfDrops := (s.pstall ps.toNat).pfDrops + 1 } ∧ ∀ k, k ≠ ps.toNat → t.pstall k = s.pstall k)
    let block := va.toNat / 128
    let run (r : MissRun) : Prop := r ∈ fget [] s.misses ps.toNat ∧ r.part = p ∧ r.asid = asid.toNat ∧ 2 ≤ r.length ∧ r.block < block ∧ block ≤ r.block + 4
    (s.scoutFor ps.toNat p asid.toNat va.toNat = none → exec (.scoutAccess ps asid va) s = .next s) ∧
    ((∀ r, ¬run r) → (∀ h, stallOf h = s.logStall ps.toNat → ∀ c ∈ (s.tile h).chans, ∀ m, c.2.cmds.head? = some m → m.begun = false) →
      (∀ k g, stallOf (homeOf k) = s.logStall ps.toNat → (s.slot k).phase ≠ .waiting (.gather g)) → exec (.scoutAccess ps asid va) s = .next s) ∧
    (∀ r, run r → (∀ q, run q → q.pl = r.pl) → s.scoutFor ps.toNat p asid.toNat va.toNat = some r.pl) ∧
    (∀ pl, s.scoutFor ps.toNat p asid.toNat va.toNat = some pl →
      (∀ c, w = .error c → counted) ∧
      (∀ u x, w = .ok (u, x) →
        let bad : Prop := (x.rdok = false ∨ (x.priv = true ∧ pl = 0) ∨ s.poisoned (x.pa / 32 * 32) 32 = true ∨ s.deepGone x.pa = true);
        (bad → counted) ∧
        (¬bad → Acts (.scoutAccess ps asid va) s [.walks, .lines, .caches] [] (fun t =>
          (t.cacheBits ps.toNat p asid.toNat (va.toNat / 32)).isSome = true ∧
          ((s.cacheBits ps.toNat p asid.toNat (va.toNat / 32)).isSome = true → t.caches = s.caches)))))) ∧
  (∀ (s : State) (ps : BitVec 7) place word, Completes (.correctableError ps place word) s (fun t =>
    (t.pstall ps.toNat).ceCount = (s.pstall ps.toNat).ceCount + 1 ∧ t.mem = s.mem ∧ t.poison = s.poison ∧
    (s.dev.lastCe.find? (fun e => e.1 == place && e.2.1 == word) = none → t.dev.tests = s.dev.tests) ∧
    (∀ e u n, s.dev.lastCe.find? (fun e => e.1 == place && e.2.1 == word) = some e → s.now < e.2.2 + 1000000000 → s.unitAt place = some (u, n) →
      t.testing u n = true))) ∧
  (∀ (s : State) (pa : BitVec 48), s.storage pa.toNat = .near ∨ s.storage pa.toNat = .hbm →
    Acts (.uncorrectableError (.memory pa)) s [.poison, .device] [] (fun t => fget false t.poison (pa.toNat / 32) = true ∧ t.lost = s.lost ∧
      (∀ g, g ≠ pa.toNat / 32 → fget false t.poison g = fget false s.poison g) ∧ ∀ u n, s.testUnit pa.toNat = some (u, n) → t.testing u n = true)) ∧
  (∀ (s : State) (tile : BitVec 11) (sp : BitVec 2) (off : BitVec 18), sp = 1 ∨ sp = 2 →
    (∀ k, (s.slot k).late = none ∧ ∀ g, (s.slot k).phase ≠ .waiting (.gather g)) →
    Completes (.uncorrectableError (.buffer tile sp off)) s (fun t =>
      fget 0 (t.tile tile.toNat).marked (sp.toNat * 2 ^ 18 + off.toNat / 4 * 4) = 15 ∧ t.testing .tile (s.physTile tile.toNat) = true ∧
      t.mem = s.mem)) ∧
  (∀ (s : State) (unit : UnitKind) (number : BitVec 32) (pass : Bool) c addr, let n := number.toNat
    s.dev.tests.find? (fun t => t.1 == unit && t.2.1 == n) = some (unit, n, c, addr) → s.unitSwapping unit n = false →
    Completes (.selfTestComplete unit number pass) s (fun t => t.testing unit n = false ∧
      (pass = true → s.errorCount unit n < 3 → t.lost = s.lost ∧ t.lstalls = s.lstalls) ∧
      (pass = false → unit = .omu → (t.pstall n).omuRetired = true) ∧
      (pass = false → unit = .tile → (t.pstall (n / 16)).retired = true ∧ (t.lstall (s.logStall (n / 16))).dead = true) ∧
      (pass = false → unit ≠ .omu → unit ≠ .tile → ∀ k ∈ lossKeys unit n, fget false t.lost k = true))) ∧
  (∀ (s : State) (unit : UnitKind) (number : BitVec 32), unit ≠ .tile → unit ≠ .omu →
    Completes (.bankLoss unit number) s (fun t => ∀ k ∈ lossKeys unit number.toNat, fget false t.lost k = true)) ∧
  (∀ s : State, s.dev.cxlLink = true → Completes .cxlRemoval s (fun t => t.dev.cxlGone = true ∧ t.dev.cxlLink = false ∧ t.dev.cxlIn = false)) ∧
  (∀ s : State, s.dev.cxlPort1 = true → Acts .cxlInsertion s [.device] [] (fun t =>
    t.dev = { s.dev with cxlLink := true, portDown := s.dev.portDown &&& 1 }))

/-! Steps of the device: the fabric, the host and the module (chapters 11 and 12). -/

/-- The hops of a bundle (R379, R381) and its lanes (R384 to R388): acknowledgements, the flits and tags that arrive, retraining, weights and
resynchronisation. A hop that has no room discards what comes, with NAK.
Of the model's choice in it: log entries 43, 69 (notes/assumptions). -/
def Obligations.FabricLinks : Prop :=
  (∀ (s : State) (head : CtlHead) (b : BitVec 4) (vc : BitVec 3) (seq : BitVec 16), s.ctlStale head = false → s.tx = [] →
    let x := s.bundle b.toNat
    let c := x.chan vc.toNat
    ∀ before e after, c.queue = [] → c.replay = before ++ [e] ++ after → e.seq = seq → (∀ y ∈ before, y.seq ≠ seq) →
      Acts (.ack head b vc seq) s [.fabric, .device] [] (fun t => (t.bundle b.toNat).chan vc.toNat = { c with replay := after } ∧ Heard s t ∧
        ∀ j, j ≠ b.toNat → t.bundle j = s.bundle j) ∧
      Acts (.nak head b vc seq) s [.fabric, .device] [] (fun t => Heard s t ∧
        (t.bundle b.toNat).chan vc.toNat = { c with replay := (e :: after).map (fun y => { y with lane := x.pickLane vc y.seq }) } ∧
        ∀ j, j ≠ b.toNat → t.bundle j = s.bundle j)) ∧
  (∀ (s : State) (head : CtlHead) (b : BitVec 4) (vc : BitVec 3) (seq : BitVec 16), s.ctlStale head = true →
    exec (.ack head b vc seq) s = .next s ∧ exec (.nak head b vc seq) s = .next s) ∧
  (∀ (s : State) (b : BitVec 4) (vc : BitVec 3), let c := (s.bundle b.toNat).chan vc.toNat
    (c.nakWait = false → exec (.nakRepeat b vc) s = .next s) ∧
    (c.nakWait = true → Acts (.nakRepeat b vc) s [.device] [] (fun t => Sends s t 0x02 (OnHop b.toNat) [vc.toNat, c.rxNext.toNat])) ∧
    (c.unacked = 0 → exec (.ackTimer b vc) s = .next s) ∧
    (c.unacked ≠ 0 → Acts (.ackTimer b vc) s [.device, .fabric] [] (fun t => (t.bundle b.toNat).chan vc.toNat = { c with unacked := 0 } ∧
      Sends s t 0x01 (OnHop b.toNat) [vc.toNat, (c.rxNext - 1).toNat]))) ∧
  (∀ (s : State) (b lane : BitVec 4) (raw : BitVec 512) (f : Flit), readFlit raw = some (.store f) → f.src ≠ s.dev.devno → f.dst ≠ s.dev.devno →
    let c := (s.bundle b.toNat).chan f.cls.toNat
    let full := Config.hopFull s.steps
    c.nakWait = false → c.early = [] → f.seq = c.rxNext → c.unacked ≠ 255 →
    Acts (.storeFlit b lane raw) s [.fabric, .device] [] (fun t =>
      (full = false → t.dev = s.dev ∧ (t.bundle b.toNat).chan f.cls.toNat = { c with rxNext := c.rxNext + 1, unacked := c.unacked + 1 }) ∧
      (full = true → Sends s t 0x02 (OnHop b.toNat) [f.cls.toNat, c.rxNext.toNat] ∧
        (t.bundle b.toNat).chan f.cls.toNat = { c with nakWait := true }))) ∧
  (∀ (s : State) (b lane : BitVec 4) (raw : BitVec 512) (f : Flit), readFlit raw = some (.store f) → f.src ≠ s.dev.devno →
    let c := (s.bundle b.toNat).chan f.cls.toNat
    Config.hopFull s.steps = true ∨ 0x8000 ≤ (f.seq - c.rxNext).toNat → c.nakWait = true → exec (.storeFlit b lane raw) s = .next s) ∧
  (∀ (s : State) (b lane : BitVec 4) (raw : BitVec 512), crcGood raw = false →
    let vc := wireClass raw
    let c := (s.bundle b.toNat).chan vc.toNat
    Acts (.storeFlit b lane raw) s [.fabric, .device] [] (fun t =>
      t.laneErrors b.toNat lane.toNat = s.laneErrors b.toNat lane.toNat + 1 ∧
      (c.nakWait = true → t.dev = s.dev ∧ (t.bundle b.toNat).chan vc.toNat = c) ∧
      (c.nakWait = false → (t.bundle b.toNat).chan vc.toNat = { c with nakWait := true } ∧
        Sends s t 0x02 (OnHop b.toNat) [vc.toNat, c.rxNext.toNat]))) ∧
  (∀ (s : State) (b lane : BitVec 4) (raw : BitVec 512) (f : Flit) p, readFlit raw = some (.store f) →
    let c := (s.bundle b.toNat).chan f.cls.toNat
    let cfg := (s.part f.tpart.toNat).cfg
    let base := cfg.rxbase.toNat + f.off.toNat
    let entry := cfg.rxdir.toNat + 16 * (f.off.toNat / 0x10000)
    let lf := f.lfmt.toNat
    let lb := localBytes lf
    f.src ≠ s.dev.devno → f.dst = s.dev.devno → fget false s.gone f.src.toNat = false → s.dev.ckBusy = false →
    c.early = [] → f.seq = c.rxNext → c.unacked ≠ 255 →
    s.rxPath f.src f.cls = some p → p.next = f.eseq.toNat → p.floor ≤ p.next → p.done ≤ p.next →
    p.held = [] → p.failed = [] → p.tags = [] → f.sealedStore = false →
    f.src.toNat / 256 = s.dev.devno.toNat / 256 → lf ≤ 6 → f.off.toNat + spanBytes lf ≤ cfg.rxlen * 0x10000 →
    s.dev.cxlGone = false → (base + spanBytes lf ≤ entry ∨ entry + 16 ≤ base) → base % 32 = 0 →
    Completes (.storeFlit b lane raw) s (fun t => Config.hopFull s.steps = false →
      (∀ i, i < spanBytes lf / lb → f.mask.getLsbD i = true → t.rd (base + i * lb) lb =
        widen lf (bits f.data.toNat (8 * linkBytes lf * i + 8 * linkBytes lf - 1) (8 * linkBytes lf * i)) % 256 ^ lb) ∧
      (∀ i, i < spanBytes lf / lb → f.mask.getLsbD i = false → t.rd (base + i * lb) lb = s.rd (base + i * lb) lb) ∧
      t.rd entry 4 = (if fget false s.dev.senders entry then s.rd entry 4 else f.src.toNat) ∧ fget false t.dev.senders entry = true ∧
      t.rd (entry + 4) 4 = s.rd (entry + 4) 4 ∧
      t.rd (entry + 8) 8 = (s.rd (entry + 8) 8 + 1) % 2 ^ 64 ∧
      (∀ a, a < base ∨ base + spanBytes lf ≤ a → a < entry ∨ entry + 16 ≤ a → t.byte a = s.byte a) ∧
      (∃ q, t.rxPath f.src f.cls = some q ∧ q.next = p.next + 1 ∧ q.done = p.next + 1 ∧ q.held = []) ∧
      (∃ x, t.dev.ctl = x :: s.dev.ctl ∧ x.op = 0x10 ∧ x.args = [f.cls.toNat, f.eseq.toNat] ∧ ToEnd f.src x.route))) ∧
  (∀ (s : State) (b lane : BitVec 4) (raw : BitVec 512) (g : TagFlit) p, readFlit raw = some (.tag g) →
    let c := (s.bundle b.toNat).chan g.cls.toNat
    g.src ≠ s.dev.devno → g.dst = s.dev.devno → c.early = [] → g.seq = c.rxNext → c.unacked ≠ 255 →
    fget false s.gone g.src.toNat = false → g.n ≠ 0 → g.n.toNat ≤ 8 →
    s.rxPath g.src g.cls = some p → p.next ≤ g.eseq.toNat → p.floor ≤ p.next → p.held = [] → p.failed = [] → p.tags = [] →
    Acts (.tagFlit b lane raw) s [.fabric, .device] [] (fun t => Config.hopFull s.steps = false →
      t.dev = s.dev ∧ t.rxPath g.src g.cls = some { p with tags := [g] })) ∧
  (∀ (s : State) (head : CtlHead) (b lane : BitVec 4), let l := (s.bundle b.toNat).lane lane.toNat
    let now (t : State) : Lane := (t.bundle b.toNat).lane lane.toNat
    let others (t : State) : Prop := (∀ j, j ≠ b.toNat → t.bundle j = s.bundle j) ∧
      ∀ i, i ≠ lane.toNat → (t.bundle b.toNat).lane i = (s.bundle b.toNat).lane i
    let out : Lane := { l with weight := 0, retraining := true, errs := [] }
    let sent (t : State) (before : List CtlFlit) : Prop := ∃ c, t.dev.ctl = c :: before ∧ c.op = 0x04 ∧ c.args = [(t.bundle b.toNat).weights] ∧
      OnHop b.toNat c.route
    (lane.toNat < 9 → l.dark = false → l.retired = false → 16 < s.laneErrors b.toNat lane.toNat →
      Acts (.laneRetrain b lane false) s [.fabric, .device] [] (fun t => others t ∧ now t = out ∧ sent t s.dev.ctl)) ∧
    (lane.toNat < 9 → l.dark = false → l.retired = false → Acts (.laneRetrain b lane true) s [.fabric, .device] [] (fun t => others t ∧
      now t = out ∧ ∃ r, r.op = 0x03 ∧ r.args = [2 ^ lane.toNat] ∧ OnHop b.toNat r.route ∧ sent t (r :: s.dev.ctl))) ∧
    (l.dark = true ∨ s.laneErrors b.toNat lane.toNat ≤ 16 → exec (.laneRetrain b lane false) s = .next s) ∧
    (lane.toNat < 9 → l.retired = false → s.ctlStale head = false → Acts (.rrf head b (1#9 <<< lane.toNat)) s [.fabric, .device] [] (fun t =>
      others t ∧ now t = out ∧ sent t s.dev.ctl)) ∧
    (lane.toNat < 9 → l.retraining = true → Acts (.retrainComplete b lane true) s [.fabric] [] (fun t => others t ∧
      now t = { l with retraining := false })) ∧
    (lane.toNat < 8 → l.retraining = true → ((s.bundle b.toNat).lane 8).retraining = false →
      (∀ i, ((s.bundle b.toNat).lane i).retired = false) →
      Acts (.retrainComplete b lane false) s [.fabric] [] (fun t => now t = { l with weight := 0, retraining := false, retired := true } ∧
        ((t.bundle b.toNat).lane 8).weight = 8)) ∧
    (lane.toNat < 8 → l.retraining = false → l.retired = false → l.weight.toNat < 8 →
      Acts (.laneWeightStep b lane) s [.fabric] [] (fun t => others t ∧ now t = { l with weight := l.weight + 1 })) ∧
    (lane.toNat ≤ 8 → l.dark = true → s.dev.sourceLost s.dev.source = false →
      Acts (.laneResync b lane) s [.fabric] [] (fun t => others t ∧ now t = { l with dark := false } ∧ ∀ c : BitVec 3,
        ((t.bundle b.toNat).chan c.toNat).replay = ((s.bundle b.toNat).chan c.toNat).replay.map (fun e =>
          { e with lane := (t.bundle b.toNat).pickLane c e.seq }))) ∧
    (l.dark = false → exec (.laneResync b lane) s = .next s)) ∧
  (∀ (s : State) (head : CtlHead) (b : BitVec 4) (w : BitVec 36), s.ctlStale head = false →
    let l (i : Nat) : Lane := (s.bundle b.toNat).lane i
    let told (i : Nat) : BitVec 4 := (w >>> (4 * i)).setWidth 4
    let keeps (i : Nat) : Prop := (l i).retired = true ∨ (l i).retraining = true
    let leaves (i : Nat) : Prop := ¬keeps i ∧ told i = 0 ∧ (l i).weight ≠ 0
    Acts (.lanest head b w) s [.fabric, .device] [] (fun t => (∀ j, j ≠ b.toNat → t.bundle j = s.bundle j) ∧
      (∀ i, i < 9 → (keeps i → (t.bundle b.toNat).lane i = l i) ∧
        (leaves i → (t.bundle b.toNat).lane i = { l i with weight := 0, retraining := true, errs := [] }) ∧
        (¬keeps i → ¬leaves i → (t.bundle b.toNat).lane i = { l i with weight := told i })) ∧
      ((∀ i, i < 9 → ¬leaves i) → Heard s t) ∧
      (∀ i, i < 9 → leaves i → ∃ c, t.dev.ctl = c :: s.dev.ctl ∧ c.op = 0x04 ∧ c.args = [(t.bundle b.toNat).weights] ∧ OnHop b.toNat c.route)))

/-- The paths: confirmations and failures at the sender (R375, R376), resynchronisation and tags that do not come (R372, R373), groups and keys
(R374), and devices that go and come (R389 to R393). After a failed route a path takes another up port.
Of the model's choice in it: log entries 42, 43, 69 (notes/assumptions). -/
def Obligations.FabricPaths : Prop :=
  (∀ (s : State) (head : CtlHead) (cls : BitVec 3) x w, let dev := head.src
    dev ≠ s.dev.devno → s.txPath dev cls = some x → x.stores = [w] → w.sent = true →
    let settled (t : State) (moved : Bool) : Prop :=
      t.txPath dev cls = some { x with stores := [], port := if moved then none else x.port, avoid := if moved then x.port else x.avoid }
    (∀ e : BitVec 32, s.ctlStale head = false → w.flit.eseq.toNat ≤ e.toNat → Acts (.applied head cls e) s [.fabric, .credits, .device] [] (fun t =>
      settled t false ∧ Heard s t ∧ t.reflRec w.task = { s.reflRec w.task with outstanding := (s.reflRec w.task).outstanding - 1 })) ∧
    (∀ c : BitVec 8, s.ctlStale head = false → c ≠ 0 → Completes (.fail head cls w.flit.eseq w.flit.eseq c) s (fun t => settled t (c == 0xA1) ∧
      (t.reflRec w.task).outstanding = (s.reflRec w.task).outstanding - 1 ∧
      (t.reflRec w.task).failed = min 0xFFFF ((s.reflRec w.task).failed + 1) ∧
      ((s.reflRec w.task).cause = 0 → (t.reflRec w.task).cause = c) ∧
      (c = 0xA1 → ∃ y, t.dev.ctl = y :: s.dev.ctl ∧ y.op = 0x12 ∧ y.args = [cls.toNat, w.flit.eseq.toNat + 1] ∧ ToEnd dev y.route))) ∧
    (∀ (e f : BitVec 32) (c : BitVec 8), s.ctlStale head = true → exec (.applied head cls e) s = .next s ∧ exec (.fail head cls e f c) s = .next s) ∧
    (w.sentAt + 5000000 ≤ s.now → Completes (.storeTimeout dev cls) s (fun t => settled t true ∧
      (t.reflRec w.task).failed = min 0xFFFF ((s.reflRec w.task).failed + 1) ∧
      ∃ y, t.dev.ctl = y :: s.dev.ctl ∧ y.op = 0x12 ∧ y.args = [cls.toNat, w.flit.eseq.toNat + 1] ∧ ToEnd dev y.route)) ∧
    (s.now < w.sentAt + 5000000 → exec (.storeTimeout dev cls) s = .next s)) ∧
  (∀ (s : State) (head : CtlHead) (cls : BitVec 3) p, let dev := head.src
    s.rxPath dev cls = some p → p.failed = [] → p.groups = [] → p.tags = [] → s.dev.ckBusy = false → p.floor ≤ p.next →
    (∀ e : BitVec 32, s.ctlStale head = false → p.next < e.toNat → p.held = [] → Acts (.resync head cls e) s [.fabric, .device] [] (fun t =>
      Heard s t ∧ t.rxPath dev cls = some { p with next := e.toNat, floor := e.toNat })) ∧
    (∀ f, p.held = [f] → f.sealedStore = true → f.eseq.toNat = p.next →
      Acts (.tagTimeout dev cls) s [.fabric, .device] [] (fun t => t.rxPath dev cls = some { p with next := p.next + 1, held := [] } ∧
        Sends s t 0x11 (ToEnd dev) [cls.toNat, p.next, p.next, 0xA3]))) ∧
  (∀ (s : State) (dev : BitVec 18) (cls : BitVec 3) x, s.txPath dev cls = some x →
    (x.group.2 = 0 → exec (.groupClose dev cls) s = .next s) ∧
    (x.group.2 ≠ 0 → Acts (.groupClose dev cls) s [.fabric] [] (fun t => t.txPath dev cls = some { x with group := (0, 0) })) ∧
    (∀ w b, let c := (s.bundle b).chan cls.toNat
      x.stores = [w] → w.sent = true → x.group = (w.flit.eseq.toNat, 1) → dev ≠ s.dev.devno → s.pathPort x = some b → c.queue = [] →
      c.replay.length < 4096 → Completes (.groupClose dev cls) s (fun t => ∃ e g, ((t.bundle b).chan cls.toNat).replay = c.replay ++ [e] ∧
        e.seq = c.next ∧ e.item = .tag g ∧ g.seq = c.next ∧ g.n = 1 ∧ g.eseq = w.flit.eseq ∧ g.dst = dev)) ∧
    (dev ≠ s.dev.devno → x.ready = false → (∀ w ∈ x.stores, w.sent = false) → fget false s.gone dev.toNat = false →
      Acts (.pathReestablishment dev cls) s [.fabric, .device] [] (fun t => ∃ a,
        t.txPath dev cls = some { x with ready := true, next := 0, group := (0, 0), mine := some a, peer := none, port := none, avoid := none } ∧
        Sends s t 0x15 (ToEnd dev) [cls.toNat, a.toNat])) ∧
    (∀ (head : CtlHead) v, head.src = dev → s.ctlStale head = false → dev ≠ s.dev.devno → x.ready = true → x.mine.isSome = true → x.peer = none →
      x.stores = [] → Acts (.keyx head true cls v) s [.fabric, .device] [] (fun t => Heard s t ∧ t.txPath dev cls = some { x with peer := some v }))) ∧
  (∀ (s : State) (head : CtlHead) (cls : BitVec 3) v, head.src ≠ s.dev.devno → s.ctlStale head = false →
    Acts (.keyx head false cls v) s [.fabric, .device] [] (fun t => ∃ b : BitVec 64,
      t.rxPath head.src cls = some { src := head.src, cls := cls, salt := (v, b) } ∧ t.tx = s.tx ∧
      Sends s t 0x15 (ToEnd head.src) [cls.toNat, b.toNat])) ∧
  (∀ (s : State) (head : CtlHead) (dev : BitVec 18), dev ≠ s.dev.devno → s.dev.ckBusy = false →
    let gone (t : State) : Prop := fget false t.gone dev.toNat = true ∧ (∀ d, d ≠ dev.toNat → fget false t.gone d = fget false s.gone d) ∧
      ∀ x ∈ t.tx, x.dst = dev → x.stores = []
    (fget false s.gone dev.toNat = true → s.ctlStale head = false → Acts (.gone head dev) s [.device] [] (fun t => Heard s t)) ∧
    (fget false s.gone dev.toNat = true → exec (.deviceGone dev) s = .next s) ∧
    (fget false s.gone dev.toNat = false → s.ctlStale head = false → Completes (.gone head dev) s gone) ∧
    (fget false s.gone dev.toNat = false → Completes (.deviceGone dev) s (fun t => gone t ∧
      ∃ more c, t.dev.ctl = more ++ c :: s.dev.ctl ∧ c.op = 0x13 ∧ c.args = [dev.toNat] ∧ Floods c.route)) ∧
    (s.ctlStale head = false → Completes (.hello head dev) s (fun t => fget false t.gone dev.toNat = false ∧
      (∀ x ∈ t.tx, x.dst = dev → x.ready = false ∧ x.next = 0 ∧ x.mine = none ∧ x.peer = none) ∧
      ∀ x ∈ t.rx, x.src = dev → x.next = 0 ∧ x.held = [])) ∧
    (s.ctlStale head = true → exec (.gone head dev) s = .next s ∧ exec (.hello head dev) s = .next s)) ∧
  (∀ (s : State) (dev : BitVec 18), Acts (.moduleInsertion dev) s [.fabric, .device] [] (fun t => t.bundles = [] ∧
    ∃ r, Floods r ∧ t.dev = { s.dev with
      devno := dev, cid := s.dev.cid + 1, ctl := { op := 0x14, route := r, cid := s.dev.cid, args := [dev.toNat] } :: s.dev.ctl }))

/-- Reset and boot (R414 to R416), checkpoints (R417), and what the controller reports (R418): a cold reset empties the slots and
configures the partitions from the record, reporting each step, or holds the module, on which then nothing but a cold reset acts; with both
host links down no access of the host comes; a checkpoint copies memory to its image and restores from it.
Of the model's choice in it: log entries 3, 44, 45 (notes/assumptions). -/
def Obligations.ModuleControl : Prop :=
  (∀ (s : State) rec rhos down,
    (recordOk rec s.dev.version = true → Completes (.coldReset rec [] rhos down) s (fun t => t.slots = [] ∧ t.queues = [] ∧ t.nodes = [] ∧
      t.parts = rec.parts.map (fun p => ({ cfg := p } : Part)) ∧ t.dev.held = false ∧ t.dev.version = rec.version ∧
      t.dev.portDown = down ∧ t.dev.cxlLink = (rec.cxlPort1 && !(down.getLsbD 1)) ∧ (∀ p, p < 2 → down.getLsbD p = true → 6 + p ∈ t.dev.reports) ∧
      (∀ n, 1 ≤ n → n ≤ 6 → 16 + n ∈ t.dev.reports) ∧
      (∀ k, k < 128 → wbit (t.pstall k).omustat 20 = true) ∧ ∀ ls, ls < 128 → t.physStall ls = ls)) ∧
    (recordOk rec s.dev.version = false → Completes (.coldReset rec [] rhos down) s (fun t => t.slots = [] ∧ t.dev.held = true ∧ 1 ∈ t.dev.reports)) ∧
    (∀ retired, s.dev.held = false → exec (.resetCold rec retired rhos down) s = exec (.coldReset rec retired rhos down) s) ∧
    (∀ retired, s.dev.held = true → exec (.resetCold rec retired rhos down) s = .next s)) ∧
  (∀ (s : State) e, (s.dev.held = true → isColdReset e = false → s.admits e = false) ∧
    (s.dev.portDown = 3 → isBarAccess e = true → s.admits e = false)) ∧
  (∀ (s : State) (part : BitVec 4), let p := part.toNat
    s.Safe → Completes (.partitionReset part) s (fun t => (t.part p).peqHead = 0 ∧ (t.part p).peqTail = 0 ∧ (t.part p).dbgctl = 0 ∧
      (t.part p).waiting = [] ∧ (∀ k r, (t.slot k).next = some r → r.part ≠ part) ∧ (t.part p).cfg = (s.part p).cfg ∧ (∀ n ∈ t.nodes, n.part ≠ part) ∧
      (∀ q, (s.queue q).part = p → (t.queue q).en = false) ∧
      (s.cells = [] → (∀ k, (s.slot k).gang = false) → ∀ k, (t.slot k).phase ≠ .free → (t.slot k).part ≠ p))) ∧
  (∀ s : State,
    (s.dev.ckBusy = true → Acts .checkpointStart s [.device] [] (fun t => t.dev = { s.dev with ckIgnored := true })) ∧
    (s.dev.ckBusy = false → s.Safe → 0x0200_0000_0000 ≤ s.dev.ckBase → Acts .checkpointStart s [.memory, .poison, .lines, .device] [] (fun t =>
      t.dev = { s.dev with ckBusy := true, ckValid := false } ∧ t.dirty = [] ∧ imageHolds s t ∧
      ∀ a, a < s.dev.ckBase ∨ s.dev.ckBase + 520589934592 ≤ a → t.byte a = s.byte a)) ∧
    (∀ us, s.dev.ckBusy = true → Completes (.checkpointComplete us) s (fun t => t.dev.ckBusy = false ∧ t.dev.ckValid = true ∧ t.dev.ckMicros = us)) ∧
    (∀ us, s.dev.ckBusy = false → exec (.checkpointComplete us) s = .next s) ∧
    (s.pristine = true → s.dev.ckBusy = false → s.Safe → 0x0200_0000_0000 ≤ s.dev.ckBase →
      Acts .checkpointRestore s [.memory, .poison, .lines] [] (fun t => imageHolds t s ∧ t.dirty = [] ∧ t.lost = s.lost)) ∧
    (s.pristine = false → exec .checkpointRestore s = .next s)) ∧
  (∀ s : State,
    Completes .latchRelease s (fun t => (∀ b, b < 16 → (t.bundle b).down = true) ∧ 5 ∈ t.dev.reports) ∧
    Acts .coolantOvertemp s [.quads, .device] [] (fun t => (∀ q, q < 4 → t.quad q = { s.quad q with thermalSteps := 7, thermalAt := s.now }) ∧ 3 ∈ t.dev.reports) ∧
    Acts .leak s [.device] [] (fun t => t.dev = { s.dev with reports := 4 :: s.dev.reports }))

/-- Kill, halt and the debugger's requests (R343, R345, R408): a request reaches every slot of its task, or is recorded as rejected; an accepted
one that must wait for a swap, for room in a run queue or for a save area leaves BUSY at 1.
Of the model's choice in it: log entries 50 (notes/assumptions). -/
def Obligations.DebugRequests : Prop :=
  (∀ (s : State) (part : BitVec 4) (task : Word), let p := part.toNat
    let rejected (i : Instr) := Acts i s [.parts] [] (fun t => t.part p = { s.part p with dbgRejected := true })
    s.Safe →
    (s.liveHere p task = true → Completes (.kill part task) s (fun t => ∀ k, (s.slot k).phase ≠ .free → (s.slot k).taskid = task →
      (t.slot k).kill = true)) ∧
    (s.liveHere p task = false → rejected (.kill part task)) ∧
    (s.liveHere p task = true → (s.part p).cfg.dbgen = true → Completes (.halt part task) s (fun t => ∀ k, (s.slot k).phase ≠ .free →
      (s.slot k).taskid = task → Stop.halt ∈ (t.slot k).stops)) ∧
    (s.liveHere p task = false ∨ (s.part p).cfg.dbgen = false → rejected (.halt part task)) ∧
    Acts (.peqdropClear part) s [.parts] [] (fun t => t.part p = { s.part p with peqDrop := 0 })) ∧
  (∀ (s : State) (part : BitVec 4) (serial : BitVec 60) k, let p := part.toNat
    let task := BitVec.ofNat 64 (p * 2 ^ 60 + serial.toNat)
    let went (t : State) (op : BitVec 4) : Prop := t.part p = { s.part p with dbgOp := op, dbgRejected := false, dbgWait := none }
    let waits (i : Instr) (op : BitVec 4) : Prop := Acts i s [.parts] [] (fun t =>
      t.part p = { s.part p with dbgOp := op, dbgRejected := false, dbgBusy := true, dbgWait := some (op, task) })
    s.Safe → (s.part p).dbgBusy = false → (s.part p).cfg.dbgen = true → HaltedAlone s task k → (s.slot k).load = none → (s.slot k).arrived = none →
    (s.midSwap (stallOf (homeOf k)) = true → waits (.release part serial) 1 ∧ waits (.step part serial) 2 ∧ waits (.debugSave part serial) 3) ∧
    (s.midSwap (stallOf (homeOf k)) = false →
    Acts (.release part serial) s [.parts] [k] (fun t => t.slot k = { s.slot k with phase := .ready, stepping := false } ∧ went t 1) ∧
    Acts (.step part serial) s [.parts] [k] (fun t => t.slot k = { s.slot k with phase := .ready, stepping := true } ∧ went t 2) ∧
    (s.freeAreas p = [] → (s.slot k).part = p → Completes (.debugSave part serial) s (fun t =>
      (t.slot k).phase = .waiting .debugArea ∧ (t.part p).dbgBusy = true ∧ (t.part p).dbgOp = 3 ∧ (t.part p).saved = (s.part p).saved)) ∧
    (∀ a rest, s.freeAreas p = a :: rest → (s.slot k).part = p → Completes (.debugSave part serial) s (fun t =>
      t.slot k = { next := (s.slot k).next, held := (s.slot k).next.isNone && s.urgentHere (homeOf k) } ∧
      (t.part p).dbgOp = 3 ∧ (t.part p).dbgBusy = false ∧ ∃ x ∈ (t.part p).saved, x.area = a ∧ x.ctx.taskid = task ∧ x.ctx.phase = .halted ∧ x.ctx.g = (s.slot k).g)))) ∧
  (∀ (s : State) (part : BitVec 4) (serial : BitVec 60) x, let p := part.toNat
    let task := BitVec.ofNat 64 (p * 2 ^ 60 + serial.toNat)
    s.Safe → (s.part p).dbgBusy = false → (s.part p).saved = [x] → x.ctx.taskid = task → x.queued = false → x.ctx.phase = .halted →
    let n := (s.tile x.home.toNat).runq.length
    let waits (i : Instr) (op : BitVec 4) : Prop := Acts i s [.parts] [] (fun t =>
      t.part p = { s.part p with dbgOp := op, dbgRejected := false, dbgBusy := true, dbgWait := some (op, task) })
    ((s.part p).cfg.dbgen = true → n < 16 → Acts (.debugRestore part serial) s [.tiles, .parts] [] (fun t => (t.part p).dbgBusy = false ∧
      (∃ r ∈ (t.tile x.home.toNat).runq, r.kind = .saved x.area) ∧ ∃ y, (t.part p).saved = [y] ∧ y.queued = true ∧ y.ctx = x.ctx)) ∧
    ((s.part p).cfg.dbgen = true → 16 ≤ n → waits (.debugRestore part serial) 4) ∧
    (n < 16 → Completes (.resume part serial) s (fun t => (t.part p).dbgBusy = false ∧
      (∃ r ∈ (t.tile x.home.toNat).runq, r.kind = .saved x.area) ∧
      ∃ y, (t.part p).saved = [y] ∧ y.queued = true ∧ y.ctx = { x.ctx with phase := .ready })) ∧
    (16 ≤ n → waits (.resume part serial) 5)) ∧
  (∀ (s : State) (part : BitVec 4) (serial : BitVec 60), let p := part.toNat
    let rejected (op : BitVec 4) (i : Instr) := Acts i s [.parts] [] (fun t => t.part p = { s.part p with dbgOp := op, dbgRejected := true })
    let task := BitVec.ofNat 64 (p * 2 ^ 60 + serial.toNat)
    s.Safe →
    ((s.part p).dbgBusy = true ∨ (s.part p).cfg.dbgen = false ∨ ((∀ x ∈ s.slots, x.2.taskid ≠ task) ∧ (s.part p).saved = []) →
      rejected 1 (.release part serial) ∧ rejected 2 (.step part serial) ∧
      rejected 3 (.debugSave part serial) ∧ rejected 4 (.debugRestore part serial)) ∧
    ((s.part p).dbgBusy = true ∨ (s.part p).saved = [] → rejected 5 (.resume part serial)))

/-- The device block (R406), work queue registers (R410 to R412), writes to BAR0 of RESET, KILL, HALT and DBGREQ and of other sizes (R405 to R408),
BAR2 (R271, R287), and MSI-X (R413).
Of the model's choice in it: log entries 46, 56 (notes/assumptions). -/
def Obligations.HostAccesses : Prop :=
  (∀ (s : State) (v : Word),
    Acts (.ckstatClear v) s [.device] [] (fun t => t.dev = { s.dev with ckIgnored := s.dev.ckIgnored && !(wbit v 1) }) ∧
    Acts .mcqdropClear s [.device] [] (fun t => t.dev = { s.dev with mcqDrop := 0 }) ∧
    (wbit s.dev.mcqLen 63 = false ∨ wbit v 63 = false → Acts (.mcqConfigWrite true v) s [.device] [] (fun t =>
      t.dev = { s.dev with mcqLen := v &&& 0x800000000000001F#64 })) ∧
    (wbit s.dev.mcqLen 63 = false → Acts (.mcqConfigWrite false v) s [.device] [] (fun t =>
      t.dev = { s.dev with mcqBase := v &&& 0x0000FFFFFFFFFFE0#64 })) ∧
    (wbit v 0 = true → s.dev.cxlLink = true → s.dev.cxlIn = false → Acts (.cxlen v) s [.device] [] (fun t =>
      t.dev = { s.dev with cxlIn := true, cxlGone := false })) ∧
    (wbit v 0 = false → exec (.cxlen v) s = .next s)) ∧
  (∀ (s : State) (queue : BitVec 16), let q := queue.toNat
    let u := s.queue q
    let sets (i : Instr) (w : Queue) := Acts i s [.queues] [] (fun t => t.queue q = w ∧ ∀ j, j ≠ q → t.queue j = s.queue j)
    (∀ v : BitVec 32, u.hostq = false → exec (.tail queue v) s = .next s) ∧
    (∀ v : BitVec 32, u.hostq = true → (v - u.tail).toNat < 2 ^ 31 → (v - u.head).toNat ≤ u.qlen → sets (.tail queue v) { u with tail := v }) ∧
    (∀ v : BitVec 32, u.hostq = true → (2 ^ 31 ≤ (v - u.tail).toNat ∨ u.qlen < (v - u.head).toNat) →
      sets (.tail queue v) { u with qerr := u.qerr ||| 1 }) ∧
    (∀ v : BitVec 32, u.comps = [] → sets (.chead queue v) { u with chead := v }) ∧
    (∀ v : Word, sets (.qerrClear queue v) { u with qerr := u.qerr &&& ~~~v }) ∧
    (∀ v : Word, u.en = false ∨ wbit v 63 = false → sets (.queueConfigWrite queue 0x18 v) { u with cfg := v &&& 0x8000FFFF03FF07FF#64 }) ∧
    (∀ v : Word, u.en = false → sets (.queueConfigWrite queue 0x00 v) { u with qbase := v &&& 0xFFFFFFFFFFFFFFC0#64 } ∧
      sets (.queueConfigWrite queue 0x20 v) { u with cbase := v &&& 0x0000FFFFFFFFFFF0#64 })) ∧
  (∀ (s : State) (off : BitVec 26) size v, (size ≠ 8 ∨ off.toNat % 8 ≠ 0 → exec (.registerWrite off size v) s = .next s) ∧
    Acts (.registerWrite 0x50 8 v) s [.device] [] (fun t => t.dev = { s.dev with mcqHead := v.setWidth 32 })) ∧
  (∀ (s : State) (part : BitVec 4) (v : Word), let at' (reg : Nat) : BitVec 26 := BitVec.ofNat 26 (0x100000 + part.toNat * 0x1000 + reg)
    let op := field v 60 4
    let serial : BitVec 60 := v.setWidth 60
    (field v 0 4 = 1 → exec (.registerWrite 8 8 v) s =
      exec (.coldReset (Config.bootRecord s.steps) (Config.bootRetired s.steps) (Config.bootRhos s.steps) (Config.bootDown s.steps)) s) ∧
    (field v 0 4 = 2 → exec (.registerWrite 8 8 v) s = exec (.partitionReset (BitVec.ofNat 4 (field v 4 4))) s) ∧
    exec (.registerWrite (at' 0x08) 8 v) s = exec (.kill part v) s ∧ exec (.registerWrite (at' 0x10) 8 v) s = exec (.halt part v) s ∧
    (op = 1 → exec (.registerWrite (at' 0x18) 8 v) s = exec (.release part serial) s) ∧
    (op = 2 → exec (.registerWrite (at' 0x18) 8 v) s = exec (.step part serial) s) ∧
    (op = 3 → exec (.registerWrite (at' 0x18) 8 v) s = exec (.debugSave part serial) s) ∧
    (op = 4 → exec (.registerWrite (at' 0x18) 8 v) s = exec (.debugRestore part serial) s) ∧
    (op = 5 → exec (.registerWrite (at' 0x18) 8 v) s = exec (.resume part serial) s)) ∧
  (∀ (s : State) (pa : BitVec 48) (len : BitVec 6), Acts (.hostRead pa len) s [.device] [] (fun t => ∃ out, t.dev = { s.dev with reads := out :: s.dev.reads } ∧
    out.length = len.toNat ∧ ∀ i, i < len.toNat → s.storage (pa.toNat + i) ≠ .hole → s.deepGone (pa.toNat + i) = false →
      fget none s.dirty ((pa.toNat + i) / 32) = none → out.getD i 0 = s.byte (pa.toNat + i))) ∧
  (∀ (s : State) (pa : BitVec 48) (data : List (BitVec 8)), data ≠ [] → (∀ i, i < data.length → s.writeWaits ((pa.toNat + i) / 32 * 32) = false ∧
      s.storage ((pa.toNat + i) / 32 * 32) ≠ .hole ∧ s.deepGone (pa.toNat + i) = false ∧ s.inTable ((pa.toNat + i) / 32) = false) →
    (∀ a, s.inRxdir a = false) → s.dev.hostWaits = [] → (∀ i, i < data.length → s.storage (max pa.toNat ((pa.toNat + i) / 32 * 32)) ≠ .hole ∧
      s.deepGone (max pa.toNat ((pa.toNat + i) / 32 * 32)) = false) →
    Completes (.hostWrite pa data) s (fun t => (∀ i, i < data.length → t.byte (pa.toNat + i) = data.getD i 0) ∧
      ∀ a, a < pa.toNat ∨ pa.toNat + data.length ≤ a → t.byte a = s.byte a)) ∧
  (∀ (s : State) (pa : BitVec 48) (data : List (BitVec 8)), data ≠ [] → pa.toNat % 32 + data.length ≤ 32 → s.writeWaits pa.toNat = true →
    Acts (.hostWrite pa data) s [.device] [] (fun t => t.dev = { s.dev with hostWaits := s.dev.hostWaits ++ [(pa.toNat, data)] })) ∧
  (∀ (s : State) (port : BitVec 1) (vec : BitVec 11), let m := s.port port.toNat
    m.enabled = true → s.dev.portDown.getLsbD port.toNat = false → m.pending = [(vec.toNat, true)] →
    Acts (.msixUnmask port vec) s [.msix, .device] [] (fun t =>
      (∀ v, fget false (t.port port.toNat).entryMasked v = if v = vec.toNat then false else fget false m.entryMasked v) ∧
      (t.port port.toNat).masked = m.masked ∧ (t.port port.toNat).enabled = true ∧
      (m.masked = false → t.dev = { s.dev with irqs := (port.toNat, vec.toNat) :: s.dev.irqs } ∧ (t.port port.toNat).pending = []) ∧
      (m.masked = true → t.dev = s.dev ∧ (t.port port.toNat).pending = m.pending)))
end

