-- ==== Sys2Proof/Laws/Fields.lean ====
section
/-! SUPPORT. Reading a field of a word laid out from fields (R44): one lemma for each layout the encoder writes. -/

namespace Sys2Proof.Laws

theorem ext_high {n m : Nat} {x : BitVec n} {y : BitVec m} {s l : Nat} (h : m ≤ s) : (x ++ y).extractLsb' s l = x.extractLsb' (s - m) l :=
  BitVec.extractLsb'_append_eq_of_le h

theorem ext_low {n m : Nat} {x : BitVec n} {y : BitVec m} {s l : Nat} (h : s + l ≤ m) : (x ++ y).extractLsb' s l = y.extractLsb' s l :=
  BitVec.extractLsb'_append_eq_of_add_le h

@[simp] theorem fld_lay0_a (a : BitVec 6) (b : BitVec 26) : fld (a ++ b) 26 6 = a := by
  unfold fld
  rw [ext_high (by decide)]
  exact BitVec.extractLsb'_eq_self
@[simp] theorem fld_lay0_b (a : BitVec 6) (b : BitVec 26) : fld (a ++ b) 0 26 = b := by
  unfold fld
  rw [ext_low (by decide)]
  exact BitVec.extractLsb'_eq_self
@[simp] theorem fld_lay1_a (a : BitVec 6) (b : BitVec 20) (c : BitVec 6) : fld (a ++ b ++ c) 26 6 = a := by
  unfold fld
  rw [ext_high (by decide), ext_high (by decide)]
  exact BitVec.extractLsb'_eq_self
@[simp] theorem fld_lay1_b (a : BitVec 6) (b : BitVec 20) (c : BitVec 6) : fld (a ++ b ++ c) 6 20 = b := by
  unfold fld
  rw [ext_high (by decide), ext_low (by decide)]
  exact BitVec.extractLsb'_eq_self
@[simp] theorem fld_lay1_c (a : BitVec 6) (b : BitVec 20) (c : BitVec 6) : fld (a ++ b ++ c) 0 6 = c := by
  unfold fld
  rw [ext_low (by decide)]
  exact BitVec.extractLsb'_eq_self
@[simp] theorem fld_lay2_a (a : BitVec 6) (b : BitVec 15) (c : BitVec 7) (d : BitVec 4) : fld (a ++ b ++ c ++ d) 26 6 = a := by
  unfold fld
  rw [ext_high (by decide), ext_high (by decide), ext_high (by decide)]
  exact BitVec.extractLsb'_eq_self
@[simp] theorem fld_lay2_b (a : BitVec 6) (b : BitVec 15) (c : BitVec 7) (d : BitVec 4) : fld (a ++ b ++ c ++ d) 11 15 = b := by
  unfold fld
  rw [ext_high (by decide), ext_high (by decide), ext_low (by decide)]
  exact BitVec.extractLsb'_eq_self
@[simp] theorem fld_lay2_c (a : BitVec 6) (b : BitVec 15) (c : BitVec 7) (d : BitVec 4) : fld (a ++ b ++ c ++ d) 4 7 = c := by
  unfold fld
  rw [ext_high (by decide), ext_low (by decide)]
  exact BitVec.extractLsb'_eq_self
@[simp] theorem fld_lay2_d (a : BitVec 6) (b : BitVec 15) (c : BitVec 7) (d : BitVec 4) : fld (a ++ b ++ c ++ d) 0 4 = d := by
  unfold fld
  rw [ext_low (by decide)]
  exact BitVec.extractLsb'_eq_self
@[simp] theorem fld_lay3_a (a : BitVec 6) (b : BitVec 15) (c : BitVec 5) (d : BitVec 6) : fld (a ++ b ++ c ++ d) 26 6 = a := by
  unfold fld
  rw [ext_high (by decide), ext_high (by decide), ext_high (by decide)]
  exact BitVec.extractLsb'_eq_self
@[simp] theorem fld_lay3_b (a : BitVec 6) (b : BitVec 15) (c : BitVec 5) (d : BitVec 6) : fld (a ++ b ++ c ++ d) 11 15 = b := by
  unfold fld
  rw [ext_high (by decide), ext_high (by decide), ext_low (by decide)]
  exact BitVec.extractLsb'_eq_self
@[simp] theorem fld_lay3_c (a : BitVec 6) (b : BitVec 15) (c : BitVec 5) (d : BitVec 6) : fld (a ++ b ++ c ++ d) 6 5 = c := by
  unfold fld
  rw [ext_high (by decide), ext_low (by decide)]
  exact BitVec.extractLsb'_eq_self
@[simp] theorem fld_lay3_d (a : BitVec 6) (b : BitVec 15) (c : BitVec 5) (d : BitVec 6) : fld (a ++ b ++ c ++ d) 0 6 = d := by
  unfold fld
  rw [ext_low (by decide)]
  exact BitVec.extractLsb'_eq_self
@[simp] theorem fld_lay4_a (a : BitVec 6) (b : BitVec 14) (c : BitVec 4) (d : BitVec 7) (e : BitVec 1) : fld (a ++ b ++ c ++ d ++ e) 26 6 = a := by
  unfold fld
  rw [ext_high (by decide), ext_high (by decide), ext_high (by decide), ext_high (by decide)]
  exact BitVec.extractLsb'_eq_self
@[simp] theorem fld_lay4_b (a : BitVec 6) (b : BitVec 14) (c : BitVec 4) (d : BitVec 7) (e : BitVec 1) : fld (a ++ b ++ c ++ d ++ e) 12 14 = b := by
  unfold fld
  rw [ext_high (by decide), ext_high (by decide), ext_high (by decide), ext_low (by decide)]
  exact BitVec.extractLsb'_eq_self
@[simp] theorem fld_lay4_c (a : BitVec 6) (b : BitVec 14) (c : BitVec 4) (d : BitVec 7) (e : BitVec 1) : fld (a ++ b ++ c ++ d ++ e) 8 4 = c := by
  unfold fld
  rw [ext_high (by decide), ext_high (by decide), ext_low (by decide)]
  exact BitVec.extractLsb'_eq_self
@[simp] theorem fld_lay4_d (a : BitVec 6) (b : BitVec 14) (c : BitVec 4) (d : BitVec 7) (e : BitVec 1) : fld (a ++ b ++ c ++ d ++ e) 1 7 = d := by
  unfold fld
  rw [ext_high (by decide), ext_low (by decide)]
  exact BitVec.extractLsb'_eq_self
@[simp] theorem fld_lay4_e (a : BitVec 6) (b : BitVec 14) (c : BitVec 4) (d : BitVec 7) (e : BitVec 1) : fld (a ++ b ++ c ++ d ++ e) 0 1 = e := by
  unfold fld
  rw [ext_low (by decide)]
  exact BitVec.extractLsb'_eq_self
@[simp] theorem fld_lay5_a (a : BitVec 6) (b : BitVec 12) (c : BitVec 8) (d : BitVec 6) : fld (a ++ b ++ c ++ d) 26 6 = a := by
  unfold fld
  rw [ext_high (by decide), ext_high (by decide), ext_high (by decide)]
  exact BitVec.extractLsb'_eq_self
@[simp] theorem fld_lay5_b (a : BitVec 6) (b : BitVec 12) (c : BitVec 8) (d : BitVec 6) : fld (a ++ b ++ c ++ d) 14 12 = b := by
  unfold fld
  rw [ext_high (by decide), ext_high (by decide), ext_low (by decide)]
  exact BitVec.extractLsb'_eq_self
@[simp] theorem fld_lay5_c (a : BitVec 6) (b : BitVec 12) (c : BitVec 8) (d : BitVec 6) : fld (a ++ b ++ c ++ d) 6 8 = c := by
  unfold fld
  rw [ext_high (by decide), ext_low (by decide)]
  exact BitVec.extractLsb'_eq_self
@[simp] theorem fld_lay5_d (a : BitVec 6) (b : BitVec 12) (c : BitVec 8) (d : BitVec 6) : fld (a ++ b ++ c ++ d) 0 6 = d := by
  unfold fld
  rw [ext_low (by decide)]
  exact BitVec.extractLsb'_eq_self
@[simp] theorem fld_lay6_a (a : BitVec 6) (b : BitVec 10) (c : BitVec 4) (d : BitVec 4) (e : BitVec 8) : fld (a ++ b ++ c ++ d ++ e) 26 6 = a := by
  unfold fld
  rw [ext_high (by decide), ext_high (by decide), ext_high (by decide), ext_high (by decide)]
  exact BitVec.extractLsb'_eq_self
@[simp] theorem fld_lay6_b (a : BitVec 6) (b : BitVec 10) (c : BitVec 4) (d : BitVec 4) (e : BitVec 8) : fld (a ++ b ++ c ++ d ++ e) 16 10 = b := by
  unfold fld
  rw [ext_high (by decide), ext_high (by decide), ext_high (by decide), ext_low (by decide)]
  exact BitVec.extractLsb'_eq_self
@[simp] theorem fld_lay6_c (a : BitVec 6) (b : BitVec 10) (c : BitVec 4) (d : BitVec 4) (e : BitVec 8) : fld (a ++ b ++ c ++ d ++ e) 12 4 = c := by
  unfold fld
  rw [ext_high (by decide), ext_high (by decide), ext_low (by decide)]
  exact BitVec.extractLsb'_eq_self
@[simp] theorem fld_lay6_d (a : BitVec 6) (b : BitVec 10) (c : BitVec 4) (d : BitVec 4) (e : BitVec 8) : fld (a ++ b ++ c ++ d ++ e) 8 4 = d := by
  unfold fld
  rw [ext_high (by decide), ext_low (by decide)]
  exact BitVec.extractLsb'_eq_self
@[simp] theorem fld_lay6_e (a : BitVec 6) (b : BitVec 10) (c : BitVec 4) (d : BitVec 4) (e : BitVec 8) : fld (a ++ b ++ c ++ d ++ e) 0 8 = e := by
  unfold fld
  rw [ext_low (by decide)]
  exact BitVec.extractLsb'_eq_self
@[simp] theorem fld_lay7_a (a : BitVec 6) (b : BitVec 10) (c : BitVec 4) (d : BitVec 4) (e : BitVec 7) (f : BitVec 1) : fld (a ++ b ++ c ++ d ++ e ++ f) 26 6 = a := by
  unfold fld
  rw [ext_high (by decide), ext_high (by decide), ext_high (by decide), ext_high (by decide), ext_high (by decide)]
  exact BitVec.extractLsb'_eq_self
@[simp] theorem fld_lay7_b (a : BitVec 6) (b : BitVec 10) (c : BitVec 4) (d : BitVec 4) (e : BitVec 7) (f : BitVec 1) : fld (a ++ b ++ c ++ d ++ e ++ f) 16 10 = b := by
  unfold fld
  rw [ext_high (by decide), ext_high (by decide), ext_high (by decide), ext_high (by decide), ext_low (by decide)]
  exact BitVec.extractLsb'_eq_self
@[simp] theorem fld_lay7_c (a : BitVec 6) (b : BitVec 10) (c : BitVec 4) (d : BitVec 4) (e : BitVec 7) (f : BitVec 1) : fld (a ++ b ++ c ++ d ++ e ++ f) 12 4 = c := by
  unfold fld
  rw [ext_high (by decide), ext_high (by decide), ext_high (by decide), ext_low (by decide)]
  exact BitVec.extractLsb'_eq_self
@[simp] theorem fld_lay7_d (a : BitVec 6) (b : BitVec 10) (c : BitVec 4) (d : BitVec 4) (e : BitVec 7) (f : BitVec 1) : fld (a ++ b ++ c ++ d ++ e ++ f) 8 4 = d := by
  unfold fld
  rw [ext_high (by decide), ext_high (by decide), ext_low (by decide)]
  exact BitVec.extractLsb'_eq_self
@[simp] theorem fld_lay7_e (a : BitVec 6) (b : BitVec 10) (c : BitVec 4) (d : BitVec 4) (e : BitVec 7) (f : BitVec 1) : fld (a ++ b ++ c ++ d ++ e ++ f) 1 7 = e := by
  unfold fld
  rw [ext_high (by decide), ext_low (by decide)]
  exact BitVec.extractLsb'_eq_self
@[simp] theorem fld_lay7_f (a : BitVec 6) (b : BitVec 10) (c : BitVec 4) (d : BitVec 4) (e : BitVec 7) (f : BitVec 1) : fld (a ++ b ++ c ++ d ++ e ++ f) 0 1 = f := by
  unfold fld
  rw [ext_low (by decide)]
  exact BitVec.extractLsb'_eq_self
@[simp] theorem fld_lay8_a (a : BitVec 6) (b : BitVec 7) (c : BitVec 4) (d : BitVec 4) (e : BitVec 7) (f : BitVec 4) : fld (a ++ b ++ c ++ d ++ e ++ f) 26 6 = a := by
  unfold fld
  rw [ext_high (by decide), ext_high (by decide), ext_high (by decide), ext_high (by decide), ext_high (by decide)]
  exact BitVec.extractLsb'_eq_self
@[simp] theorem fld_lay8_b (a : BitVec 6) (b : BitVec 7) (c : BitVec 4) (d : BitVec 4) (e : BitVec 7) (f : BitVec 4) : fld (a ++ b ++ c ++ d ++ e ++ f) 19 7 = b := by
  unfold fld
  rw [ext_high (by decide), ext_high (by decide), ext_high (by decide), ext_high (by decide), ext_low (by decide)]
  exact BitVec.extractLsb'_eq_self
@[simp] theorem fld_lay8_c (a : BitVec 6) (b : BitVec 7) (c : BitVec 4) (d : BitVec 4) (e : BitVec 7) (f : BitVec 4) : fld (a ++ b ++ c ++ d ++ e ++ f) 15 4 = c := by
  unfold fld
  rw [ext_high (by decide), ext_high (by decide), ext_high (by decide), ext_low (by decide)]
  exact BitVec.extractLsb'_eq_self
@[simp] theorem fld_lay8_d (a : BitVec 6) (b : BitVec 7) (c : BitVec 4) (d : BitVec 4) (e : BitVec 7) (f : BitVec 4) : fld (a ++ b ++ c ++ d ++ e ++ f) 11 4 = d := by
  unfold fld
  rw [ext_high (by decide), ext_high (by decide), ext_low (by decide)]
  exact BitVec.extractLsb'_eq_self
@[simp] theorem fld_lay8_e (a : BitVec 6) (b : BitVec 7) (c : BitVec 4) (d : BitVec 4) (e : BitVec 7) (f : BitVec 4) : fld (a ++ b ++ c ++ d ++ e ++ f) 4 7 = e := by
  unfold fld
  rw [ext_high (by decide), ext_low (by decide)]
  exact BitVec.extractLsb'_eq_self
@[simp] theorem fld_lay8_f (a : BitVec 6) (b : BitVec 7) (c : BitVec 4) (d : BitVec 4) (e : BitVec 7) (f : BitVec 4) : fld (a ++ b ++ c ++ d ++ e ++ f) 0 4 = f := by
  unfold fld
  rw [ext_low (by decide)]
  exact BitVec.extractLsb'_eq_self
@[simp] theorem fld_lay9_a (a : BitVec 6) (b : BitVec 5) (c : BitVec 10) (d : BitVec 3) (e : BitVec 8) : fld (a ++ b ++ c ++ d ++ e) 26 6 = a := by
  unfold fld
  rw [ext_high (by decide), ext_high (by decide), ext_high (by decide), ext_high (by decide)]
  exact BitVec.extractLsb'_eq_self
@[simp] theorem fld_lay9_b (a : BitVec 6) (b : BitVec 5) (c : BitVec 10) (d : BitVec 3) (e : BitVec 8) : fld (a ++ b ++ c ++ d ++ e) 21 5 = b := by
  unfold fld
  rw [ext_high (by decide), ext_high (by decide), ext_high (by decide), ext_low (by decide)]
  exact BitVec.extractLsb'_eq_self
@[simp] theorem fld_lay9_c (a : BitVec 6) (b : BitVec 5) (c : BitVec 10) (d : BitVec 3) (e : BitVec 8) : fld (a ++ b ++ c ++ d ++ e) 11 10 = c := by
  unfold fld
  rw [ext_high (by decide), ext_high (by decide), ext_low (by decide)]
  exact BitVec.extractLsb'_eq_self
@[simp] theorem fld_lay9_d (a : BitVec 6) (b : BitVec 5) (c : BitVec 10) (d : BitVec 3) (e : BitVec 8) : fld (a ++ b ++ c ++ d ++ e) 8 3 = d := by
  unfold fld
  rw [ext_high (by decide), ext_low (by decide)]
  exact BitVec.extractLsb'_eq_self
@[simp] theorem fld_lay9_e (a : BitVec 6) (b : BitVec 5) (c : BitVec 10) (d : BitVec 3) (e : BitVec 8) : fld (a ++ b ++ c ++ d ++ e) 0 8 = e := by
  unfold fld
  rw [ext_low (by decide)]
  exact BitVec.extractLsb'_eq_self
@[simp] theorem fld_lay10_a (a : BitVec 6) (b : BitVec 5) (c : BitVec 5) (d : BitVec 5) (e : BitVec 3) (f : BitVec 8) : fld (a ++ b ++ c ++ d ++ e ++ f) 26 6 = a := by
  unfold fld
  rw [ext_high (by decide), ext_high (by decide), ext_high (by decide), ext_high (by decide), ext_high (by decide)]
  exact BitVec.extractLsb'_eq_self
@[simp] theorem fld_lay10_b (a : BitVec 6) (b : BitVec 5) (c : BitVec 5) (d : BitVec 5) (e : BitVec 3) (f : BitVec 8) : fld (a ++ b ++ c ++ d ++ e ++ f) 21 5 = b := by
  unfold fld
  rw [ext_high (by decide), ext_high (by decide), ext_high (by decide), ext_high (by decide), ext_low (by decide)]
  exact BitVec.extractLsb'_eq_self
@[simp] theorem fld_lay10_c (a : BitVec 6) (b : BitVec 5) (c : BitVec 5) (d : BitVec 5) (e : BitVec 3) (f : BitVec 8) : fld (a ++ b ++ c ++ d ++ e ++ f) 16 5 = c := by
  unfold fld
  rw [ext_high (by decide), ext_high (by decide), ext_high (by decide), ext_low (by decide)]
  exact BitVec.extractLsb'_eq_self
@[simp] theorem fld_lay10_d (a : BitVec 6) (b : BitVec 5) (c : BitVec 5) (d : BitVec 5) (e : BitVec 3) (f : BitVec 8) : fld (a ++ b ++ c ++ d ++ e ++ f) 11 5 = d := by
  unfold fld
  rw [ext_high (by decide), ext_high (by decide), ext_low (by decide)]
  exact BitVec.extractLsb'_eq_self
@[simp] theorem fld_lay10_e (a : BitVec 6) (b : BitVec 5) (c : BitVec 5) (d : BitVec 5) (e : BitVec 3) (f : BitVec 8) : fld (a ++ b ++ c ++ d ++ e ++ f) 8 3 = e := by
  unfold fld
  rw [ext_high (by decide), ext_low (by decide)]
  exact BitVec.extractLsb'_eq_self
@[simp] theorem fld_lay10_f (a : BitVec 6) (b : BitVec 5) (c : BitVec 5) (d : BitVec 5) (e : BitVec 3) (f : BitVec 8) : fld (a ++ b ++ c ++ d ++ e ++ f) 0 8 = f := by
  unfold fld
  rw [ext_low (by decide)]
  exact BitVec.extractLsb'_eq_self
@[simp] theorem fld_lay11_a (a : BitVec 6) (b : BitVec 5) (c : BitVec 5) (d : BitVec 5) (e : BitVec 3) (f : BitVec 5) (g : BitVec 3) : fld (a ++ b ++ c ++ d ++ e ++ f ++ g) 26 6 = a := by
  unfold fld
  rw [ext_high (by decide), ext_high (by decide), ext_high (by decide), ext_high (by decide), ext_high (by decide), ext_high (by decide)]
  exact BitVec.extractLsb'_eq_self
@[simp] theorem fld_lay11_b (a : BitVec 6) (b : BitVec 5) (c : BitVec 5) (d : BitVec 5) (e : BitVec 3) (f : BitVec 5) (g : BitVec 3) : fld (a ++ b ++ c ++ d ++ e ++ f ++ g) 21 5 = b := by
  unfold fld
  rw [ext_high (by decide), ext_high (by decide), ext_high (by decide), ext_high (by decide), ext_high (by decide), ext_low (by decide)]
  exact BitVec.extractLsb'_eq_self
@[simp] theorem fld_lay11_c (a : BitVec 6) (b : BitVec 5) (c : BitVec 5) (d : BitVec 5) (e : BitVec 3) (f : BitVec 5) (g : BitVec 3) : fld (a ++ b ++ c ++ d ++ e ++ f ++ g) 16 5 = c := by
  unfold fld
  rw [ext_high (by decide), ext_high (by decide), ext_high (by decide), ext_high (by decide), ext_low (by decide)]
  exact BitVec.extractLsb'_eq_self
@[simp] theorem fld_lay11_d (a : BitVec 6) (b : BitVec 5) (c : BitVec 5) (d : BitVec 5) (e : BitVec 3) (f : BitVec 5) (g : BitVec 3) : fld (a ++ b ++ c ++ d ++ e ++ f ++ g) 11 5 = d := by
  unfold fld
  rw [ext_high (by decide), ext_high (by decide), ext_high (by decide), ext_low (by decide)]
  exact BitVec.extractLsb'_eq_self
@[simp] theorem fld_lay11_e (a : BitVec 6) (b : BitVec 5) (c : BitVec 5) (d : BitVec 5) (e : BitVec 3) (f : BitVec 5) (g : BitVec 3) : fld (a ++ b ++ c ++ d ++ e ++ f ++ g) 8 3 = e := by
  unfold fld
  rw [ext_high (by decide), ext_high (by decide), ext_low (by decide)]
  exact BitVec.extractLsb'_eq_self
@[simp] theorem fld_lay11_f (a : BitVec 6) (b : BitVec 5) (c : BitVec 5) (d : BitVec 5) (e : BitVec 3) (f : BitVec 5) (g : BitVec 3) : fld (a ++ b ++ c ++ d ++ e ++ f ++ g) 3 5 = f := by
  unfold fld
  rw [ext_high (by decide), ext_low (by decide)]
  exact BitVec.extractLsb'_eq_self
@[simp] theorem fld_lay11_g (a : BitVec 6) (b : BitVec 5) (c : BitVec 5) (d : BitVec 5) (e : BitVec 3) (f : BitVec 5) (g : BitVec 3) : fld (a ++ b ++ c ++ d ++ e ++ f ++ g) 0 3 = g := by
  unfold fld
  rw [ext_low (by decide)]
  exact BitVec.extractLsb'_eq_self
@[simp] theorem fld_lay12_a (a : BitVec 6) (b : BitVec 5) (c : BitVec 5) (d : BitVec 5) (e : BitVec 3) (f : BitVec 4) (g : BitVec 4) : fld (a ++ b ++ c ++ d ++ e ++ f ++ g) 26 6 = a := by
  unfold fld
  rw [ext_high (by decide), ext_high (by decide), ext_high (by decide), ext_high (by decide), ext_high (by decide), ext_high (by decide)]
  exact BitVec.extractLsb'_eq_self
@[simp] theorem fld_lay12_b (a : BitVec 6) (b : BitVec 5) (c : BitVec 5) (d : BitVec 5) (e : BitVec 3) (f : BitVec 4) (g : BitVec 4) : fld (a ++ b ++ c ++ d ++ e ++ f ++ g) 21 5 = b := by
  unfold fld
  rw [ext_high (by decide), ext_high (by decide), ext_high (by decide), ext_high (by decide), ext_high (by decide), ext_low (by decide)]
  exact BitVec.extractLsb'_eq_self
@[simp] theorem fld_lay12_c (a : BitVec 6) (b : BitVec 5) (c : BitVec 5) (d : BitVec 5) (e : BitVec 3) (f : BitVec 4) (g : BitVec 4) : fld (a ++ b ++ c ++ d ++ e ++ f ++ g) 16 5 = c := by
  unfold fld
  rw [ext_high (by decide), ext_high (by decide), ext_high (by decide), ext_high (by decide), ext_low (by decide)]
  exact BitVec.extractLsb'_eq_self
@[simp] theorem fld_lay12_d (a : BitVec 6) (b : BitVec 5) (c : BitVec 5) (d : BitVec 5) (e : BitVec 3) (f : BitVec 4) (g : BitVec 4) : fld (a ++ b ++ c ++ d ++ e ++ f ++ g) 11 5 = d := by
  unfold fld
  rw [ext_high (by decide), ext_high (by decide), ext_high (by decide), ext_low (by decide)]
  exact BitVec.extractLsb'_eq_self
@[simp] theorem fld_lay12_e (a : BitVec 6) (b : BitVec 5) (c : BitVec 5) (d : BitVec 5) (e : BitVec 3) (f : BitVec 4) (g : BitVec 4) : fld (a ++ b ++ c ++ d ++ e ++ f ++ g) 8 3 = e := by
  unfold fld
  rw [ext_high (by decide), ext_high (by decide), ext_low (by decide)]
  exact BitVec.extractLsb'_eq_self
@[simp] theorem fld_lay12_f (a : BitVec 6) (b : BitVec 5) (c : BitVec 5) (d : BitVec 5) (e : BitVec 3) (f : BitVec 4) (g : BitVec 4) : fld (a ++ b ++ c ++ d ++ e ++ f ++ g) 4 4 = f := by
  unfold fld
  rw [ext_high (by decide), ext_low (by decide)]
  exact BitVec.extractLsb'_eq_self
@[simp] theorem fld_lay12_g (a : BitVec 6) (b : BitVec 5) (c : BitVec 5) (d : BitVec 5) (e : BitVec 3) (f : BitVec 4) (g : BitVec 4) : fld (a ++ b ++ c ++ d ++ e ++ f ++ g) 0 4 = g := by
  unfold fld
  rw [ext_low (by decide)]
  exact BitVec.extractLsb'_eq_self
@[simp] theorem fld_lay13_a (a : BitVec 6) (b : BitVec 5) (c : BitVec 4) (d : BitVec 4) (e : BitVec 3) (f : BitVec 2) (g : BitVec 2) (h : BitVec 6) : fld (a ++ b ++ c ++ d ++ e ++ f ++ g ++ h) 26 6 = a := by
  unfold fld
  rw [ext_high (by decide), ext_high (by decide), ext_high (by decide), ext_high (by decide), ext_high (by decide), ext_high (by decide), ext_high (by decide)]
  exact BitVec.extractLsb'_eq_self
@[simp] theorem fld_lay13_b (a : BitVec 6) (b : BitVec 5) (c : BitVec 4) (d : BitVec 4) (e : BitVec 3) (f : BitVec 2) (g : BitVec 2) (h : BitVec 6) : fld (a ++ b ++ c ++ d ++ e ++ f ++ g ++ h) 21 5 = b := by
  unfold fld
  rw [ext_high (by decide), ext_high (by decide), ext_high (by decide), ext_high (by decide), ext_high (by decide), ext_high (by decide), ext_low (by decide)]
  exact BitVec.extractLsb'_eq_self
@[simp] theorem fld_lay13_c (a : BitVec 6) (b : BitVec 5) (c : BitVec 4) (d : BitVec 4) (e : BitVec 3) (f : BitVec 2) (g : BitVec 2) (h : BitVec 6) : fld (a ++ b ++ c ++ d ++ e ++ f ++ g ++ h) 17 4 = c := by
  unfold fld
  rw [ext_high (by decide), ext_high (by decide), ext_high (by decide), ext_high (by decide), ext_high (by decide), ext_low (by decide)]
  exact BitVec.extractLsb'_eq_self
@[simp] theorem fld_lay13_d (a : BitVec 6) (b : BitVec 5) (c : BitVec 4) (d : BitVec 4) (e : BitVec 3) (f : BitVec 2) (g : BitVec 2) (h : BitVec 6) : fld (a ++ b ++ c ++ d ++ e ++ f ++ g ++ h) 13 4 = d := by
  unfold fld
  rw [ext_high (by decide), ext_high (by decide), ext_high (by decide), ext_high (by decide), ext_low (by decide)]
  exact BitVec.extractLsb'_eq_self
@[simp] theorem fld_lay13_e (a : BitVec 6) (b : BitVec 5) (c : BitVec 4) (d : BitVec 4) (e : BitVec 3) (f : BitVec 2) (g : BitVec 2) (h : BitVec 6) : fld (a ++ b ++ c ++ d ++ e ++ f ++ g ++ h) 10 3 = e := by
  unfold fld
  rw [ext_high (by decide), ext_high (by decide), ext_high (by decide), ext_low (by decide)]
  exact BitVec.extractLsb'_eq_self
@[simp] theorem fld_lay13_f (a : BitVec 6) (b : BitVec 5) (c : BitVec 4) (d : BitVec 4) (e : BitVec 3) (f : BitVec 2) (g : BitVec 2) (h : BitVec 6) : fld (a ++ b ++ c ++ d ++ e ++ f ++ g ++ h) 8 2 = f := by
  unfold fld
  rw [ext_high (by decide), ext_high (by decide), ext_low (by decide)]
  exact BitVec.extractLsb'_eq_self
@[simp] theorem fld_lay13_g (a : BitVec 6) (b : BitVec 5) (c : BitVec 4) (d : BitVec 4) (e : BitVec 3) (f : BitVec 2) (g : BitVec 2) (h : BitVec 6) : fld (a ++ b ++ c ++ d ++ e ++ f ++ g ++ h) 6 2 = g := by
  unfold fld
  rw [ext_high (by decide), ext_low (by decide)]
  exact BitVec.extractLsb'_eq_self
@[simp] theorem fld_lay13_h (a : BitVec 6) (b : BitVec 5) (c : BitVec 4) (d : BitVec 4) (e : BitVec 3) (f : BitVec 2) (g : BitVec 2) (h : BitVec 6) : fld (a ++ b ++ c ++ d ++ e ++ f ++ g ++ h) 0 6 = h := by
  unfold fld
  rw [ext_low (by decide)]
  exact BitVec.extractLsb'_eq_self
@[simp] theorem fld_lay14_a (a : BitVec 6) (b : BitVec 5) (c : BitVec 1) (d : BitVec 4) (e : BitVec 5) (f : BitVec 3) (g : BitVec 4) (h : BitVec 4) : fld (a ++ b ++ c ++ d ++ e ++ f ++ g ++ h) 26 6 = a := by
  unfold fld
  rw [ext_high (by decide), ext_high (by decide), ext_high (by decide), ext_high (by decide), ext_high (by decide), ext_high (by decide), ext_high (by decide)]
  exact BitVec.extractLsb'_eq_self
@[simp] theorem fld_lay14_b (a : BitVec 6) (b : BitVec 5) (c : BitVec 1) (d : BitVec 4) (e : BitVec 5) (f : BitVec 3) (g : BitVec 4) (h : BitVec 4) : fld (a ++ b ++ c ++ d ++ e ++ f ++ g ++ h) 21 5 = b := by
  unfold fld
  rw [ext_high (by decide), ext_high (by decide), ext_high (by decide), ext_high (by decide), ext_high (by decide), ext_high (by decide), ext_low (by decide)]
  exact BitVec.extractLsb'_eq_self
@[simp] theorem fld_lay14_c (a : BitVec 6) (b : BitVec 5) (c : BitVec 1) (d : BitVec 4) (e : BitVec 5) (f : BitVec 3) (g : BitVec 4) (h : BitVec 4) : fld (a ++ b ++ c ++ d ++ e ++ f ++ g ++ h) 20 1 = c := by
  unfold fld
  rw [ext_high (by decide), ext_high (by decide), ext_high (by decide), ext_high (by decide), ext_high (by decide), ext_low (by decide)]
  exact BitVec.extractLsb'_eq_self
@[simp] theorem fld_lay14_d (a : BitVec 6) (b : BitVec 5) (c : BitVec 1) (d : BitVec 4) (e : BitVec 5) (f : BitVec 3) (g : BitVec 4) (h : BitVec 4) : fld (a ++ b ++ c ++ d ++ e ++ f ++ g ++ h) 16 4 = d := by
  unfold fld
  rw [ext_high (by decide), ext_high (by decide), ext_high (by decide), ext_high (by decide), ext_low (by decide)]
  exact BitVec.extractLsb'_eq_self
@[simp] theorem fld_lay14_e (a : BitVec 6) (b : BitVec 5) (c : BitVec 1) (d : BitVec 4) (e : BitVec 5) (f : BitVec 3) (g : BitVec 4) (h : BitVec 4) : fld (a ++ b ++ c ++ d ++ e ++ f ++ g ++ h) 11 5 = e := by
  unfold fld
  rw [ext_high (by decide), ext_high (by decide), ext_high (by decide), ext_low (by decide)]
  exact BitVec.extractLsb'_eq_self
@[simp] theorem fld_lay14_f (a : BitVec 6) (b : BitVec 5) (c : BitVec 1) (d : BitVec 4) (e : BitVec 5) (f : BitVec 3) (g : BitVec 4) (h : BitVec 4) : fld (a ++ b ++ c ++ d ++ e ++ f ++ g ++ h) 8 3 = f := by
  unfold fld
  rw [ext_high (by decide), ext_high (by decide), ext_low (by decide)]
  exact BitVec.extractLsb'_eq_self
@[simp] theorem fld_lay14_g (a : BitVec 6) (b : BitVec 5) (c : BitVec 1) (d : BitVec 4) (e : BitVec 5) (f : BitVec 3) (g : BitVec 4) (h : BitVec 4) : fld (a ++ b ++ c ++ d ++ e ++ f ++ g ++ h) 4 4 = g := by
  unfold fld
  rw [ext_high (by decide), ext_low (by decide)]
  exact BitVec.extractLsb'_eq_self
@[simp] theorem fld_lay14_h (a : BitVec 6) (b : BitVec 5) (c : BitVec 1) (d : BitVec 4) (e : BitVec 5) (f : BitVec 3) (g : BitVec 4) (h : BitVec 4) : fld (a ++ b ++ c ++ d ++ e ++ f ++ g ++ h) 0 4 = h := by
  unfold fld
  rw [ext_low (by decide)]
  exact BitVec.extractLsb'_eq_self
@[simp] theorem fld_lay15_a (a : BitVec 6) (b : BitVec 4) (c : BitVec 22) : fld (a ++ b ++ c) 26 6 = a := by
  unfold fld
  rw [ext_high (by decide), ext_high (by decide)]
  exact BitVec.extractLsb'_eq_self
@[simp] theorem fld_lay15_b (a : BitVec 6) (b : BitVec 4) (c : BitVec 22) : fld (a ++ b ++ c) 22 4 = b := by
  unfold fld
  rw [ext_high (by decide), ext_low (by decide)]
  exact BitVec.extractLsb'_eq_self
@[simp] theorem fld_lay15_c (a : BitVec 6) (b : BitVec 4) (c : BitVec 22) : fld (a ++ b ++ c) 0 22 = c := by
  unfold fld
  rw [ext_low (by decide)]
  exact BitVec.extractLsb'_eq_self
@[simp] theorem fld_lay16_a (a : BitVec 6) (b : BitVec 4) (c : BitVec 21) (d : BitVec 1) : fld (a ++ b ++ c ++ d) 26 6 = a := by
  unfold fld
  rw [ext_high (by decide), ext_high (by decide), ext_high (by decide)]
  exact BitVec.extractLsb'_eq_self
@[simp] theorem fld_lay16_b (a : BitVec 6) (b : BitVec 4) (c : BitVec 21) (d : BitVec 1) : fld (a ++ b ++ c ++ d) 22 4 = b := by
  unfold fld
  rw [ext_high (by decide), ext_high (by decide), ext_low (by decide)]
  exact BitVec.extractLsb'_eq_self
@[simp] theorem fld_lay16_c (a : BitVec 6) (b : BitVec 4) (c : BitVec 21) (d : BitVec 1) : fld (a ++ b ++ c ++ d) 1 21 = c := by
  unfold fld
  rw [ext_high (by decide), ext_low (by decide)]
  exact BitVec.extractLsb'_eq_self
@[simp] theorem fld_lay16_d (a : BitVec 6) (b : BitVec 4) (c : BitVec 21) (d : BitVec 1) : fld (a ++ b ++ c ++ d) 0 1 = d := by
  unfold fld
  rw [ext_low (by decide)]
  exact BitVec.extractLsb'_eq_self
@[simp] theorem fld_lay17_a (a : BitVec 6) (b : BitVec 4) (c : BitVec 20) (d : BitVec 2) : fld (a ++ b ++ c ++ d) 26 6 = a := by
  unfold fld
  rw [ext_high (by decide), ext_high (by decide), ext_high (by decide)]
  exact BitVec.extractLsb'_eq_self
@[simp] theorem fld_lay17_b (a : BitVec 6) (b : BitVec 4) (c : BitVec 20) (d : BitVec 2) : fld (a ++ b ++ c ++ d) 22 4 = b := by
  unfold fld
  rw [ext_high (by decide), ext_high (by decide), ext_low (by decide)]
  exact BitVec.extractLsb'_eq_self
@[simp] theorem fld_lay17_c (a : BitVec 6) (b : BitVec 4) (c : BitVec 20) (d : BitVec 2) : fld (a ++ b ++ c ++ d) 2 20 = c := by
  unfold fld
  rw [ext_high (by decide), ext_low (by decide)]
  exact BitVec.extractLsb'_eq_self
@[simp] theorem fld_lay17_d (a : BitVec 6) (b : BitVec 4) (c : BitVec 20) (d : BitVec 2) : fld (a ++ b ++ c ++ d) 0 2 = d := by
  unfold fld
  rw [ext_low (by decide)]
  exact BitVec.extractLsb'_eq_self
@[simp] theorem fld_lay18_a (a : BitVec 6) (b : BitVec 4) (c : BitVec 19) (d : BitVec 3) : fld (a ++ b ++ c ++ d) 26 6 = a := by
  unfold fld
  rw [ext_high (by decide), ext_high (by decide), ext_high (by decide)]
  exact BitVec.extractLsb'_eq_self
@[simp] theorem fld_lay18_b (a : BitVec 6) (b : BitVec 4) (c : BitVec 19) (d : BitVec 3) : fld (a ++ b ++ c ++ d) 22 4 = b := by
  unfold fld
  rw [ext_high (by decide), ext_high (by decide), ext_low (by decide)]
  exact BitVec.extractLsb'_eq_self
@[simp] theorem fld_lay18_c (a : BitVec 6) (b : BitVec 4) (c : BitVec 19) (d : BitVec 3) : fld (a ++ b ++ c ++ d) 3 19 = c := by
  unfold fld
  rw [ext_high (by decide), ext_low (by decide)]
  exact BitVec.extractLsb'_eq_self
@[simp] theorem fld_lay18_d (a : BitVec 6) (b : BitVec 4) (c : BitVec 19) (d : BitVec 3) : fld (a ++ b ++ c ++ d) 0 3 = d := by
  unfold fld
  rw [ext_low (by decide)]
  exact BitVec.extractLsb'_eq_self
@[simp] theorem fld_lay19_a (a : BitVec 6) (b : BitVec 4) (c : BitVec 16) (d : BitVec 6) : fld (a ++ b ++ c ++ d) 26 6 = a := by
  unfold fld
  rw [ext_high (by decide), ext_high (by decide), ext_high (by decide)]
  exact BitVec.extractLsb'_eq_self
@[simp] theorem fld_lay19_b (a : BitVec 6) (b : BitVec 4) (c : BitVec 16) (d : BitVec 6) : fld (a ++ b ++ c ++ d) 22 4 = b := by
  unfold fld
  rw [ext_high (by decide), ext_high (by decide), ext_low (by decide)]
  exact BitVec.extractLsb'_eq_self
@[simp] theorem fld_lay19_c (a : BitVec 6) (b : BitVec 4) (c : BitVec 16) (d : BitVec 6) : fld (a ++ b ++ c ++ d) 6 16 = c := by
  unfold fld
  rw [ext_high (by decide), ext_low (by decide)]
  exact BitVec.extractLsb'_eq_self
@[simp] theorem fld_lay19_d (a : BitVec 6) (b : BitVec 4) (c : BitVec 16) (d : BitVec 6) : fld (a ++ b ++ c ++ d) 0 6 = d := by
  unfold fld
  rw [ext_low (by decide)]
  exact BitVec.extractLsb'_eq_self
@[simp] theorem fld_lay20_a (a : BitVec 6) (b : BitVec 4) (c : BitVec 10) (d : BitVec 12) : fld (a ++ b ++ c ++ d) 26 6 = a := by
  unfold fld
  rw [ext_high (by decide), ext_high (by decide), ext_high (by decide)]
  exact BitVec.extractLsb'_eq_self
@[simp] theorem fld_lay20_b (a : BitVec 6) (b : BitVec 4) (c : BitVec 10) (d : BitVec 12) : fld (a ++ b ++ c ++ d) 22 4 = b := by
  unfold fld
  rw [ext_high (by decide), ext_high (by decide), ext_low (by decide)]
  exact BitVec.extractLsb'_eq_self
@[simp] theorem fld_lay20_c (a : BitVec 6) (b : BitVec 4) (c : BitVec 10) (d : BitVec 12) : fld (a ++ b ++ c ++ d) 12 10 = c := by
  unfold fld
  rw [ext_high (by decide), ext_low (by decide)]
  exact BitVec.extractLsb'_eq_self
@[simp] theorem fld_lay20_d (a : BitVec 6) (b : BitVec 4) (c : BitVec 10) (d : BitVec 12) : fld (a ++ b ++ c ++ d) 0 12 = d := by
  unfold fld
  rw [ext_low (by decide)]
  exact BitVec.extractLsb'_eq_self
@[simp] theorem fld_lay21_a (a : BitVec 6) (b : BitVec 4) (c : BitVec 8) (d : BitVec 8) (e : BitVec 6) : fld (a ++ b ++ c ++ d ++ e) 26 6 = a := by
  unfold fld
  rw [ext_high (by decide), ext_high (by decide), ext_high (by decide), ext_high (by decide)]
  exact BitVec.extractLsb'_eq_self
@[simp] theorem fld_lay21_b (a : BitVec 6) (b : BitVec 4) (c : BitVec 8) (d : BitVec 8) (e : BitVec 6) : fld (a ++ b ++ c ++ d ++ e) 22 4 = b := by
  unfold fld
  rw [ext_high (by decide), ext_high (by decide), ext_high (by decide), ext_low (by decide)]
  exact BitVec.extractLsb'_eq_self
@[simp] theorem fld_lay21_c (a : BitVec 6) (b : BitVec 4) (c : BitVec 8) (d : BitVec 8) (e : BitVec 6) : fld (a ++ b ++ c ++ d ++ e) 14 8 = c := by
  unfold fld
  rw [ext_high (by decide), ext_high (by decide), ext_low (by decide)]
  exact BitVec.extractLsb'_eq_self
@[simp] theorem fld_lay21_d (a : BitVec 6) (b : BitVec 4) (c : BitVec 8) (d : BitVec 8) (e : BitVec 6) : fld (a ++ b ++ c ++ d ++ e) 6 8 = d := by
  unfold fld
  rw [ext_high (by decide), ext_low (by decide)]
  exact BitVec.extractLsb'_eq_self
@[simp] theorem fld_lay21_e (a : BitVec 6) (b : BitVec 4) (c : BitVec 8) (d : BitVec 8) (e : BitVec 6) : fld (a ++ b ++ c ++ d ++ e) 0 6 = e := by
  unfold fld
  rw [ext_low (by decide)]
  exact BitVec.extractLsb'_eq_self
@[simp] theorem fld_lay22_a (a : BitVec 6) (b : BitVec 4) (c : BitVec 4) (d : BitVec 18) : fld (a ++ b ++ c ++ d) 26 6 = a := by
  unfold fld
  rw [ext_high (by decide), ext_high (by decide), ext_high (by decide)]
  exact BitVec.extractLsb'_eq_self
@[simp] theorem fld_lay22_b (a : BitVec 6) (b : BitVec 4) (c : BitVec 4) (d : BitVec 18) : fld (a ++ b ++ c ++ d) 22 4 = b := by
  unfold fld
  rw [ext_high (by decide), ext_high (by decide), ext_low (by decide)]
  exact BitVec.extractLsb'_eq_self
@[simp] theorem fld_lay22_c (a : BitVec 6) (b : BitVec 4) (c : BitVec 4) (d : BitVec 18) : fld (a ++ b ++ c ++ d) 18 4 = c := by
  unfold fld
  rw [ext_high (by decide), ext_low (by decide)]
  exact BitVec.extractLsb'_eq_self
@[simp] theorem fld_lay22_d (a : BitVec 6) (b : BitVec 4) (c : BitVec 4) (d : BitVec 18) : fld (a ++ b ++ c ++ d) 0 18 = d := by
  unfold fld
  rw [ext_low (by decide)]
  exact BitVec.extractLsb'_eq_self
@[simp] theorem fld_lay23_a (a : BitVec 6) (b : BitVec 4) (c : BitVec 4) (d : BitVec 12) (e : BitVec 6) : fld (a ++ b ++ c ++ d ++ e) 26 6 = a := by
  unfold fld
  rw [ext_high (by decide), ext_high (by decide), ext_high (by decide), ext_high (by decide)]
  exact BitVec.extractLsb'_eq_self
@[simp] theorem fld_lay23_b (a : BitVec 6) (b : BitVec 4) (c : BitVec 4) (d : BitVec 12) (e : BitVec 6) : fld (a ++ b ++ c ++ d ++ e) 22 4 = b := by
  unfold fld
  rw [ext_high (by decide), ext_high (by decide), ext_high (by decide), ext_low (by decide)]
  exact BitVec.extractLsb'_eq_self
@[simp] theorem fld_lay23_c (a : BitVec 6) (b : BitVec 4) (c : BitVec 4) (d : BitVec 12) (e : BitVec 6) : fld (a ++ b ++ c ++ d ++ e) 18 4 = c := by
  unfold fld
  rw [ext_high (by decide), ext_high (by decide), ext_low (by decide)]
  exact BitVec.extractLsb'_eq_self
@[simp] theorem fld_lay23_d (a : BitVec 6) (b : BitVec 4) (c : BitVec 4) (d : BitVec 12) (e : BitVec 6) : fld (a ++ b ++ c ++ d ++ e) 6 12 = d := by
  unfold fld
  rw [ext_high (by decide), ext_low (by decide)]
  exact BitVec.extractLsb'_eq_self
@[simp] theorem fld_lay23_e (a : BitVec 6) (b : BitVec 4) (c : BitVec 4) (d : BitVec 12) (e : BitVec 6) : fld (a ++ b ++ c ++ d ++ e) 0 6 = e := by
  unfold fld
  rw [ext_low (by decide)]
  exact BitVec.extractLsb'_eq_self
@[simp] theorem fld_lay24_a (a : BitVec 6) (b : BitVec 4) (c : BitVec 4) (d : BitVec 4) (e : BitVec 14) : fld (a ++ b ++ c ++ d ++ e) 26 6 = a := by
  unfold fld
  rw [ext_high (by decide), ext_high (by decide), ext_high (by decide), ext_high (by decide)]
  exact BitVec.extractLsb'_eq_self
@[simp] theorem fld_lay24_b (a : BitVec 6) (b : BitVec 4) (c : BitVec 4) (d : BitVec 4) (e : BitVec 14) : fld (a ++ b ++ c ++ d ++ e) 22 4 = b := by
  unfold fld
  rw [ext_high (by decide), ext_high (by decide), ext_high (by decide), ext_low (by decide)]
  exact BitVec.extractLsb'_eq_self
@[simp] theorem fld_lay24_c (a : BitVec 6) (b : BitVec 4) (c : BitVec 4) (d : BitVec 4) (e : BitVec 14) : fld (a ++ b ++ c ++ d ++ e) 18 4 = c := by
  unfold fld
  rw [ext_high (by decide), ext_high (by decide), ext_low (by decide)]
  exact BitVec.extractLsb'_eq_self
@[simp] theorem fld_lay24_d (a : BitVec 6) (b : BitVec 4) (c : BitVec 4) (d : BitVec 4) (e : BitVec 14) : fld (a ++ b ++ c ++ d ++ e) 14 4 = d := by
  unfold fld
  rw [ext_high (by decide), ext_low (by decide)]
  exact BitVec.extractLsb'_eq_self
@[simp] theorem fld_lay24_e (a : BitVec 6) (b : BitVec 4) (c : BitVec 4) (d : BitVec 4) (e : BitVec 14) : fld (a ++ b ++ c ++ d ++ e) 0 14 = e := by
  unfold fld
  rw [ext_low (by decide)]
  exact BitVec.extractLsb'_eq_self
@[simp] theorem fld_lay25_a (a : BitVec 6) (b : BitVec 4) (c : BitVec 4) (d : BitVec 4) (e : BitVec 8) (f : BitVec 6) : fld (a ++ b ++ c ++ d ++ e ++ f) 26 6 = a := by
  unfold fld
  rw [ext_high (by decide), ext_high (by decide), ext_high (by decide), ext_high (by decide), ext_high (by decide)]
  exact BitVec.extractLsb'_eq_self
@[simp] theorem fld_lay25_b (a : BitVec 6) (b : BitVec 4) (c : BitVec 4) (d : BitVec 4) (e : BitVec 8) (f : BitVec 6) : fld (a ++ b ++ c ++ d ++ e ++ f) 22 4 = b := by
  unfold fld
  rw [ext_high (by decide), ext_high (by decide), ext_high (by decide), ext_high (by decide), ext_low (by decide)]
  exact BitVec.extractLsb'_eq_self
@[simp] theorem fld_lay25_c (a : BitVec 6) (b : BitVec 4) (c : BitVec 4) (d : BitVec 4) (e : BitVec 8) (f : BitVec 6) : fld (a ++ b ++ c ++ d ++ e ++ f) 18 4 = c := by
  unfold fld
  rw [ext_high (by decide), ext_high (by decide), ext_high (by decide), ext_low (by decide)]
  exact BitVec.extractLsb'_eq_self
@[simp] theorem fld_lay25_d (a : BitVec 6) (b : BitVec 4) (c : BitVec 4) (d : BitVec 4) (e : BitVec 8) (f : BitVec 6) : fld (a ++ b ++ c ++ d ++ e ++ f) 14 4 = d := by
  unfold fld
  rw [ext_high (by decide), ext_high (by decide), ext_low (by decide)]
  exact BitVec.extractLsb'_eq_self
@[simp] theorem fld_lay25_e (a : BitVec 6) (b : BitVec 4) (c : BitVec 4) (d : BitVec 4) (e : BitVec 8) (f : BitVec 6) : fld (a ++ b ++ c ++ d ++ e ++ f) 6 8 = e := by
  unfold fld
  rw [ext_high (by decide), ext_low (by decide)]
  exact BitVec.extractLsb'_eq_self
@[simp] theorem fld_lay25_f (a : BitVec 6) (b : BitVec 4) (c : BitVec 4) (d : BitVec 4) (e : BitVec 8) (f : BitVec 6) : fld (a ++ b ++ c ++ d ++ e ++ f) 0 6 = f := by
  unfold fld
  rw [ext_low (by decide)]
  exact BitVec.extractLsb'_eq_self
@[simp] theorem fld_lay26_a (a : BitVec 6) (b : BitVec 4) (c : BitVec 4) (d : BitVec 4) (e : BitVec 6) (f : BitVec 2) (g : BitVec 6) : fld (a ++ b ++ c ++ d ++ e ++ f ++ g) 26 6 = a := by
  unfold fld
  rw [ext_high (by decide), ext_high (by decide), ext_high (by decide), ext_high (by decide), ext_high (by decide), ext_high (by decide)]
  exact BitVec.extractLsb'_eq_self
@[simp] theorem fld_lay26_b (a : BitVec 6) (b : BitVec 4) (c : BitVec 4) (d : BitVec 4) (e : BitVec 6) (f : BitVec 2) (g : BitVec 6) : fld (a ++ b ++ c ++ d ++ e ++ f ++ g) 22 4 = b := by
  unfold fld
  rw [ext_high (by decide), ext_high (by decide), ext_high (by decide), ext_high (by decide), ext_high (by decide), ext_low (by decide)]
  exact BitVec.extractLsb'_eq_self
@[simp] theorem fld_lay26_c (a : BitVec 6) (b : BitVec 4) (c : BitVec 4) (d : BitVec 4) (e : BitVec 6) (f : BitVec 2) (g : BitVec 6) : fld (a ++ b ++ c ++ d ++ e ++ f ++ g) 18 4 = c := by
  unfold fld
  rw [ext_high (by decide), ext_high (by decide), ext_high (by decide), ext_high (by decide), ext_low (by decide)]
  exact BitVec.extractLsb'_eq_self
@[simp] theorem fld_lay26_d (a : BitVec 6) (b : BitVec 4) (c : BitVec 4) (d : BitVec 4) (e : BitVec 6) (f : BitVec 2) (g : BitVec 6) : fld (a ++ b ++ c ++ d ++ e ++ f ++ g) 14 4 = d := by
  unfold fld
  rw [ext_high (by decide), ext_high (by decide), ext_high (by decide), ext_low (by decide)]
  exact BitVec.extractLsb'_eq_self
@[simp] theorem fld_lay26_e (a : BitVec 6) (b : BitVec 4) (c : BitVec 4) (d : BitVec 4) (e : BitVec 6) (f : BitVec 2) (g : BitVec 6) : fld (a ++ b ++ c ++ d ++ e ++ f ++ g) 8 6 = e := by
  unfold fld
  rw [ext_high (by decide), ext_high (by decide), ext_low (by decide)]
  exact BitVec.extractLsb'_eq_self
@[simp] theorem fld_lay26_f (a : BitVec 6) (b : BitVec 4) (c : BitVec 4) (d : BitVec 4) (e : BitVec 6) (f : BitVec 2) (g : BitVec 6) : fld (a ++ b ++ c ++ d ++ e ++ f ++ g) 6 2 = f := by
  unfold fld
  rw [ext_high (by decide), ext_low (by decide)]
  exact BitVec.extractLsb'_eq_self
@[simp] theorem fld_lay26_g (a : BitVec 6) (b : BitVec 4) (c : BitVec 4) (d : BitVec 4) (e : BitVec 6) (f : BitVec 2) (g : BitVec 6) : fld (a ++ b ++ c ++ d ++ e ++ f ++ g) 0 6 = g := by
  unfold fld
  rw [ext_low (by decide)]
  exact BitVec.extractLsb'_eq_self
@[simp] theorem fld_lay27_a (a : BitVec 6) (b : BitVec 4) (c : BitVec 4) (d : BitVec 4) (e : BitVec 2) (f : BitVec 12) : fld (a ++ b ++ c ++ d ++ e ++ f) 26 6 = a := by
  unfold fld
  rw [ext_high (by decide), ext_high (by decide), ext_high (by decide), ext_high (by decide), ext_high (by decide)]
  exact BitVec.extractLsb'_eq_self
@[simp] theorem fld_lay27_b (a : BitVec 6) (b : BitVec 4) (c : BitVec 4) (d : BitVec 4) (e : BitVec 2) (f : BitVec 12) : fld (a ++ b ++ c ++ d ++ e ++ f) 22 4 = b := by
  unfold fld
  rw [ext_high (by decide), ext_high (by decide), ext_high (by decide), ext_high (by decide), ext_low (by decide)]
  exact BitVec.extractLsb'_eq_self
@[simp] theorem fld_lay27_c (a : BitVec 6) (b : BitVec 4) (c : BitVec 4) (d : BitVec 4) (e : BitVec 2) (f : BitVec 12) : fld (a ++ b ++ c ++ d ++ e ++ f) 18 4 = c := by
  unfold fld
  rw [ext_high (by decide), ext_high (by decide), ext_high (by decide), ext_low (by decide)]
  exact BitVec.extractLsb'_eq_self
@[simp] theorem fld_lay27_d (a : BitVec 6) (b : BitVec 4) (c : BitVec 4) (d : BitVec 4) (e : BitVec 2) (f : BitVec 12) : fld (a ++ b ++ c ++ d ++ e ++ f) 14 4 = d := by
  unfold fld
  rw [ext_high (by decide), ext_high (by decide), ext_low (by decide)]
  exact BitVec.extractLsb'_eq_self
@[simp] theorem fld_lay27_e (a : BitVec 6) (b : BitVec 4) (c : BitVec 4) (d : BitVec 4) (e : BitVec 2) (f : BitVec 12) : fld (a ++ b ++ c ++ d ++ e ++ f) 12 2 = e := by
  unfold fld
  rw [ext_high (by decide), ext_low (by decide)]
  exact BitVec.extractLsb'_eq_self
@[simp] theorem fld_lay27_f (a : BitVec 6) (b : BitVec 4) (c : BitVec 4) (d : BitVec 4) (e : BitVec 2) (f : BitVec 12) : fld (a ++ b ++ c ++ d ++ e ++ f) 0 12 = f := by
  unfold fld
  rw [ext_low (by decide)]
  exact BitVec.extractLsb'_eq_self
@[simp] theorem fld_lay28_a (a : BitVec 6) (b : BitVec 4) (c : BitVec 4) (d : BitVec 4) (e : BitVec 2) (f : BitVec 1) (g : BitVec 1) (h : BitVec 10) : fld (a ++ b ++ c ++ d ++ e ++ f ++ g ++ h) 26 6 = a := by
  unfold fld
  rw [ext_high (by decide), ext_high (by decide), ext_high (by decide), ext_high (by decide), ext_high (by decide), ext_high (by decide), ext_high (by decide)]
  exact BitVec.extractLsb'_eq_self
@[simp] theorem fld_lay28_b (a : BitVec 6) (b : BitVec 4) (c : BitVec 4) (d : BitVec 4) (e : BitVec 2) (f : BitVec 1) (g : BitVec 1) (h : BitVec 10) : fld (a ++ b ++ c ++ d ++ e ++ f ++ g ++ h) 22 4 = b := by
  unfold fld
  rw [ext_high (by decide), ext_high (by decide), ext_high (by decide), ext_high (by decide), ext_high (by decide), ext_high (by decide), ext_low (by decide)]
  exact BitVec.extractLsb'_eq_self
@[simp] theorem fld_lay28_c (a : BitVec 6) (b : BitVec 4) (c : BitVec 4) (d : BitVec 4) (e : BitVec 2) (f : BitVec 1) (g : BitVec 1) (h : BitVec 10) : fld (a ++ b ++ c ++ d ++ e ++ f ++ g ++ h) 18 4 = c := by
  unfold fld
  rw [ext_high (by decide), ext_high (by decide), ext_high (by decide), ext_high (by decide), ext_high (by decide), ext_low (by decide)]
  exact BitVec.extractLsb'_eq_self
@[simp] theorem fld_lay28_d (a : BitVec 6) (b : BitVec 4) (c : BitVec 4) (d : BitVec 4) (e : BitVec 2) (f : BitVec 1) (g : BitVec 1) (h : BitVec 10) : fld (a ++ b ++ c ++ d ++ e ++ f ++ g ++ h) 14 4 = d := by
  unfold fld
  rw [ext_high (by decide), ext_high (by decide), ext_high (by decide), ext_high (by decide), ext_low (by decide)]
  exact BitVec.extractLsb'_eq_self
@[simp] theorem fld_lay28_e (a : BitVec 6) (b : BitVec 4) (c : BitVec 4) (d : BitVec 4) (e : BitVec 2) (f : BitVec 1) (g : BitVec 1) (h : BitVec 10) : fld (a ++ b ++ c ++ d ++ e ++ f ++ g ++ h) 12 2 = e := by
  unfold fld
  rw [ext_high (by decide), ext_high (by decide), ext_high (by decide), ext_low (by decide)]
  exact BitVec.extractLsb'_eq_self
@[simp] theorem fld_lay28_f (a : BitVec 6) (b : BitVec 4) (c : BitVec 4) (d : BitVec 4) (e : BitVec 2) (f : BitVec 1) (g : BitVec 1) (h : BitVec 10) : fld (a ++ b ++ c ++ d ++ e ++ f ++ g ++ h) 11 1 = f := by
  unfold fld
  rw [ext_high (by decide), ext_high (by decide), ext_low (by decide)]
  exact BitVec.extractLsb'_eq_self
@[simp] theorem fld_lay28_g (a : BitVec 6) (b : BitVec 4) (c : BitVec 4) (d : BitVec 4) (e : BitVec 2) (f : BitVec 1) (g : BitVec 1) (h : BitVec 10) : fld (a ++ b ++ c ++ d ++ e ++ f ++ g ++ h) 10 1 = g := by
  unfold fld
  rw [ext_high (by decide), ext_low (by decide)]
  exact BitVec.extractLsb'_eq_self
@[simp] theorem fld_lay28_h (a : BitVec 6) (b : BitVec 4) (c : BitVec 4) (d : BitVec 4) (e : BitVec 2) (f : BitVec 1) (g : BitVec 1) (h : BitVec 10) : fld (a ++ b ++ c ++ d ++ e ++ f ++ g ++ h) 0 10 = h := by
  unfold fld
  rw [ext_low (by decide)]
  exact BitVec.extractLsb'_eq_self
@[simp] theorem fld_lay29_a (a : BitVec 6) (b : BitVec 4) (c : BitVec 4) (d : BitVec 4) (e : BitVec 2) (f : BitVec 1) (g : BitVec 1) (h : BitVec 4) (i : BitVec 6) : fld (a ++ b ++ c ++ d ++ e ++ f ++ g ++ h ++ i) 26 6 = a := by
  unfold fld
  rw [ext_high (by decide), ext_high (by decide), ext_high (by decide), ext_high (by decide), ext_high (by decide), ext_high (by decide), ext_high (by decide), ext_high (by decide)]
  exact BitVec.extractLsb'_eq_self
@[simp] theorem fld_lay29_b (a : BitVec 6) (b : BitVec 4) (c : BitVec 4) (d : BitVec 4) (e : BitVec 2) (f : BitVec 1) (g : BitVec 1) (h : BitVec 4) (i : BitVec 6) : fld (a ++ b ++ c ++ d ++ e ++ f ++ g ++ h ++ i) 22 4 = b := by
  unfold fld
  rw [ext_high (by decide), ext_high (by decide), ext_high (by decide), ext_high (by decide), ext_high (by decide), ext_high (by decide), ext_high (by decide), ext_low (by decide)]
  exact BitVec.extractLsb'_eq_self
@[simp] theorem fld_lay29_c (a : BitVec 6) (b : BitVec 4) (c : BitVec 4) (d : BitVec 4) (e : BitVec 2) (f : BitVec 1) (g : BitVec 1) (h : BitVec 4) (i : BitVec 6) : fld (a ++ b ++ c ++ d ++ e ++ f ++ g ++ h ++ i) 18 4 = c := by
  unfold fld
  rw [ext_high (by decide), ext_high (by decide), ext_high (by decide), ext_high (by decide), ext_high (by decide), ext_high (by decide), ext_low (by decide)]
  exact BitVec.extractLsb'_eq_self
@[simp] theorem fld_lay29_d (a : BitVec 6) (b : BitVec 4) (c : BitVec 4) (d : BitVec 4) (e : BitVec 2) (f : BitVec 1) (g : BitVec 1) (h : BitVec 4) (i : BitVec 6) : fld (a ++ b ++ c ++ d ++ e ++ f ++ g ++ h ++ i) 14 4 = d := by
  unfold fld
  rw [ext_high (by decide), ext_high (by decide), ext_high (by decide), ext_high (by decide), ext_high (by decide), ext_low (by decide)]
  exact BitVec.extractLsb'_eq_self
@[simp] theorem fld_lay29_e (a : BitVec 6) (b : BitVec 4) (c : BitVec 4) (d : BitVec 4) (e : BitVec 2) (f : BitVec 1) (g : BitVec 1) (h : BitVec 4) (i : BitVec 6) : fld (a ++ b ++ c ++ d ++ e ++ f ++ g ++ h ++ i) 12 2 = e := by
  unfold fld
  rw [ext_high (by decide), ext_high (by decide), ext_high (by decide), ext_high (by decide), ext_low (by decide)]
  exact BitVec.extractLsb'_eq_self
@[simp] theorem fld_lay29_f (a : BitVec 6) (b : BitVec 4) (c : BitVec 4) (d : BitVec 4) (e : BitVec 2) (f : BitVec 1) (g : BitVec 1) (h : BitVec 4) (i : BitVec 6) : fld (a ++ b ++ c ++ d ++ e ++ f ++ g ++ h ++ i) 11 1 = f := by
  unfold fld
  rw [ext_high (by decide), ext_high (by decide), ext_high (by decide), ext_low (by decide)]
  exact BitVec.extractLsb'_eq_self
@[simp] theorem fld_lay29_g (a : BitVec 6) (b : BitVec 4) (c : BitVec 4) (d : BitVec 4) (e : BitVec 2) (f : BitVec 1) (g : BitVec 1) (h : BitVec 4) (i : BitVec 6) : fld (a ++ b ++ c ++ d ++ e ++ f ++ g ++ h ++ i) 10 1 = g := by
  unfold fld
  rw [ext_high (by decide), ext_high (by decide), ext_low (by decide)]
  exact BitVec.extractLsb'_eq_self
@[simp] theorem fld_lay29_h (a : BitVec 6) (b : BitVec 4) (c : BitVec 4) (d : BitVec 4) (e : BitVec 2) (f : BitVec 1) (g : BitVec 1) (h : BitVec 4) (i : BitVec 6) : fld (a ++ b ++ c ++ d ++ e ++ f ++ g ++ h ++ i) 6 4 = h := by
  unfold fld
  rw [ext_high (by decide), ext_low (by decide)]
  exact BitVec.extractLsb'_eq_self
@[simp] theorem fld_lay29_i (a : BitVec 6) (b : BitVec 4) (c : BitVec 4) (d : BitVec 4) (e : BitVec 2) (f : BitVec 1) (g : BitVec 1) (h : BitVec 4) (i : BitVec 6) : fld (a ++ b ++ c ++ d ++ e ++ f ++ g ++ h ++ i) 0 6 = i := by
  unfold fld
  rw [ext_low (by decide)]
  exact BitVec.extractLsb'_eq_self
@[simp] theorem fld_lay30_a (a : BitVec 6) (b : BitVec 4) (c : BitVec 4) (d : BitVec 2) (e : BitVec 16) : fld (a ++ b ++ c ++ d ++ e) 26 6 = a := by
  unfold fld
  rw [ext_high (by decide), ext_high (by decide), ext_high (by decide), ext_high (by decide)]
  exact BitVec.extractLsb'_eq_self
@[simp] theorem fld_lay30_b (a : BitVec 6) (b : BitVec 4) (c : BitVec 4) (d : BitVec 2) (e : BitVec 16) : fld (a ++ b ++ c ++ d ++ e) 22 4 = b := by
  unfold fld
  rw [ext_high (by decide), ext_high (by decide), ext_high (by decide), ext_low (by decide)]
  exact BitVec.extractLsb'_eq_self
@[simp] theorem fld_lay30_c (a : BitVec 6) (b : BitVec 4) (c : BitVec 4) (d : BitVec 2) (e : BitVec 16) : fld (a ++ b ++ c ++ d ++ e) 18 4 = c := by
  unfold fld
  rw [ext_high (by decide), ext_high (by decide), ext_low (by decide)]
  exact BitVec.extractLsb'_eq_self
@[simp] theorem fld_lay30_d (a : BitVec 6) (b : BitVec 4) (c : BitVec 4) (d : BitVec 2) (e : BitVec 16) : fld (a ++ b ++ c ++ d ++ e) 16 2 = d := by
  unfold fld
  rw [ext_high (by decide), ext_low (by decide)]
  exact BitVec.extractLsb'_eq_self
@[simp] theorem fld_lay30_e (a : BitVec 6) (b : BitVec 4) (c : BitVec 4) (d : BitVec 2) (e : BitVec 16) : fld (a ++ b ++ c ++ d ++ e) 0 16 = e := by
  unfold fld
  rw [ext_low (by decide)]
  exact BitVec.extractLsb'_eq_self
@[simp] theorem fld_lay31_a (a : BitVec 6) (b : BitVec 4) (c : BitVec 4) (d : BitVec 2) (e : BitVec 10) (f : BitVec 6) : fld (a ++ b ++ c ++ d ++ e ++ f) 26 6 = a := by
  unfold fld
  rw [ext_high (by decide), ext_high (by decide), ext_high (by decide), ext_high (by decide), ext_high (by decide)]
  exact BitVec.extractLsb'_eq_self
@[simp] theorem fld_lay31_b (a : BitVec 6) (b : BitVec 4) (c : BitVec 4) (d : BitVec 2) (e : BitVec 10) (f : BitVec 6) : fld (a ++ b ++ c ++ d ++ e ++ f) 22 4 = b := by
  unfold fld
  rw [ext_high (by decide), ext_high (by decide), ext_high (by decide), ext_high (by decide), ext_low (by decide)]
  exact BitVec.extractLsb'_eq_self
@[simp] theorem fld_lay31_c (a : BitVec 6) (b : BitVec 4) (c : BitVec 4) (d : BitVec 2) (e : BitVec 10) (f : BitVec 6) : fld (a ++ b ++ c ++ d ++ e ++ f) 18 4 = c := by
  unfold fld
  rw [ext_high (by decide), ext_high (by decide), ext_high (by decide), ext_low (by decide)]
  exact BitVec.extractLsb'_eq_self
@[simp] theorem fld_lay31_d (a : BitVec 6) (b : BitVec 4) (c : BitVec 4) (d : BitVec 2) (e : BitVec 10) (f : BitVec 6) : fld (a ++ b ++ c ++ d ++ e ++ f) 16 2 = d := by
  unfold fld
  rw [ext_high (by decide), ext_high (by decide), ext_low (by decide)]
  exact BitVec.extractLsb'_eq_self
@[simp] theorem fld_lay31_e (a : BitVec 6) (b : BitVec 4) (c : BitVec 4) (d : BitVec 2) (e : BitVec 10) (f : BitVec 6) : fld (a ++ b ++ c ++ d ++ e ++ f) 6 10 = e := by
  unfold fld
  rw [ext_high (by decide), ext_low (by decide)]
  exact BitVec.extractLsb'_eq_self
@[simp] theorem fld_lay31_f (a : BitVec 6) (b : BitVec 4) (c : BitVec 4) (d : BitVec 2) (e : BitVec 10) (f : BitVec 6) : fld (a ++ b ++ c ++ d ++ e ++ f) 0 6 = f := by
  unfold fld
  rw [ext_low (by decide)]
  exact BitVec.extractLsb'_eq_self
@[simp] theorem fld_lay32_a (a : BitVec 6) (b : BitVec 4) (c : BitVec 4) (d : BitVec 2) (e : BitVec 2) (f : BitVec 8) (g : BitVec 6) : fld (a ++ b ++ c ++ d ++ e ++ f ++ g) 26 6 = a := by
  unfold fld
  rw [ext_high (by decide), ext_high (by decide), ext_high (by decide), ext_high (by decide), ext_high (by decide), ext_high (by decide)]
  exact BitVec.extractLsb'_eq_self
@[simp] theorem fld_lay32_b (a : BitVec 6) (b : BitVec 4) (c : BitVec 4) (d : BitVec 2) (e : BitVec 2) (f : BitVec 8) (g : BitVec 6) : fld (a ++ b ++ c ++ d ++ e ++ f ++ g) 22 4 = b := by
  unfold fld
  rw [ext_high (by decide), ext_high (by decide), ext_high (by decide), ext_high (by decide), ext_high (by decide), ext_low (by decide)]
  exact BitVec.extractLsb'_eq_self
@[simp] theorem fld_lay32_c (a : BitVec 6) (b : BitVec 4) (c : BitVec 4) (d : BitVec 2) (e : BitVec 2) (f : BitVec 8) (g : BitVec 6) : fld (a ++ b ++ c ++ d ++ e ++ f ++ g) 18 4 = c := by
  unfold fld
  rw [ext_high (by decide), ext_high (by decide), ext_high (by decide), ext_high (by decide), ext_low (by decide)]
  exact BitVec.extractLsb'_eq_self
@[simp] theorem fld_lay32_d (a : BitVec 6) (b : BitVec 4) (c : BitVec 4) (d : BitVec 2) (e : BitVec 2) (f : BitVec 8) (g : BitVec 6) : fld (a ++ b ++ c ++ d ++ e ++ f ++ g) 16 2 = d := by
  unfold fld
  rw [ext_high (by decide), ext_high (by decide), ext_high (by decide), ext_low (by decide)]
  exact BitVec.extractLsb'_eq_self
@[simp] theorem fld_lay32_e (a : BitVec 6) (b : BitVec 4) (c : BitVec 4) (d : BitVec 2) (e : BitVec 2) (f : BitVec 8) (g : BitVec 6) : fld (a ++ b ++ c ++ d ++ e ++ f ++ g) 14 2 = e := by
  unfold fld
  rw [ext_high (by decide), ext_high (by decide), ext_low (by decide)]
  exact BitVec.extractLsb'_eq_self
@[simp] theorem fld_lay32_f (a : BitVec 6) (b : BitVec 4) (c : BitVec 4) (d : BitVec 2) (e : BitVec 2) (f : BitVec 8) (g : BitVec 6) : fld (a ++ b ++ c ++ d ++ e ++ f ++ g) 6 8 = f := by
  unfold fld
  rw [ext_high (by decide), ext_low (by decide)]
  exact BitVec.extractLsb'_eq_self
@[simp] theorem fld_lay32_g (a : BitVec 6) (b : BitVec 4) (c : BitVec 4) (d : BitVec 2) (e : BitVec 2) (f : BitVec 8) (g : BitVec 6) : fld (a ++ b ++ c ++ d ++ e ++ f ++ g) 0 6 = g := by
  unfold fld
  rw [ext_low (by decide)]
  exact BitVec.extractLsb'_eq_self
@[simp] theorem fld_lay33_a (a : BitVec 6) (b : BitVec 4) (c : BitVec 4) (d : BitVec 2) (e : BitVec 2) (f : BitVec 2) (g : BitVec 12) : fld (a ++ b ++ c ++ d ++ e ++ f ++ g) 26 6 = a := by
  unfold fld
  rw [ext_high (by decide), ext_high (by decide), ext_high (by decide), ext_high (by decide), ext_high (by decide), ext_high (by decide)]
  exact BitVec.extractLsb'_eq_self
@[simp] theorem fld_lay33_b (a : BitVec 6) (b : BitVec 4) (c : BitVec 4) (d : BitVec 2) (e : BitVec 2) (f : BitVec 2) (g : BitVec 12) : fld (a ++ b ++ c ++ d ++ e ++ f ++ g) 22 4 = b := by
  unfold fld
  rw [ext_high (by decide), ext_high (by decide), ext_high (by decide), ext_high (by decide), ext_high (by decide), ext_low (by decide)]
  exact BitVec.extractLsb'_eq_self
@[simp] theorem fld_lay33_c (a : BitVec 6) (b : BitVec 4) (c : BitVec 4) (d : BitVec 2) (e : BitVec 2) (f : BitVec 2) (g : BitVec 12) : fld (a ++ b ++ c ++ d ++ e ++ f ++ g) 18 4 = c := by
  unfold fld
  rw [ext_high (by decide), ext_high (by decide), ext_high (by decide), ext_high (by decide), ext_low (by decide)]
  exact BitVec.extractLsb'_eq_self
@[simp] theorem fld_lay33_d (a : BitVec 6) (b : BitVec 4) (c : BitVec 4) (d : BitVec 2) (e : BitVec 2) (f : BitVec 2) (g : BitVec 12) : fld (a ++ b ++ c ++ d ++ e ++ f ++ g) 16 2 = d := by
  unfold fld
  rw [ext_high (by decide), ext_high (by decide), ext_high (by decide), ext_low (by decide)]
  exact BitVec.extractLsb'_eq_self
@[simp] theorem fld_lay33_e (a : BitVec 6) (b : BitVec 4) (c : BitVec 4) (d : BitVec 2) (e : BitVec 2) (f : BitVec 2) (g : BitVec 12) : fld (a ++ b ++ c ++ d ++ e ++ f ++ g) 14 2 = e := by
  unfold fld
  rw [ext_high (by decide), ext_high (by decide), ext_low (by decide)]
  exact BitVec.extractLsb'_eq_self
@[simp] theorem fld_lay33_f (a : BitVec 6) (b : BitVec 4) (c : BitVec 4) (d : BitVec 2) (e : BitVec 2) (f : BitVec 2) (g : BitVec 12) : fld (a ++ b ++ c ++ d ++ e ++ f ++ g) 12 2 = f := by
  unfold fld
  rw [ext_high (by decide), ext_low (by decide)]
  exact BitVec.extractLsb'_eq_self
@[simp] theorem fld_lay33_g (a : BitVec 6) (b : BitVec 4) (c : BitVec 4) (d : BitVec 2) (e : BitVec 2) (f : BitVec 2) (g : BitVec 12) : fld (a ++ b ++ c ++ d ++ e ++ f ++ g) 0 12 = g := by
  unfold fld
  rw [ext_low (by decide)]
  exact BitVec.extractLsb'_eq_self
@[simp] theorem fld_lay34_a (a : BitVec 6) (b : BitVec 3) (c : BitVec 12) (d : BitVec 7) (e : BitVec 4) : fld (a ++ b ++ c ++ d ++ e) 26 6 = a := by
  unfold fld
  rw [ext_high (by decide), ext_high (by decide), ext_high (by decide), ext_high (by decide)]
  exact BitVec.extractLsb'_eq_self
@[simp] theorem fld_lay34_b (a : BitVec 6) (b : BitVec 3) (c : BitVec 12) (d : BitVec 7) (e : BitVec 4) : fld (a ++ b ++ c ++ d ++ e) 23 3 = b := by
  unfold fld
  rw [ext_high (by decide), ext_high (by decide), ext_high (by decide), ext_low (by decide)]
  exact BitVec.extractLsb'_eq_self
@[simp] theorem fld_lay34_c (a : BitVec 6) (b : BitVec 3) (c : BitVec 12) (d : BitVec 7) (e : BitVec 4) : fld (a ++ b ++ c ++ d ++ e) 11 12 = c := by
  unfold fld
  rw [ext_high (by decide), ext_high (by decide), ext_low (by decide)]
  exact BitVec.extractLsb'_eq_self
@[simp] theorem fld_lay34_d (a : BitVec 6) (b : BitVec 3) (c : BitVec 12) (d : BitVec 7) (e : BitVec 4) : fld (a ++ b ++ c ++ d ++ e) 4 7 = d := by
  unfold fld
  rw [ext_high (by decide), ext_low (by decide)]
  exact BitVec.extractLsb'_eq_self
@[simp] theorem fld_lay34_e (a : BitVec 6) (b : BitVec 3) (c : BitVec 12) (d : BitVec 7) (e : BitVec 4) : fld (a ++ b ++ c ++ d ++ e) 0 4 = e := by
  unfold fld
  rw [ext_low (by decide)]
  exact BitVec.extractLsb'_eq_self
@[simp] theorem fld_lay35_a (a : BitVec 6) (b : BitVec 3) (c : BitVec 7) (d : BitVec 4) (e : BitVec 4) (f : BitVec 8) : fld (a ++ b ++ c ++ d ++ e ++ f) 26 6 = a := by
  unfold fld
  rw [ext_high (by decide), ext_high (by decide), ext_high (by decide), ext_high (by decide), ext_high (by decide)]
  exact BitVec.extractLsb'_eq_self
@[simp] theorem fld_lay35_b (a : BitVec 6) (b : BitVec 3) (c : BitVec 7) (d : BitVec 4) (e : BitVec 4) (f : BitVec 8) : fld (a ++ b ++ c ++ d ++ e ++ f) 23 3 = b := by
  unfold fld
  rw [ext_high (by decide), ext_high (by decide), ext_high (by decide), ext_high (by decide), ext_low (by decide)]
  exact BitVec.extractLsb'_eq_self
@[simp] theorem fld_lay35_c (a : BitVec 6) (b : BitVec 3) (c : BitVec 7) (d : BitVec 4) (e : BitVec 4) (f : BitVec 8) : fld (a ++ b ++ c ++ d ++ e ++ f) 16 7 = c := by
  unfold fld
  rw [ext_high (by decide), ext_high (by decide), ext_high (by decide), ext_low (by decide)]
  exact BitVec.extractLsb'_eq_self
@[simp] theorem fld_lay35_d (a : BitVec 6) (b : BitVec 3) (c : BitVec 7) (d : BitVec 4) (e : BitVec 4) (f : BitVec 8) : fld (a ++ b ++ c ++ d ++ e ++ f) 12 4 = d := by
  unfold fld
  rw [ext_high (by decide), ext_high (by decide), ext_low (by decide)]
  exact BitVec.extractLsb'_eq_self
@[simp] theorem fld_lay35_e (a : BitVec 6) (b : BitVec 3) (c : BitVec 7) (d : BitVec 4) (e : BitVec 4) (f : BitVec 8) : fld (a ++ b ++ c ++ d ++ e ++ f) 8 4 = e := by
  unfold fld
  rw [ext_high (by decide), ext_low (by decide)]
  exact BitVec.extractLsb'_eq_self
@[simp] theorem fld_lay35_f (a : BitVec 6) (b : BitVec 3) (c : BitVec 7) (d : BitVec 4) (e : BitVec 4) (f : BitVec 8) : fld (a ++ b ++ c ++ d ++ e ++ f) 0 8 = f := by
  unfold fld
  rw [ext_low (by decide)]
  exact BitVec.extractLsb'_eq_self
@[simp] theorem fld_lay36_a (a : BitVec 6) (b : BitVec 3) (c : BitVec 4) (d : BitVec 8) (e : BitVec 7) (f : BitVec 4) : fld (a ++ b ++ c ++ d ++ e ++ f) 26 6 = a := by
  unfold fld
  rw [ext_high (by decide), ext_high (by decide), ext_high (by decide), ext_high (by decide), ext_high (by decide)]
  exact BitVec.extractLsb'_eq_self
@[simp] theorem fld_lay36_b (a : BitVec 6) (b : BitVec 3) (c : BitVec 4) (d : BitVec 8) (e : BitVec 7) (f : BitVec 4) : fld (a ++ b ++ c ++ d ++ e ++ f) 23 3 = b := by
  unfold fld
  rw [ext_high (by decide), ext_high (by decide), ext_high (by decide), ext_high (by decide), ext_low (by decide)]
  exact BitVec.extractLsb'_eq_self
@[simp] theorem fld_lay36_c (a : BitVec 6) (b : BitVec 3) (c : BitVec 4) (d : BitVec 8) (e : BitVec 7) (f : BitVec 4) : fld (a ++ b ++ c ++ d ++ e ++ f) 19 4 = c := by
  unfold fld
  rw [ext_high (by decide), ext_high (by decide), ext_high (by decide), ext_low (by decide)]
  exact BitVec.extractLsb'_eq_self
@[simp] theorem fld_lay36_d (a : BitVec 6) (b : BitVec 3) (c : BitVec 4) (d : BitVec 8) (e : BitVec 7) (f : BitVec 4) : fld (a ++ b ++ c ++ d ++ e ++ f) 11 8 = d := by
  unfold fld
  rw [ext_high (by decide), ext_high (by decide), ext_low (by decide)]
  exact BitVec.extractLsb'_eq_self
@[simp] theorem fld_lay36_e (a : BitVec 6) (b : BitVec 3) (c : BitVec 4) (d : BitVec 8) (e : BitVec 7) (f : BitVec 4) : fld (a ++ b ++ c ++ d ++ e ++ f) 4 7 = e := by
  unfold fld
  rw [ext_high (by decide), ext_low (by decide)]
  exact BitVec.extractLsb'_eq_self
@[simp] theorem fld_lay36_f (a : BitVec 6) (b : BitVec 3) (c : BitVec 4) (d : BitVec 8) (e : BitVec 7) (f : BitVec 4) : fld (a ++ b ++ c ++ d ++ e ++ f) 0 4 = f := by
  unfold fld
  rw [ext_low (by decide)]
  exact BitVec.extractLsb'_eq_self
@[simp] theorem fld_lay37_a (a : BitVec 6) (b : BitVec 3) (c : BitVec 4) (d : BitVec 4) (e : BitVec 4) (f : BitVec 7) (g : BitVec 4) : fld (a ++ b ++ c ++ d ++ e ++ f ++ g) 26 6 = a := by
  unfold fld
  rw [ext_high (by decide), ext_high (by decide), ext_high (by decide), ext_high (by decide), ext_high (by decide), ext_high (by decide)]
  exact BitVec.extractLsb'_eq_self
@[simp] theorem fld_lay37_b (a : BitVec 6) (b : BitVec 3) (c : BitVec 4) (d : BitVec 4) (e : BitVec 4) (f : BitVec 7) (g : BitVec 4) : fld (a ++ b ++ c ++ d ++ e ++ f ++ g) 23 3 = b := by
  unfold fld
  rw [ext_high (by decide), ext_high (by decide), ext_high (by decide), ext_high (by decide), ext_high (by decide), ext_low (by decide)]
  exact BitVec.extractLsb'_eq_self
@[simp] theorem fld_lay37_c (a : BitVec 6) (b : BitVec 3) (c : BitVec 4) (d : BitVec 4) (e : BitVec 4) (f : BitVec 7) (g : BitVec 4) : fld (a ++ b ++ c ++ d ++ e ++ f ++ g) 19 4 = c := by
  unfold fld
  rw [ext_high (by decide), ext_high (by decide), ext_high (by decide), ext_high (by decide), ext_low (by decide)]
  exact BitVec.extractLsb'_eq_self
@[simp] theorem fld_lay37_d (a : BitVec 6) (b : BitVec 3) (c : BitVec 4) (d : BitVec 4) (e : BitVec 4) (f : BitVec 7) (g : BitVec 4) : fld (a ++ b ++ c ++ d ++ e ++ f ++ g) 15 4 = d := by
  unfold fld
  rw [ext_high (by decide), ext_high (by decide), ext_high (by decide), ext_low (by decide)]
  exact BitVec.extractLsb'_eq_self
@[simp] theorem fld_lay37_e (a : BitVec 6) (b : BitVec 3) (c : BitVec 4) (d : BitVec 4) (e : BitVec 4) (f : BitVec 7) (g : BitVec 4) : fld (a ++ b ++ c ++ d ++ e ++ f ++ g) 11 4 = e := by
  unfold fld
  rw [ext_high (by decide), ext_high (by decide), ext_low (by decide)]
  exact BitVec.extractLsb'_eq_self
@[simp] theorem fld_lay37_f (a : BitVec 6) (b : BitVec 3) (c : BitVec 4) (d : BitVec 4) (e : BitVec 4) (f : BitVec 7) (g : BitVec 4) : fld (a ++ b ++ c ++ d ++ e ++ f ++ g) 4 7 = f := by
  unfold fld
  rw [ext_high (by decide), ext_low (by decide)]
  exact BitVec.extractLsb'_eq_self
@[simp] theorem fld_lay37_g (a : BitVec 6) (b : BitVec 3) (c : BitVec 4) (d : BitVec 4) (e : BitVec 4) (f : BitVec 7) (g : BitVec 4) : fld (a ++ b ++ c ++ d ++ e ++ f ++ g) 0 4 = g := by
  unfold fld
  rw [ext_low (by decide)]
  exact BitVec.extractLsb'_eq_self
@[simp] theorem fld_lay38_a (a : BitVec 6) (b : BitVec 3) (c : BitVec 4) (d : BitVec 4) (e : BitVec 4) (f : BitVec 7) (g : BitVec 1) (h : BitVec 3) : fld (a ++ b ++ c ++ d ++ e ++ f ++ g ++ h) 26 6 = a := by
  unfold fld
  rw [ext_high (by decide), ext_high (by decide), ext_high (by decide), ext_high (by decide), ext_high (by decide), ext_high (by decide), ext_high (by decide)]
  exact BitVec.extractLsb'_eq_self
@[simp] theorem fld_lay38_b (a : BitVec 6) (b : BitVec 3) (c : BitVec 4) (d : BitVec 4) (e : BitVec 4) (f : BitVec 7) (g : BitVec 1) (h : BitVec 3) : fld (a ++ b ++ c ++ d ++ e ++ f ++ g ++ h) 23 3 = b := by
  unfold fld
  rw [ext_high (by decide), ext_high (by decide), ext_high (by decide), ext_high (by decide), ext_high (by decide), ext_high (by decide), ext_low (by decide)]
  exact BitVec.extractLsb'_eq_self
@[simp] theorem fld_lay38_c (a : BitVec 6) (b : BitVec 3) (c : BitVec 4) (d : BitVec 4) (e : BitVec 4) (f : BitVec 7) (g : BitVec 1) (h : BitVec 3) : fld (a ++ b ++ c ++ d ++ e ++ f ++ g ++ h) 19 4 = c := by
  unfold fld
  rw [ext_high (by decide), ext_high (by decide), ext_high (by decide), ext_high (by decide), ext_high (by decide), ext_low (by decide)]
  exact BitVec.extractLsb'_eq_self
@[simp] theorem fld_lay38_d (a : BitVec 6) (b : BitVec 3) (c : BitVec 4) (d : BitVec 4) (e : BitVec 4) (f : BitVec 7) (g : BitVec 1) (h : BitVec 3) : fld (a ++ b ++ c ++ d ++ e ++ f ++ g ++ h) 15 4 = d := by
  unfold fld
  rw [ext_high (by decide), ext_high (by decide), ext_high (by decide), ext_high (by decide), ext_low (by decide)]
  exact BitVec.extractLsb'_eq_self
@[simp] theorem fld_lay38_e (a : BitVec 6) (b : BitVec 3) (c : BitVec 4) (d : BitVec 4) (e : BitVec 4) (f : BitVec 7) (g : BitVec 1) (h : BitVec 3) : fld (a ++ b ++ c ++ d ++ e ++ f ++ g ++ h) 11 4 = e := by
  unfold fld
  rw [ext_high (by decide), ext_high (by decide), ext_high (by decide), ext_low (by decide)]
  exact BitVec.extractLsb'_eq_self
@[simp] theorem fld_lay38_f (a : BitVec 6) (b : BitVec 3) (c : BitVec 4) (d : BitVec 4) (e : BitVec 4) (f : BitVec 7) (g : BitVec 1) (h : BitVec 3) : fld (a ++ b ++ c ++ d ++ e ++ f ++ g ++ h) 4 7 = f := by
  unfold fld
  rw [ext_high (by decide), ext_high (by decide), ext_low (by decide)]
  exact BitVec.extractLsb'_eq_self
@[simp] theorem fld_lay38_g (a : BitVec 6) (b : BitVec 3) (c : BitVec 4) (d : BitVec 4) (e : BitVec 4) (f : BitVec 7) (g : BitVec 1) (h : BitVec 3) : fld (a ++ b ++ c ++ d ++ e ++ f ++ g ++ h) 3 1 = g := by
  unfold fld
  rw [ext_high (by decide), ext_low (by decide)]
  exact BitVec.extractLsb'_eq_self
@[simp] theorem fld_lay38_h (a : BitVec 6) (b : BitVec 3) (c : BitVec 4) (d : BitVec 4) (e : BitVec 4) (f : BitVec 7) (g : BitVec 1) (h : BitVec 3) : fld (a ++ b ++ c ++ d ++ e ++ f ++ g ++ h) 0 3 = h := by
  unfold fld
  rw [ext_low (by decide)]
  exact BitVec.extractLsb'_eq_self
@[simp] theorem fld_lay39_a (a : BitVec 6) (b : BitVec 3) (c : BitVec 4) (d : BitVec 4) (e : BitVec 4) (f : BitVec 3) (g : BitVec 4) (h : BitVec 1) (i : BitVec 3) : fld (a ++ b ++ c ++ d ++ e ++ f ++ g ++ h ++ i) 26 6 = a := by
  unfold fld
  rw [ext_high (by decide), ext_high (by decide), ext_high (by decide), ext_high (by decide), ext_high (by decide), ext_high (by decide), ext_high (by decide), ext_high (by decide)]
  exact BitVec.extractLsb'_eq_self
@[simp] theorem fld_lay39_b (a : BitVec 6) (b : BitVec 3) (c : BitVec 4) (d : BitVec 4) (e : BitVec 4) (f : BitVec 3) (g : BitVec 4) (h : BitVec 1) (i : BitVec 3) : fld (a ++ b ++ c ++ d ++ e ++ f ++ g ++ h ++ i) 23 3 = b := by
  unfold fld
  rw [ext_high (by decide), ext_high (by decide), ext_high (by decide), ext_high (by decide), ext_high (by decide), ext_high (by decide), ext_high (by decide), ext_low (by decide)]
  exact BitVec.extractLsb'_eq_self
@[simp] theorem fld_lay39_c (a : BitVec 6) (b : BitVec 3) (c : BitVec 4) (d : BitVec 4) (e : BitVec 4) (f : BitVec 3) (g : BitVec 4) (h : BitVec 1) (i : BitVec 3) : fld (a ++ b ++ c ++ d ++ e ++ f ++ g ++ h ++ i) 19 4 = c := by
  unfold fld
  rw [ext_high (by decide), ext_high (by decide), ext_high (by decide), ext_high (by decide), ext_high (by decide), ext_high (by decide), ext_low (by decide)]
  exact BitVec.extractLsb'_eq_self
@[simp] theorem fld_lay39_d (a : BitVec 6) (b : BitVec 3) (c : BitVec 4) (d : BitVec 4) (e : BitVec 4) (f : BitVec 3) (g : BitVec 4) (h : BitVec 1) (i : BitVec 3) : fld (a ++ b ++ c ++ d ++ e ++ f ++ g ++ h ++ i) 15 4 = d := by
  unfold fld
  rw [ext_high (by decide), ext_high (by decide), ext_high (by decide), ext_high (by decide), ext_high (by decide), ext_low (by decide)]
  exact BitVec.extractLsb'_eq_self
@[simp] theorem fld_lay39_e (a : BitVec 6) (b : BitVec 3) (c : BitVec 4) (d : BitVec 4) (e : BitVec 4) (f : BitVec 3) (g : BitVec 4) (h : BitVec 1) (i : BitVec 3) : fld (a ++ b ++ c ++ d ++ e ++ f ++ g ++ h ++ i) 11 4 = e := by
  unfold fld
  rw [ext_high (by decide), ext_high (by decide), ext_high (by decide), ext_high (by decide), ext_low (by decide)]
  exact BitVec.extractLsb'_eq_self
@[simp] theorem fld_lay39_f (a : BitVec 6) (b : BitVec 3) (c : BitVec 4) (d : BitVec 4) (e : BitVec 4) (f : BitVec 3) (g : BitVec 4) (h : BitVec 1) (i : BitVec 3) : fld (a ++ b ++ c ++ d ++ e ++ f ++ g ++ h ++ i) 8 3 = f := by
  unfold fld
  rw [ext_high (by decide), ext_high (by decide), ext_high (by decide), ext_low (by decide)]
  exact BitVec.extractLsb'_eq_self
@[simp] theorem fld_lay39_g (a : BitVec 6) (b : BitVec 3) (c : BitVec 4) (d : BitVec 4) (e : BitVec 4) (f : BitVec 3) (g : BitVec 4) (h : BitVec 1) (i : BitVec 3) : fld (a ++ b ++ c ++ d ++ e ++ f ++ g ++ h ++ i) 4 4 = g := by
  unfold fld
  rw [ext_high (by decide), ext_high (by decide), ext_low (by decide)]
  exact BitVec.extractLsb'_eq_self
@[simp] theorem fld_lay39_h (a : BitVec 6) (b : BitVec 3) (c : BitVec 4) (d : BitVec 4) (e : BitVec 4) (f : BitVec 3) (g : BitVec 4) (h : BitVec 1) (i : BitVec 3) : fld (a ++ b ++ c ++ d ++ e ++ f ++ g ++ h ++ i) 3 1 = h := by
  unfold fld
  rw [ext_high (by decide), ext_low (by decide)]
  exact BitVec.extractLsb'_eq_self
@[simp] theorem fld_lay39_i (a : BitVec 6) (b : BitVec 3) (c : BitVec 4) (d : BitVec 4) (e : BitVec 4) (f : BitVec 3) (g : BitVec 4) (h : BitVec 1) (i : BitVec 3) : fld (a ++ b ++ c ++ d ++ e ++ f ++ g ++ h ++ i) 0 3 = i := by
  unfold fld
  rw [ext_low (by decide)]
  exact BitVec.extractLsb'_eq_self
@[simp] theorem fld_lay40_a (a : BitVec 6) (b : BitVec 3) (c : BitVec 3) (d : BitVec 4) (e : BitVec 4) (f : BitVec 4) (g : BitVec 8) : fld (a ++ b ++ c ++ d ++ e ++ f ++ g) 26 6 = a := by
  unfold fld
  rw [ext_high (by decide), ext_high (by decide), ext_high (by decide), ext_high (by decide), ext_high (by decide), ext_high (by decide)]
  exact BitVec.extractLsb'_eq_self
@[simp] theorem fld_lay40_b (a : BitVec 6) (b : BitVec 3) (c : BitVec 3) (d : BitVec 4) (e : BitVec 4) (f : BitVec 4) (g : BitVec 8) : fld (a ++ b ++ c ++ d ++ e ++ f ++ g) 23 3 = b := by
  unfold fld
  rw [ext_high (by decide), ext_high (by decide), ext_high (by decide), ext_high (by decide), ext_high (by decide), ext_low (by decide)]
  exact BitVec.extractLsb'_eq_self
@[simp] theorem fld_lay40_c (a : BitVec 6) (b : BitVec 3) (c : BitVec 3) (d : BitVec 4) (e : BitVec 4) (f : BitVec 4) (g : BitVec 8) : fld (a ++ b ++ c ++ d ++ e ++ f ++ g) 20 3 = c := by
  unfold fld
  rw [ext_high (by decide), ext_high (by decide), ext_high (by decide), ext_high (by decide), ext_low (by decide)]
  exact BitVec.extractLsb'_eq_self
@[simp] theorem fld_lay40_d (a : BitVec 6) (b : BitVec 3) (c : BitVec 3) (d : BitVec 4) (e : BitVec 4) (f : BitVec 4) (g : BitVec 8) : fld (a ++ b ++ c ++ d ++ e ++ f ++ g) 16 4 = d := by
  unfold fld
  rw [ext_high (by decide), ext_high (by decide), ext_high (by decide), ext_low (by decide)]
  exact BitVec.extractLsb'_eq_self
@[simp] theorem fld_lay40_e (a : BitVec 6) (b : BitVec 3) (c : BitVec 3) (d : BitVec 4) (e : BitVec 4) (f : BitVec 4) (g : BitVec 8) : fld (a ++ b ++ c ++ d ++ e ++ f ++ g) 12 4 = e := by
  unfold fld
  rw [ext_high (by decide), ext_high (by decide), ext_low (by decide)]
  exact BitVec.extractLsb'_eq_self
@[simp] theorem fld_lay40_f (a : BitVec 6) (b : BitVec 3) (c : BitVec 3) (d : BitVec 4) (e : BitVec 4) (f : BitVec 4) (g : BitVec 8) : fld (a ++ b ++ c ++ d ++ e ++ f ++ g) 8 4 = f := by
  unfold fld
  rw [ext_high (by decide), ext_low (by decide)]
  exact BitVec.extractLsb'_eq_self
@[simp] theorem fld_lay40_g (a : BitVec 6) (b : BitVec 3) (c : BitVec 3) (d : BitVec 4) (e : BitVec 4) (f : BitVec 4) (g : BitVec 8) : fld (a ++ b ++ c ++ d ++ e ++ f ++ g) 0 8 = g := by
  unfold fld
  rw [ext_low (by decide)]
  exact BitVec.extractLsb'_eq_self
@[simp] theorem fld_lay41_a (a : BitVec 6) (b : BitVec 3) (c : BitVec 3) (d : BitVec 4) (e : BitVec 4) (f : BitVec 4) (g : BitVec 7) (h : BitVec 1) : fld (a ++ b ++ c ++ d ++ e ++ f ++ g ++ h) 26 6 = a := by
  unfold fld
  rw [ext_high (by decide), ext_high (by decide), ext_high (by decide), ext_high (by decide), ext_high (by decide), ext_high (by decide), ext_high (by decide)]
  exact BitVec.extractLsb'_eq_self
@[simp] theorem fld_lay41_b (a : BitVec 6) (b : BitVec 3) (c : BitVec 3) (d : BitVec 4) (e : BitVec 4) (f : BitVec 4) (g : BitVec 7) (h : BitVec 1) : fld (a ++ b ++ c ++ d ++ e ++ f ++ g ++ h) 23 3 = b := by
  unfold fld
  rw [ext_high (by decide), ext_high (by decide), ext_high (by decide), ext_high (by decide), ext_high (by decide), ext_high (by decide), ext_low (by decide)]
  exact BitVec.extractLsb'_eq_self
@[simp] theorem fld_lay41_c (a : BitVec 6) (b : BitVec 3) (c : BitVec 3) (d : BitVec 4) (e : BitVec 4) (f : BitVec 4) (g : BitVec 7) (h : BitVec 1) : fld (a ++ b ++ c ++ d ++ e ++ f ++ g ++ h) 20 3 = c := by
  unfold fld
  rw [ext_high (by decide), ext_high (by decide), ext_high (by decide), ext_high (by decide), ext_high (by decide), ext_low (by decide)]
  exact BitVec.extractLsb'_eq_self
@[simp] theorem fld_lay41_d (a : BitVec 6) (b : BitVec 3) (c : BitVec 3) (d : BitVec 4) (e : BitVec 4) (f : BitVec 4) (g : BitVec 7) (h : BitVec 1) : fld (a ++ b ++ c ++ d ++ e ++ f ++ g ++ h) 16 4 = d := by
  unfold fld
  rw [ext_high (by decide), ext_high (by decide), ext_high (by decide), ext_high (by decide), ext_low (by decide)]
  exact BitVec.extractLsb'_eq_self
@[simp] theorem fld_lay41_e (a : BitVec 6) (b : BitVec 3) (c : BitVec 3) (d : BitVec 4) (e : BitVec 4) (f : BitVec 4) (g : BitVec 7) (h : BitVec 1) : fld (a ++ b ++ c ++ d ++ e ++ f ++ g ++ h) 12 4 = e := by
  unfold fld
  rw [ext_high (by decide), ext_high (by decide), ext_high (by decide), ext_low (by decide)]
  exact BitVec.extractLsb'_eq_self
@[simp] theorem fld_lay41_f (a : BitVec 6) (b : BitVec 3) (c : BitVec 3) (d : BitVec 4) (e : BitVec 4) (f : BitVec 4) (g : BitVec 7) (h : BitVec 1) : fld (a ++ b ++ c ++ d ++ e ++ f ++ g ++ h) 8 4 = f := by
  unfold fld
  rw [ext_high (by decide), ext_high (by decide), ext_low (by decide)]
  exact BitVec.extractLsb'_eq_self
@[simp] theorem fld_lay41_g (a : BitVec 6) (b : BitVec 3) (c : BitVec 3) (d : BitVec 4) (e : BitVec 4) (f : BitVec 4) (g : BitVec 7) (h : BitVec 1) : fld (a ++ b ++ c ++ d ++ e ++ f ++ g ++ h) 1 7 = g := by
  unfold fld
  rw [ext_high (by decide), ext_low (by decide)]
  exact BitVec.extractLsb'_eq_self
@[simp] theorem fld_lay41_h (a : BitVec 6) (b : BitVec 3) (c : BitVec 3) (d : BitVec 4) (e : BitVec 4) (f : BitVec 4) (g : BitVec 7) (h : BitVec 1) : fld (a ++ b ++ c ++ d ++ e ++ f ++ g ++ h) 0 1 = h := by
  unfold fld
  rw [ext_low (by decide)]
  exact BitVec.extractLsb'_eq_self
@[simp] theorem fld_lay42_a (a : BitVec 6) (b : BitVec 3) (c : BitVec 3) (d : BitVec 4) (e : BitVec 4) (f : BitVec 4) (g : BitVec 4) (h : BitVec 1) (i : BitVec 3) : fld (a ++ b ++ c ++ d ++ e ++ f ++ g ++ h ++ i) 26 6 = a := by
  unfold fld
  rw [ext_high (by decide), ext_high (by decide), ext_high (by decide), ext_high (by decide), ext_high (by decide), ext_high (by decide), ext_high (by decide), ext_high (by decide)]
  exact BitVec.extractLsb'_eq_self
@[simp] theorem fld_lay42_b (a : BitVec 6) (b : BitVec 3) (c : BitVec 3) (d : BitVec 4) (e : BitVec 4) (f : BitVec 4) (g : BitVec 4) (h : BitVec 1) (i : BitVec 3) : fld (a ++ b ++ c ++ d ++ e ++ f ++ g ++ h ++ i) 23 3 = b := by
  unfold fld
  rw [ext_high (by decide), ext_high (by decide), ext_high (by decide), ext_high (by decide), ext_high (by decide), ext_high (by decide), ext_high (by decide), ext_low (by decide)]
  exact BitVec.extractLsb'_eq_self
@[simp] theorem fld_lay42_c (a : BitVec 6) (b : BitVec 3) (c : BitVec 3) (d : BitVec 4) (e : BitVec 4) (f : BitVec 4) (g : BitVec 4) (h : BitVec 1) (i : BitVec 3) : fld (a ++ b ++ c ++ d ++ e ++ f ++ g ++ h ++ i) 20 3 = c := by
  unfold fld
  rw [ext_high (by decide), ext_high (by decide), ext_high (by decide), ext_high (by decide), ext_high (by decide), ext_high (by decide), ext_low (by decide)]
  exact BitVec.extractLsb'_eq_self
@[simp] theorem fld_lay42_d (a : BitVec 6) (b : BitVec 3) (c : BitVec 3) (d : BitVec 4) (e : BitVec 4) (f : BitVec 4) (g : BitVec 4) (h : BitVec 1) (i : BitVec 3) : fld (a ++ b ++ c ++ d ++ e ++ f ++ g ++ h ++ i) 16 4 = d := by
  unfold fld
  rw [ext_high (by decide), ext_high (by decide), ext_high (by decide), ext_high (by decide), ext_high (by decide), ext_low (by decide)]
  exact BitVec.extractLsb'_eq_self
@[simp] theorem fld_lay42_e (a : BitVec 6) (b : BitVec 3) (c : BitVec 3) (d : BitVec 4) (e : BitVec 4) (f : BitVec 4) (g : BitVec 4) (h : BitVec 1) (i : BitVec 3) : fld (a ++ b ++ c ++ d ++ e ++ f ++ g ++ h ++ i) 12 4 = e := by
  unfold fld
  rw [ext_high (by decide), ext_high (by decide), ext_high (by decide), ext_high (by decide), ext_low (by decide)]
  exact BitVec.extractLsb'_eq_self
@[simp] theorem fld_lay42_f (a : BitVec 6) (b : BitVec 3) (c : BitVec 3) (d : BitVec 4) (e : BitVec 4) (f : BitVec 4) (g : BitVec 4) (h : BitVec 1) (i : BitVec 3) : fld (a ++ b ++ c ++ d ++ e ++ f ++ g ++ h ++ i) 8 4 = f := by
  unfold fld
  rw [ext_high (by decide), ext_high (by decide), ext_high (by decide), ext_low (by decide)]
  exact BitVec.extractLsb'_eq_self
@[simp] theorem fld_lay42_g (a : BitVec 6) (b : BitVec 3) (c : BitVec 3) (d : BitVec 4) (e : BitVec 4) (f : BitVec 4) (g : BitVec 4) (h : BitVec 1) (i : BitVec 3) : fld (a ++ b ++ c ++ d ++ e ++ f ++ g ++ h ++ i) 4 4 = g := by
  unfold fld
  rw [ext_high (by decide), ext_high (by decide), ext_low (by decide)]
  exact BitVec.extractLsb'_eq_self
@[simp] theorem fld_lay42_h (a : BitVec 6) (b : BitVec 3) (c : BitVec 3) (d : BitVec 4) (e : BitVec 4) (f : BitVec 4) (g : BitVec 4) (h : BitVec 1) (i : BitVec 3) : fld (a ++ b ++ c ++ d ++ e ++ f ++ g ++ h ++ i) 3 1 = h := by
  unfold fld
  rw [ext_high (by decide), ext_low (by decide)]
  exact BitVec.extractLsb'_eq_self
@[simp] theorem fld_lay42_i (a : BitVec 6) (b : BitVec 3) (c : BitVec 3) (d : BitVec 4) (e : BitVec 4) (f : BitVec 4) (g : BitVec 4) (h : BitVec 1) (i : BitVec 3) : fld (a ++ b ++ c ++ d ++ e ++ f ++ g ++ h ++ i) 0 3 = i := by
  unfold fld
  rw [ext_low (by decide)]
  exact BitVec.extractLsb'_eq_self
@[simp] theorem fld_lay43_a (a : BitVec 6) (b : BitVec 3) (c : BitVec 3) (d : BitVec 4) (e : BitVec 4) (f : BitVec 4) (g : BitVec 3) (h : BitVec 1) (i : BitVec 4) : fld (a ++ b ++ c ++ d ++ e ++ f ++ g ++ h ++ i) 26 6 = a := by
  unfold fld
  rw [ext_high (by decide), ext_high (by decide), ext_high (by decide), ext_high (by decide), ext_high (by decide), ext_high (by decide), ext_high (by decide), ext_high (by decide)]
  exact BitVec.extractLsb'_eq_self
@[simp] theorem fld_lay43_b (a : BitVec 6) (b : BitVec 3) (c : BitVec 3) (d : BitVec 4) (e : BitVec 4) (f : BitVec 4) (g : BitVec 3) (h : BitVec 1) (i : BitVec 4) : fld (a ++ b ++ c ++ d ++ e ++ f ++ g ++ h ++ i) 23 3 = b := by
  unfold fld
  rw [ext_high (by decide), ext_high (by decide), ext_high (by decide), ext_high (by decide), ext_high (by decide), ext_high (by decide), ext_high (by decide), ext_low (by decide)]
  exact BitVec.extractLsb'_eq_self
@[simp] theorem fld_lay43_c (a : BitVec 6) (b : BitVec 3) (c : BitVec 3) (d : BitVec 4) (e : BitVec 4) (f : BitVec 4) (g : BitVec 3) (h : BitVec 1) (i : BitVec 4) : fld (a ++ b ++ c ++ d ++ e ++ f ++ g ++ h ++ i) 20 3 = c := by
  unfold fld
  rw [ext_high (by decide), ext_high (by decide), ext_high (by decide), ext_high (by decide), ext_high (by decide), ext_high (by decide), ext_low (by decide)]
  exact BitVec.extractLsb'_eq_self
@[simp] theorem fld_lay43_d (a : BitVec 6) (b : BitVec 3) (c : BitVec 3) (d : BitVec 4) (e : BitVec 4) (f : BitVec 4) (g : BitVec 3) (h : BitVec 1) (i : BitVec 4) : fld (a ++ b ++ c ++ d ++ e ++ f ++ g ++ h ++ i) 16 4 = d := by
  unfold fld
  rw [ext_high (by decide), ext_high (by decide), ext_high (by decide), ext_high (by decide), ext_high (by decide), ext_low (by decide)]
  exact BitVec.extractLsb'_eq_self
@[simp] theorem fld_lay43_e (a : BitVec 6) (b : BitVec 3) (c : BitVec 3) (d : BitVec 4) (e : BitVec 4) (f : BitVec 4) (g : BitVec 3) (h : BitVec 1) (i : BitVec 4) : fld (a ++ b ++ c ++ d ++ e ++ f ++ g ++ h ++ i) 12 4 = e := by
  unfold fld
  rw [ext_high (by decide), ext_high (by decide), ext_high (by decide), ext_high (by decide), ext_low (by decide)]
  exact BitVec.extractLsb'_eq_self
@[simp] theorem fld_lay43_f (a : BitVec 6) (b : BitVec 3) (c : BitVec 3) (d : BitVec 4) (e : BitVec 4) (f : BitVec 4) (g : BitVec 3) (h : BitVec 1) (i : BitVec 4) : fld (a ++ b ++ c ++ d ++ e ++ f ++ g ++ h ++ i) 8 4 = f := by
  unfold fld
  rw [ext_high (by decide), ext_high (by decide), ext_high (by decide), ext_low (by decide)]
  exact BitVec.extractLsb'_eq_self
@[simp] theorem fld_lay43_g (a : BitVec 6) (b : BitVec 3) (c : BitVec 3) (d : BitVec 4) (e : BitVec 4) (f : BitVec 4) (g : BitVec 3) (h : BitVec 1) (i : BitVec 4) : fld (a ++ b ++ c ++ d ++ e ++ f ++ g ++ h ++ i) 5 3 = g := by
  unfold fld
  rw [ext_high (by decide), ext_high (by decide), ext_low (by decide)]
  exact BitVec.extractLsb'_eq_self
@[simp] theorem fld_lay43_h (a : BitVec 6) (b : BitVec 3) (c : BitVec 3) (d : BitVec 4) (e : BitVec 4) (f : BitVec 4) (g : BitVec 3) (h : BitVec 1) (i : BitVec 4) : fld (a ++ b ++ c ++ d ++ e ++ f ++ g ++ h ++ i) 4 1 = h := by
  unfold fld
  rw [ext_high (by decide), ext_low (by decide)]
  exact BitVec.extractLsb'_eq_self
@[simp] theorem fld_lay43_i (a : BitVec 6) (b : BitVec 3) (c : BitVec 3) (d : BitVec 4) (e : BitVec 4) (f : BitVec 4) (g : BitVec 3) (h : BitVec 1) (i : BitVec 4) : fld (a ++ b ++ c ++ d ++ e ++ f ++ g ++ h ++ i) 0 4 = i := by
  unfold fld
  rw [ext_low (by decide)]
  exact BitVec.extractLsb'_eq_self
@[simp] theorem fld_lay44_a (a : BitVec 6) (b : BitVec 2) (c : BitVec 3) (d : BitVec 5) (e : BitVec 5) (f : BitVec 3) (g : BitVec 8) : fld (a ++ b ++ c ++ d ++ e ++ f ++ g) 26 6 = a := by
  unfold fld
  rw [ext_high (by decide), ext_high (by decide), ext_high (by decide), ext_high (by decide), ext_high (by decide), ext_high (by decide)]
  exact BitVec.extractLsb'_eq_self
@[simp] theorem fld_lay44_b (a : BitVec 6) (b : BitVec 2) (c : BitVec 3) (d : BitVec 5) (e : BitVec 5) (f : BitVec 3) (g : BitVec 8) : fld (a ++ b ++ c ++ d ++ e ++ f ++ g) 24 2 = b := by
  unfold fld
  rw [ext_high (by decide), ext_high (by decide), ext_high (by decide), ext_high (by decide), ext_high (by decide), ext_low (by decide)]
  exact BitVec.extractLsb'_eq_self
@[simp] theorem fld_lay44_c (a : BitVec 6) (b : BitVec 2) (c : BitVec 3) (d : BitVec 5) (e : BitVec 5) (f : BitVec 3) (g : BitVec 8) : fld (a ++ b ++ c ++ d ++ e ++ f ++ g) 21 3 = c := by
  unfold fld
  rw [ext_high (by decide), ext_high (by decide), ext_high (by decide), ext_high (by decide), ext_low (by decide)]
  exact BitVec.extractLsb'_eq_self
@[simp] theorem fld_lay44_d (a : BitVec 6) (b : BitVec 2) (c : BitVec 3) (d : BitVec 5) (e : BitVec 5) (f : BitVec 3) (g : BitVec 8) : fld (a ++ b ++ c ++ d ++ e ++ f ++ g) 16 5 = d := by
  unfold fld
  rw [ext_high (by decide), ext_high (by decide), ext_high (by decide), ext_low (by decide)]
  exact BitVec.extractLsb'_eq_self
@[simp] theorem fld_lay44_e (a : BitVec 6) (b : BitVec 2) (c : BitVec 3) (d : BitVec 5) (e : BitVec 5) (f : BitVec 3) (g : BitVec 8) : fld (a ++ b ++ c ++ d ++ e ++ f ++ g) 11 5 = e := by
  unfold fld
  rw [ext_high (by decide), ext_high (by decide), ext_low (by decide)]
  exact BitVec.extractLsb'_eq_self
@[simp] theorem fld_lay44_f (a : BitVec 6) (b : BitVec 2) (c : BitVec 3) (d : BitVec 5) (e : BitVec 5) (f : BitVec 3) (g : BitVec 8) : fld (a ++ b ++ c ++ d ++ e ++ f ++ g) 8 3 = f := by
  unfold fld
  rw [ext_high (by decide), ext_low (by decide)]
  exact BitVec.extractLsb'_eq_self
@[simp] theorem fld_lay44_g (a : BitVec 6) (b : BitVec 2) (c : BitVec 3) (d : BitVec 5) (e : BitVec 5) (f : BitVec 3) (g : BitVec 8) : fld (a ++ b ++ c ++ d ++ e ++ f ++ g) 0 8 = g := by
  unfold fld
  rw [ext_low (by decide)]
  exact BitVec.extractLsb'_eq_self
@[simp] theorem fld_lay45_a (a : BitVec 6) (b : BitVec 2) (c : BitVec 3) (d : BitVec 2) (e : BitVec 3) (f : BitVec 8) (g : BitVec 8) : fld (a ++ b ++ c ++ d ++ e ++ f ++ g) 26 6 = a := by
  unfold fld
  rw [ext_high (by decide), ext_high (by decide), ext_high (by decide), ext_high (by decide), ext_high (by decide), ext_high (by decide)]
  exact BitVec.extractLsb'_eq_self
@[simp] theorem fld_lay45_b (a : BitVec 6) (b : BitVec 2) (c : BitVec 3) (d : BitVec 2) (e : BitVec 3) (f : BitVec 8) (g : BitVec 8) : fld (a ++ b ++ c ++ d ++ e ++ f ++ g) 24 2 = b := by
  unfold fld
  rw [ext_high (by decide), ext_high (by decide), ext_high (by decide), ext_high (by decide), ext_high (by decide), ext_low (by decide)]
  exact BitVec.extractLsb'_eq_self
@[simp] theorem fld_lay45_c (a : BitVec 6) (b : BitVec 2) (c : BitVec 3) (d : BitVec 2) (e : BitVec 3) (f : BitVec 8) (g : BitVec 8) : fld (a ++ b ++ c ++ d ++ e ++ f ++ g) 21 3 = c := by
  unfold fld
  rw [ext_high (by decide), ext_high (by decide), ext_high (by decide), ext_high (by decide), ext_low (by decide)]
  exact BitVec.extractLsb'_eq_self
@[simp] theorem fld_lay45_d (a : BitVec 6) (b : BitVec 2) (c : BitVec 3) (d : BitVec 2) (e : BitVec 3) (f : BitVec 8) (g : BitVec 8) : fld (a ++ b ++ c ++ d ++ e ++ f ++ g) 19 2 = d := by
  unfold fld
  rw [ext_high (by decide), ext_high (by decide), ext_high (by decide), ext_low (by decide)]
  exact BitVec.extractLsb'_eq_self
@[simp] theorem fld_lay45_e (a : BitVec 6) (b : BitVec 2) (c : BitVec 3) (d : BitVec 2) (e : BitVec 3) (f : BitVec 8) (g : BitVec 8) : fld (a ++ b ++ c ++ d ++ e ++ f ++ g) 16 3 = e := by
  unfold fld
  rw [ext_high (by decide), ext_high (by decide), ext_low (by decide)]
  exact BitVec.extractLsb'_eq_self
@[simp] theorem fld_lay45_f (a : BitVec 6) (b : BitVec 2) (c : BitVec 3) (d : BitVec 2) (e : BitVec 3) (f : BitVec 8) (g : BitVec 8) : fld (a ++ b ++ c ++ d ++ e ++ f ++ g) 8 8 = f := by
  unfold fld
  rw [ext_high (by decide), ext_low (by decide)]
  exact BitVec.extractLsb'_eq_self
@[simp] theorem fld_lay45_g (a : BitVec 6) (b : BitVec 2) (c : BitVec 3) (d : BitVec 2) (e : BitVec 3) (f : BitVec 8) (g : BitVec 8) : fld (a ++ b ++ c ++ d ++ e ++ f ++ g) 0 8 = g := by
  unfold fld
  rw [ext_low (by decide)]
  exact BitVec.extractLsb'_eq_self
@[simp] theorem fld_lay46_a (a : BitVec 6) (b : BitVec 2) (c : BitVec 3) (d : BitVec 2) (e : BitVec 3) (f : BitVec 2) (g : BitVec 3) (h : BitVec 3) (i : BitVec 8) : fld (a ++ b ++ c ++ d ++ e ++ f ++ g ++ h ++ i) 26 6 = a := by
  unfold fld
  rw [ext_high (by decide), ext_high (by decide), ext_high (by decide), ext_high (by decide), ext_high (by decide), ext_high (by decide), ext_high (by decide), ext_high (by decide)]
  exact BitVec.extractLsb'_eq_self
@[simp] theorem fld_lay46_b (a : BitVec 6) (b : BitVec 2) (c : BitVec 3) (d : BitVec 2) (e : BitVec 3) (f : BitVec 2) (g : BitVec 3) (h : BitVec 3) (i : BitVec 8) : fld (a ++ b ++ c ++ d ++ e ++ f ++ g ++ h ++ i) 24 2 = b := by
  unfold fld
  rw [ext_high (by decide), ext_high (by decide), ext_high (by decide), ext_high (by decide), ext_high (by decide), ext_high (by decide), ext_high (by decide), ext_low (by decide)]
  exact BitVec.extractLsb'_eq_self
@[simp] theorem fld_lay46_c (a : BitVec 6) (b : BitVec 2) (c : BitVec 3) (d : BitVec 2) (e : BitVec 3) (f : BitVec 2) (g : BitVec 3) (h : BitVec 3) (i : BitVec 8) : fld (a ++ b ++ c ++ d ++ e ++ f ++ g ++ h ++ i) 21 3 = c := by
  unfold fld
  rw [ext_high (by decide), ext_high (by decide), ext_high (by decide), ext_high (by decide), ext_high (by decide), ext_high (by decide), ext_low (by decide)]
  exact BitVec.extractLsb'_eq_self
@[simp] theorem fld_lay46_d (a : BitVec 6) (b : BitVec 2) (c : BitVec 3) (d : BitVec 2) (e : BitVec 3) (f : BitVec 2) (g : BitVec 3) (h : BitVec 3) (i : BitVec 8) : fld (a ++ b ++ c ++ d ++ e ++ f ++ g ++ h ++ i) 19 2 = d := by
  unfold fld
  rw [ext_high (by decide), ext_high (by decide), ext_high (by decide), ext_high (by decide), ext_high (by decide), ext_low (by decide)]
  exact BitVec.extractLsb'_eq_self
@[simp] theorem fld_lay46_e (a : BitVec 6) (b : BitVec 2) (c : BitVec 3) (d : BitVec 2) (e : BitVec 3) (f : BitVec 2) (g : BitVec 3) (h : BitVec 3) (i : BitVec 8) : fld (a ++ b ++ c ++ d ++ e ++ f ++ g ++ h ++ i) 16 3 = e := by
  unfold fld
  rw [ext_high (by decide), ext_high (by decide), ext_high (by decide), ext_high (by decide), ext_low (by decide)]
  exact BitVec.extractLsb'_eq_self
@[simp] theorem fld_lay46_f (a : BitVec 6) (b : BitVec 2) (c : BitVec 3) (d : BitVec 2) (e : BitVec 3) (f : BitVec 2) (g : BitVec 3) (h : BitVec 3) (i : BitVec 8) : fld (a ++ b ++ c ++ d ++ e ++ f ++ g ++ h ++ i) 14 2 = f := by
  unfold fld
  rw [ext_high (by decide), ext_high (by decide), ext_high (by decide), ext_low (by decide)]
  exact BitVec.extractLsb'_eq_self
@[simp] theorem fld_lay46_g (a : BitVec 6) (b : BitVec 2) (c : BitVec 3) (d : BitVec 2) (e : BitVec 3) (f : BitVec 2) (g : BitVec 3) (h : BitVec 3) (i : BitVec 8) : fld (a ++ b ++ c ++ d ++ e ++ f ++ g ++ h ++ i) 11 3 = g := by
  unfold fld
  rw [ext_high (by decide), ext_high (by decide), ext_low (by decide)]
  exact BitVec.extractLsb'_eq_self
@[simp] theorem fld_lay46_h (a : BitVec 6) (b : BitVec 2) (c : BitVec 3) (d : BitVec 2) (e : BitVec 3) (f : BitVec 2) (g : BitVec 3) (h : BitVec 3) (i : BitVec 8) : fld (a ++ b ++ c ++ d ++ e ++ f ++ g ++ h ++ i) 8 3 = h := by
  unfold fld
  rw [ext_high (by decide), ext_low (by decide)]
  exact BitVec.extractLsb'_eq_self
@[simp] theorem fld_lay46_i (a : BitVec 6) (b : BitVec 2) (c : BitVec 3) (d : BitVec 2) (e : BitVec 3) (f : BitVec 2) (g : BitVec 3) (h : BitVec 3) (i : BitVec 8) : fld (a ++ b ++ c ++ d ++ e ++ f ++ g ++ h ++ i) 0 8 = i := by
  unfold fld
  rw [ext_low (by decide)]
  exact BitVec.extractLsb'_eq_self
@[simp] theorem fld_lay47_a (a : BitVec 6) (b : BitVec 2) (c : BitVec 3) (d : BitVec 1) (e : BitVec 4) (f : BitVec 8) (g : BitVec 8) : fld (a ++ b ++ c ++ d ++ e ++ f ++ g) 26 6 = a := by
  unfold fld
  rw [ext_high (by decide), ext_high (by decide), ext_high (by decide), ext_high (by decide), ext_high (by decide), ext_high (by decide)]
  exact BitVec.extractLsb'_eq_self
@[simp] theorem fld_lay47_b (a : BitVec 6) (b : BitVec 2) (c : BitVec 3) (d : BitVec 1) (e : BitVec 4) (f : BitVec 8) (g : BitVec 8) : fld (a ++ b ++ c ++ d ++ e ++ f ++ g) 24 2 = b := by
  unfold fld
  rw [ext_high (by decide), ext_high (by decide), ext_high (by decide), ext_high (by decide), ext_high (by decide), ext_low (by decide)]
  exact BitVec.extractLsb'_eq_self
@[simp] theorem fld_lay47_c (a : BitVec 6) (b : BitVec 2) (c : BitVec 3) (d : BitVec 1) (e : BitVec 4) (f : BitVec 8) (g : BitVec 8) : fld (a ++ b ++ c ++ d ++ e ++ f ++ g) 21 3 = c := by
  unfold fld
  rw [ext_high (by decide), ext_high (by decide), ext_high (by decide), ext_high (by decide), ext_low (by decide)]
  exact BitVec.extractLsb'_eq_self
@[simp] theorem fld_lay47_d (a : BitVec 6) (b : BitVec 2) (c : BitVec 3) (d : BitVec 1) (e : BitVec 4) (f : BitVec 8) (g : BitVec 8) : fld (a ++ b ++ c ++ d ++ e ++ f ++ g) 20 1 = d := by
  unfold fld
  rw [ext_high (by decide), ext_high (by decide), ext_high (by decide), ext_low (by decide)]
  exact BitVec.extractLsb'_eq_self
@[simp] theorem fld_lay47_e (a : BitVec 6) (b : BitVec 2) (c : BitVec 3) (d : BitVec 1) (e : BitVec 4) (f : BitVec 8) (g : BitVec 8) : fld (a ++ b ++ c ++ d ++ e ++ f ++ g) 16 4 = e := by
  unfold fld
  rw [ext_high (by decide), ext_high (by decide), ext_low (by decide)]
  exact BitVec.extractLsb'_eq_self
@[simp] theorem fld_lay47_f (a : BitVec 6) (b : BitVec 2) (c : BitVec 3) (d : BitVec 1) (e : BitVec 4) (f : BitVec 8) (g : BitVec 8) : fld (a ++ b ++ c ++ d ++ e ++ f ++ g) 8 8 = f := by
  unfold fld
  rw [ext_high (by decide), ext_low (by decide)]
  exact BitVec.extractLsb'_eq_self
@[simp] theorem fld_lay47_g (a : BitVec 6) (b : BitVec 2) (c : BitVec 3) (d : BitVec 1) (e : BitVec 4) (f : BitVec 8) (g : BitVec 8) : fld (a ++ b ++ c ++ d ++ e ++ f ++ g) 0 8 = g := by
  unfold fld
  rw [ext_low (by decide)]
  exact BitVec.extractLsb'_eq_self
@[simp] theorem fld_lay48_a (a : BitVec 6) (b : BitVec 1) (c : BitVec 4) (d : BitVec 5) (e : BitVec 5) (f : BitVec 3) (g : BitVec 8) : fld (a ++ b ++ c ++ d ++ e ++ f ++ g) 26 6 = a := by
  unfold fld
  rw [ext_high (by decide), ext_high (by decide), ext_high (by decide), ext_high (by decide), ext_high (by decide), ext_high (by decide)]
  exact BitVec.extractLsb'_eq_self
@[simp] theorem fld_lay48_b (a : BitVec 6) (b : BitVec 1) (c : BitVec 4) (d : BitVec 5) (e : BitVec 5) (f : BitVec 3) (g : BitVec 8) : fld (a ++ b ++ c ++ d ++ e ++ f ++ g) 25 1 = b := by
  unfold fld
  rw [ext_high (by decide), ext_high (by decide), ext_high (by decide), ext_high (by decide), ext_high (by decide), ext_low (by decide)]
  exact BitVec.extractLsb'_eq_self
@[simp] theorem fld_lay48_c (a : BitVec 6) (b : BitVec 1) (c : BitVec 4) (d : BitVec 5) (e : BitVec 5) (f : BitVec 3) (g : BitVec 8) : fld (a ++ b ++ c ++ d ++ e ++ f ++ g) 21 4 = c := by
  unfold fld
  rw [ext_high (by decide), ext_high (by decide), ext_high (by decide), ext_high (by decide), ext_low (by decide)]
  exact BitVec.extractLsb'_eq_self
@[simp] theorem fld_lay48_d (a : BitVec 6) (b : BitVec 1) (c : BitVec 4) (d : BitVec 5) (e : BitVec 5) (f : BitVec 3) (g : BitVec 8) : fld (a ++ b ++ c ++ d ++ e ++ f ++ g) 16 5 = d := by
  unfold fld
  rw [ext_high (by decide), ext_high (by decide), ext_high (by decide), ext_low (by decide)]
  exact BitVec.extractLsb'_eq_self
@[simp] theorem fld_lay48_e (a : BitVec 6) (b : BitVec 1) (c : BitVec 4) (d : BitVec 5) (e : BitVec 5) (f : BitVec 3) (g : BitVec 8) : fld (a ++ b ++ c ++ d ++ e ++ f ++ g) 11 5 = e := by
  unfold fld
  rw [ext_high (by decide), ext_high (by decide), ext_low (by decide)]
  exact BitVec.extractLsb'_eq_self
@[simp] theorem fld_lay48_f (a : BitVec 6) (b : BitVec 1) (c : BitVec 4) (d : BitVec 5) (e : BitVec 5) (f : BitVec 3) (g : BitVec 8) : fld (a ++ b ++ c ++ d ++ e ++ f ++ g) 8 3 = f := by
  unfold fld
  rw [ext_high (by decide), ext_low (by decide)]
  exact BitVec.extractLsb'_eq_self
@[simp] theorem fld_lay48_g (a : BitVec 6) (b : BitVec 1) (c : BitVec 4) (d : BitVec 5) (e : BitVec 5) (f : BitVec 3) (g : BitVec 8) : fld (a ++ b ++ c ++ d ++ e ++ f ++ g) 0 8 = g := by
  unfold fld
  rw [ext_low (by decide)]
  exact BitVec.extractLsb'_eq_self
@[simp] theorem fld_lay49_a (a : BitVec 6) (b : BitVec 1) (c : BitVec 4) (d : BitVec 2) (e : BitVec 3) (f : BitVec 8) (g : BitVec 8) : fld (a ++ b ++ c ++ d ++ e ++ f ++ g) 26 6 = a := by
  unfold fld
  rw [ext_high (by decide), ext_high (by decide), ext_high (by decide), ext_high (by decide), ext_high (by decide), ext_high (by decide)]
  exact BitVec.extractLsb'_eq_self
@[simp] theorem fld_lay49_b (a : BitVec 6) (b : BitVec 1) (c : BitVec 4) (d : BitVec 2) (e : BitVec 3) (f : BitVec 8) (g : BitVec 8) : fld (a ++ b ++ c ++ d ++ e ++ f ++ g) 25 1 = b := by
  unfold fld
  rw [ext_high (by decide), ext_high (by decide), ext_high (by decide), ext_high (by decide), ext_high (by decide), ext_low (by decide)]
  exact BitVec.extractLsb'_eq_self
@[simp] theorem fld_lay49_c (a : BitVec 6) (b : BitVec 1) (c : BitVec 4) (d : BitVec 2) (e : BitVec 3) (f : BitVec 8) (g : BitVec 8) : fld (a ++ b ++ c ++ d ++ e ++ f ++ g) 21 4 = c := by
  unfold fld
  rw [ext_high (by decide), ext_high (by decide), ext_high (by decide), ext_high (by decide), ext_low (by decide)]
  exact BitVec.extractLsb'_eq_self
@[simp] theorem fld_lay49_d (a : BitVec 6) (b : BitVec 1) (c : BitVec 4) (d : BitVec 2) (e : BitVec 3) (f : BitVec 8) (g : BitVec 8) : fld (a ++ b ++ c ++ d ++ e ++ f ++ g) 19 2 = d := by
  unfold fld
  rw [ext_high (by decide), ext_high (by decide), ext_high (by decide), ext_low (by decide)]
  exact BitVec.extractLsb'_eq_self
@[simp] theorem fld_lay49_e (a : BitVec 6) (b : BitVec 1) (c : BitVec 4) (d : BitVec 2) (e : BitVec 3) (f : BitVec 8) (g : BitVec 8) : fld (a ++ b ++ c ++ d ++ e ++ f ++ g) 16 3 = e := by
  unfold fld
  rw [ext_high (by decide), ext_high (by decide), ext_low (by decide)]
  exact BitVec.extractLsb'_eq_self
@[simp] theorem fld_lay49_f (a : BitVec 6) (b : BitVec 1) (c : BitVec 4) (d : BitVec 2) (e : BitVec 3) (f : BitVec 8) (g : BitVec 8) : fld (a ++ b ++ c ++ d ++ e ++ f ++ g) 8 8 = f := by
  unfold fld
  rw [ext_high (by decide), ext_low (by decide)]
  exact BitVec.extractLsb'_eq_self
@[simp] theorem fld_lay49_g (a : BitVec 6) (b : BitVec 1) (c : BitVec 4) (d : BitVec 2) (e : BitVec 3) (f : BitVec 8) (g : BitVec 8) : fld (a ++ b ++ c ++ d ++ e ++ f ++ g) 0 8 = g := by
  unfold fld
  rw [ext_low (by decide)]
  exact BitVec.extractLsb'_eq_self

end Sys2Proof.Laws
end

