-- ==== Sys2Proof/Laws/Sparse.lean ====
section
/-! SUPPORT. The laws of sparse maps: a read after a write, and the canonical form, which every operation keeps. -/

namespace Sys2Proof.Machine

variable {α : Type}

/-! Reading. -/

@[simp] theorem fget_nil (d : α) (k : Nat) : fget d [] k = d := rfl

theorem fget_fdel (d : α) (k j : Nat) (m : FMap α) : fget d (fdel k m) j = if k = j then d else fget d m j := by
  induction m with
  | nil => simp [fdel]
  | cons e m ih =>
    obtain ⟨i, v⟩ := e
    simp only [fdel]
    split
    · subst i
      rw [ih]
      by_cases h : k = j
      · simp [h]
      · simp [fget, h]
    · simp only [fget, ih]
      by_cases h : i = j
      · subst h; simp_all [eq_comm]
      · simp [h]

theorem fget_fins (d : α) (k j : Nat) (v : α) (m : FMap α) : fget d (fins k v m) j = if k = j then v else fget d m j := by
  induction m with
  | nil => simp [fins, fget]
  | cons e m ih =>
    obtain ⟨i, w⟩ := e
    simp only [fins]
    split
    · simp only [fget]
    · split
      · subst i
        by_cases h : k = j <;> simp [fget, h]
      · by_cases h : i = j
        · subst h; simp_all [fget, eq_comm]
        · simp [fget, ih, h]

variable [DecidableEq α]

/-- A read after a write. -/
theorem fget_fset (d : α) (k j : Nat) (v : α) (m : FMap α) : fget d (fset d k v m) j = if k = j then v else fget d m j := by
  unfold fset
  split
  · rename_i h
    rw [fget_fdel, h]
  · rw [fget_fins]

@[simp] theorem fget_fset_same (d : α) (k : Nat) (v : α) (m : FMap α) : fget d (fset d k v m) k = v := by simp [fget_fset]

theorem fget_fset_other (d : α) (k j : Nat) (v : α) (m : FMap α) (h : k ≠ j) : fget d (fset d k v m) j = fget d m j := by
  simp [fget_fset, h]

/-! The canonical form. -/

theorem fwfFrom_mono (d : α) (m : FMap α) {a b : Nat} (h : a ≤ b) (w : fwfFrom d b m = true) : fwfFrom d a m = true := by
  cases m with
  | nil => rfl
  | cons e m => obtain ⟨k, v⟩ := e; simp only [fwfFrom, Bool.and_eq_true, decide_eq_true_eq] at *; exact ⟨⟨by omega, w.1.2⟩, w.2⟩

theorem fwfFrom_fdel (d : α) (k : Nat) (m : FMap α) : ∀ lo, fwfFrom d lo m = true → fwfFrom d lo (fdel k m) = true := by
  induction m with
  | nil => intro lo _; rfl
  | cons e m ih =>
    obtain ⟨i, v⟩ := e
    intro lo w
    simp only [fwfFrom, Bool.and_eq_true, decide_eq_true_eq] at w
    simp only [fdel]
    split
    · exact fwfFrom_mono d _ (by omega) (ih _ w.2)
    · simp only [fwfFrom, Bool.and_eq_true, decide_eq_true_eq]
      exact ⟨w.1, ih _ w.2⟩

theorem fwfFrom_fins (d : α) (k : Nat) (v : α) (hv : v ≠ d) (m : FMap α) :
    ∀ lo, lo ≤ k → fwfFrom d lo m = true → fwfFrom d lo (fins k v m) = true := by
  induction m with
  | nil => intro lo h _; simp [fins, fwfFrom, hv, h]
  | cons e m ih =>
    obtain ⟨i, x⟩ := e
    intro lo h w
    simp only [fwfFrom, Bool.and_eq_true, decide_eq_true_eq] at w
    simp only [fins]
    split
    · simp only [fwfFrom, Bool.and_eq_true, decide_eq_true_eq]
      exact ⟨⟨h, hv⟩, ⟨⟨by omega, w.1.2⟩, w.2⟩⟩
    · split
      · subst i
        simp only [fwfFrom, Bool.and_eq_true, decide_eq_true_eq]
        exact ⟨⟨h, hv⟩, w.2⟩
      · simp only [fwfFrom, Bool.and_eq_true, decide_eq_true_eq]
        exact ⟨w.1, ih _ (by omega) w.2⟩

/-- A write keeps the canonical form. -/
theorem fwf_fset (d : α) (k : Nat) (v : α) (m : FMap α) (w : fwf d m = true) : fwf d (fset d k v m) = true := by
  unfold fwf fset at *
  split
  · exact fwfFrom_fdel d k m 0 w
  · rename_i h
    exact fwfFrom_fins d k v h m 0 (Nat.zero_le _) w

theorem fwf_filter (d : α) (p : Nat × α → Bool) (m : FMap α) (w : fwf d m = true) : fwf d (m.filter p) = true := by
  unfold fwf at *
  revert w
  generalize 0 = lo
  induction m generalizing lo with
  | nil => intro _; rfl
  | cons e m ih =>
    obtain ⟨i, v⟩ := e
    intro w
    simp only [fwfFrom, Bool.and_eq_true, decide_eq_true_eq] at w
    rw [List.filter_cons]
    split
    · simp only [fwfFrom, Bool.and_eq_true, decide_eq_true_eq]
      exact ⟨w.1, ih _ w.2⟩
    · exact fwfFrom_mono d _ (by omega) (ih _ w.2)

theorem fwf_fdrop (d : α) (m : FMap α) (lo n : Nat) (w : fwf d m = true) : fwf d (fdrop m lo n) = true := fwf_filter d _ m w

theorem fwf_fmove (d : α) (lo dst : Nat) (es m : FMap α) (w : fwf d m = true) : fwf d (fmove d lo dst es m) = true := by
  unfold fmove
  induction es generalizing m with
  | nil => exact w
  | cons e es ih => exact ih _ (fwf_fset d _ _ m w)

/-- Exchanging two ranges keeps the canonical form. -/
theorem fwf_fswap (d : α) (a b n : Nat) (m : FMap α) (w : fwf d m = true) : fwf d (fswap d a b n m) = true :=
  fwf_fmove d _ _ _ _ (fwf_fmove d _ _ _ _ (fwf_fdrop d _ _ _ (fwf_fdrop d _ _ _ w)))

/-- Copying a range keeps the canonical form. -/
theorem fwf_fcopy (d : α) (lo dst n : Nat) (m : FMap α) (w : fwf d m = true) : fwf d (fcopy d lo dst n m) = true :=
  fwf_fmove d _ _ _ _ (fwf_fdrop d _ _ _ w)

/-- Two maps in canonical form that read alike are equal data. -/
theorem fwf_ext (d : α) {m n : FMap α} (hm : fwf d m = true) (hn : fwf d n = true) (h : ∀ k, fget d m k = fget d n k) : m = n := by
  have low : ∀ (l : FMap α) lo k, fwfFrom d lo l = true → k < lo → fget d l k = d := by
    intro l
    induction l with
    | nil => intro _ _ _ _; rfl
    | cons e l ih =>
      obtain ⟨i, v⟩ := e
      intro lo k w hk
      simp only [fwfFrom, Bool.and_eq_true, decide_eq_true_eq] at w
      rw [fget, if_neg (by omega)]
      exact ih _ _ w.2 (by omega)
  unfold fwf at hm hn
  revert hm hn h
  generalize 0 = lo
  induction m generalizing n lo with
  | nil =>
    intro _ hn h
    cases n with
    | nil => rfl
    | cons e n =>
      obtain ⟨i, v⟩ := e
      simp only [fwfFrom, Bool.and_eq_true, decide_eq_true_eq] at hn
      have := h i
      simp only [fget, if_pos] at this
      exact absurd this.symm hn.1.2
  | cons e m ih =>
    obtain ⟨i, v⟩ := e
    intro hm hn h
    have hm' := hm
    simp only [fwfFrom, Bool.and_eq_true, decide_eq_true_eq] at hm
    cases n with
    | nil =>
      have := h i
      simp only [fget, if_pos] at this
      exact absurd this hm.1.2
    | cons f n =>
      obtain ⟨j, w⟩ := f
      have hn' := hn
      simp only [fwfFrom, Bool.and_eq_true, decide_eq_true_eq] at hn
      have hij : i = j := by
        rcases Nat.lt_trichotomy i j with hlt | heq | hgt
        · have h1 := h i
          rw [fget, if_pos rfl, fget, if_neg (by omega), low n _ i hn.2 (by omega)] at h1
          exact absurd h1 hm.1.2
        · exact heq
        · have h1 := h j
          rw [fget, if_neg (by omega), low m _ j hm.2 (by omega), fget, if_pos rfl] at h1
          exact absurd h1.symm hn.1.2
      subst hij
      have hv : v = w := by simpa [fget] using h i
      subst hv
      rw [ih (i + 1) hm.2 hn.2 (fun k => ?_)]
      by_cases hk : i = k
      · subst hk
        rw [low m _ _ hm.2 (by omega), low n _ _ hn.2 (by omega)]
      · simpa [fget, hk] using h k

end Sys2Proof.Machine
end

