-- ==== Sys2Proof/Laws/State.lean ====
section
/-! SUPPORT. One lemma for each field of a record and each update of it, so that no proof unfolds an update: the machine's state
first, then a slot. -/

namespace Sys2Proof.Machine

/-! The state. -/

@[simp] theorem State.setSlot_steps (s : State) (key : Nat) (sl : Slot) : (s.setSlot key sl).steps = s.steps := rfl
@[simp] theorem State.setSlot_agenda (s : State) (key : Nat) (sl : Slot) : (s.setSlot key sl).agenda = s.agenda := rfl
@[simp] theorem State.setSlot_cur (s : State) (key : Nat) (sl : Slot) : (s.setSlot key sl).cur = s.cur := rfl
@[simp] theorem State.setSlot_time (s : State) (key : Nat) (sl : Slot) : (s.setSlot key sl).time = s.time := rfl
@[simp] theorem State.setSlot_cycles (s : State) (key : Nat) (sl : Slot) : (s.setSlot key sl).cycles = s.cycles := rfl
@[simp] theorem State.setSlot_mem (s : State) (key : Nat) (sl : Slot) : (s.setSlot key sl).mem = s.mem := rfl
@[simp] theorem State.setSlot_tiles (s : State) (key : Nat) (sl : Slot) : (s.setSlot key sl).tiles = s.tiles := rfl
@[simp] theorem State.setSlot_lstalls (s : State) (key : Nat) (sl : Slot) : (s.setSlot key sl).lstalls = s.lstalls := rfl
@[simp] theorem State.setSlot_pstalls (s : State) (key : Nat) (sl : Slot) : (s.setSlot key sl).pstalls = s.pstalls := rfl
@[simp] theorem State.setSlot_cells (s : State) (key : Nat) (sl : Slot) : (s.setSlot key sl).cells = s.cells := rfl
@[simp] theorem State.setSlot_arcades (s : State) (key : Nat) (sl : Slot) : (s.setSlot key sl).arcades = s.arcades := rfl
@[simp] theorem State.setSlot_quads (s : State) (key : Nat) (sl : Slot) : (s.setSlot key sl).quads = s.quads := rfl
@[simp] theorem State.setSlot_parts (s : State) (key : Nat) (sl : Slot) : (s.setSlot key sl).parts = s.parts := rfl
@[simp] theorem State.setSlot_queues (s : State) (key : Nat) (sl : Slot) : (s.setSlot key sl).queues = s.queues := rfl
@[simp] theorem State.setSlot_nodes (s : State) (key : Nat) (sl : Slot) : (s.setSlot key sl).nodes = s.nodes := rfl
@[simp] theorem State.setSlot_net (s : State) (key : Nat) (sl : Slot) : (s.setSlot key sl).net = s.net := rfl
@[simp] theorem State.setSlot_refusals (s : State) (key : Nat) (sl : Slot) : (s.setSlot key sl).refusals = s.refusals := rfl
@[simp] theorem State.setSlot_bankops (s : State) (key : Nat) (sl : Slot) : (s.setSlot key sl).bankops = s.bankops := rfl
@[simp] theorem State.setSlot_dirty (s : State) (key : Nat) (sl : Slot) : (s.setSlot key sl).dirty = s.dirty := rfl
@[simp] theorem State.setSlot_releases (s : State) (key : Nat) (sl : Slot) : (s.setSlot key sl).releases = s.releases := rfl
@[simp] theorem State.setSlot_commits (s : State) (key : Nat) (sl : Slot) : (s.setSlot key sl).commits = s.commits := rfl
@[simp] theorem State.setSlot_poison (s : State) (key : Nat) (sl : Slot) : (s.setSlot key sl).poison = s.poison := rfl
@[simp] theorem State.setSlot_lost (s : State) (key : Nat) (sl : Slot) : (s.setSlot key sl).lost = s.lost := rfl
@[simp] theorem State.setSlot_place (s : State) (key : Nat) (sl : Slot) : (s.setSlot key sl).place = s.place := rfl
@[simp] theorem State.setSlot_rmap (s : State) (key : Nat) (sl : Slot) : (s.setSlot key sl).rmap = s.rmap := rfl
@[simp] theorem State.setSlot_tables (s : State) (key : Nat) (sl : Slot) : (s.setSlot key sl).tables = s.tables := rfl
@[simp] theorem State.setSlot_tx (s : State) (key : Nat) (sl : Slot) : (s.setSlot key sl).tx = s.tx := rfl
@[simp] theorem State.setSlot_rx (s : State) (key : Nat) (sl : Slot) : (s.setSlot key sl).rx = s.rx := rfl
@[simp] theorem State.setSlot_bundles (s : State) (key : Nat) (sl : Slot) : (s.setSlot key sl).bundles = s.bundles := rfl
@[simp] theorem State.setSlot_gone (s : State) (key : Nat) (sl : Slot) : (s.setSlot key sl).gone = s.gone := rfl
@[simp] theorem State.setSlot_refl (s : State) (key : Nat) (sl : Slot) : (s.setSlot key sl).refl = s.refl := rfl
@[simp] theorem State.setSlot_ended (s : State) (key : Nat) (sl : Slot) : (s.setSlot key sl).ended = s.ended := rfl
@[simp] theorem State.setSlot_msix (s : State) (key : Nat) (sl : Slot) : (s.setSlot key sl).msix = s.msix := rfl
@[simp] theorem State.setSlot_dev (s : State) (key : Nat) (sl : Slot) : (s.setSlot key sl).dev = s.dev := rfl
@[simp] theorem State.setSlot_cut (s : State) (key : Nat) (sl : Slot) : (s.setSlot key sl).cut = s.cut := rfl
@[simp] theorem State.setSlot_held (s : State) (key : Nat) (sl : Slot) : (s.setSlot key sl).held = s.held := rfl
@[simp] theorem State.setSlot_l1 (s : State) (key : Nat) (sl : Slot) : (s.setSlot key sl).l1 = s.l1 := rfl
@[simp] theorem State.setSlot_caches (s : State) (key : Nat) (sl : Slot) : (s.setSlot key sl).caches = s.caches := rfl
@[simp] theorem State.setSlot_overflow (s : State) (key : Nat) (sl : Slot) : (s.setSlot key sl).overflow = s.overflow := rfl
@[simp] theorem State.setSlot_misses (s : State) (key : Nat) (sl : Slot) : (s.setSlot key sl).misses = s.misses := rfl
@[simp] theorem State.setTile_steps (s : State) (home : Nat) (x : Tile) : (s.setTile home x).steps = s.steps := rfl
@[simp] theorem State.setTile_agenda (s : State) (home : Nat) (x : Tile) : (s.setTile home x).agenda = s.agenda := rfl
@[simp] theorem State.setTile_cur (s : State) (home : Nat) (x : Tile) : (s.setTile home x).cur = s.cur := rfl
@[simp] theorem State.setTile_time (s : State) (home : Nat) (x : Tile) : (s.setTile home x).time = s.time := rfl
@[simp] theorem State.setTile_cycles (s : State) (home : Nat) (x : Tile) : (s.setTile home x).cycles = s.cycles := rfl
@[simp] theorem State.setTile_mem (s : State) (home : Nat) (x : Tile) : (s.setTile home x).mem = s.mem := rfl
@[simp] theorem State.setTile_slots (s : State) (home : Nat) (x : Tile) : (s.setTile home x).slots = s.slots := rfl
@[simp] theorem State.setTile_lstalls (s : State) (home : Nat) (x : Tile) : (s.setTile home x).lstalls = s.lstalls := rfl
@[simp] theorem State.setTile_pstalls (s : State) (home : Nat) (x : Tile) : (s.setTile home x).pstalls = s.pstalls := rfl
@[simp] theorem State.setTile_cells (s : State) (home : Nat) (x : Tile) : (s.setTile home x).cells = s.cells := rfl
@[simp] theorem State.setTile_arcades (s : State) (home : Nat) (x : Tile) : (s.setTile home x).arcades = s.arcades := rfl
@[simp] theorem State.setTile_quads (s : State) (home : Nat) (x : Tile) : (s.setTile home x).quads = s.quads := rfl
@[simp] theorem State.setTile_parts (s : State) (home : Nat) (x : Tile) : (s.setTile home x).parts = s.parts := rfl
@[simp] theorem State.setTile_queues (s : State) (home : Nat) (x : Tile) : (s.setTile home x).queues = s.queues := rfl
@[simp] theorem State.setTile_nodes (s : State) (home : Nat) (x : Tile) : (s.setTile home x).nodes = s.nodes := rfl
@[simp] theorem State.setTile_net (s : State) (home : Nat) (x : Tile) : (s.setTile home x).net = s.net := rfl
@[simp] theorem State.setTile_refusals (s : State) (home : Nat) (x : Tile) : (s.setTile home x).refusals = s.refusals := rfl
@[simp] theorem State.setTile_bankops (s : State) (home : Nat) (x : Tile) : (s.setTile home x).bankops = s.bankops := rfl
@[simp] theorem State.setTile_dirty (s : State) (home : Nat) (x : Tile) : (s.setTile home x).dirty = s.dirty := rfl
@[simp] theorem State.setTile_releases (s : State) (home : Nat) (x : Tile) : (s.setTile home x).releases = s.releases := rfl
@[simp] theorem State.setTile_commits (s : State) (home : Nat) (x : Tile) : (s.setTile home x).commits = s.commits := rfl
@[simp] theorem State.setTile_poison (s : State) (home : Nat) (x : Tile) : (s.setTile home x).poison = s.poison := rfl
@[simp] theorem State.setTile_lost (s : State) (home : Nat) (x : Tile) : (s.setTile home x).lost = s.lost := rfl
@[simp] theorem State.setTile_place (s : State) (home : Nat) (x : Tile) : (s.setTile home x).place = s.place := rfl
@[simp] theorem State.setTile_rmap (s : State) (home : Nat) (x : Tile) : (s.setTile home x).rmap = s.rmap := rfl
@[simp] theorem State.setTile_tables (s : State) (home : Nat) (x : Tile) : (s.setTile home x).tables = s.tables := rfl
@[simp] theorem State.setTile_tx (s : State) (home : Nat) (x : Tile) : (s.setTile home x).tx = s.tx := rfl
@[simp] theorem State.setTile_rx (s : State) (home : Nat) (x : Tile) : (s.setTile home x).rx = s.rx := rfl
@[simp] theorem State.setTile_bundles (s : State) (home : Nat) (x : Tile) : (s.setTile home x).bundles = s.bundles := rfl
@[simp] theorem State.setTile_gone (s : State) (home : Nat) (x : Tile) : (s.setTile home x).gone = s.gone := rfl
@[simp] theorem State.setTile_refl (s : State) (home : Nat) (x : Tile) : (s.setTile home x).refl = s.refl := rfl
@[simp] theorem State.setTile_ended (s : State) (home : Nat) (x : Tile) : (s.setTile home x).ended = s.ended := rfl
@[simp] theorem State.setTile_msix (s : State) (home : Nat) (x : Tile) : (s.setTile home x).msix = s.msix := rfl
@[simp] theorem State.setTile_dev (s : State) (home : Nat) (x : Tile) : (s.setTile home x).dev = s.dev := rfl
@[simp] theorem State.setTile_cut (s : State) (home : Nat) (x : Tile) : (s.setTile home x).cut = s.cut := rfl
@[simp] theorem State.setTile_held (s : State) (home : Nat) (x : Tile) : (s.setTile home x).held = s.held := rfl
@[simp] theorem State.setTile_l1 (s : State) (home : Nat) (x : Tile) : (s.setTile home x).l1 = s.l1 := rfl
@[simp] theorem State.setTile_caches (s : State) (home : Nat) (x : Tile) : (s.setTile home x).caches = s.caches := rfl
@[simp] theorem State.setTile_overflow (s : State) (home : Nat) (x : Tile) : (s.setTile home x).overflow = s.overflow := rfl
@[simp] theorem State.setTile_misses (s : State) (home : Nat) (x : Tile) : (s.setTile home x).misses = s.misses := rfl
@[simp] theorem State.modLStall_steps (s : State) (k : Nat) (f : LStall → LStall) : (s.modLStall k f).steps = s.steps := rfl
@[simp] theorem State.modLStall_agenda (s : State) (k : Nat) (f : LStall → LStall) : (s.modLStall k f).agenda = s.agenda := rfl
@[simp] theorem State.modLStall_cur (s : State) (k : Nat) (f : LStall → LStall) : (s.modLStall k f).cur = s.cur := rfl
@[simp] theorem State.modLStall_time (s : State) (k : Nat) (f : LStall → LStall) : (s.modLStall k f).time = s.time := rfl
@[simp] theorem State.modLStall_cycles (s : State) (k : Nat) (f : LStall → LStall) : (s.modLStall k f).cycles = s.cycles := rfl
@[simp] theorem State.modLStall_mem (s : State) (k : Nat) (f : LStall → LStall) : (s.modLStall k f).mem = s.mem := rfl
@[simp] theorem State.modLStall_slots (s : State) (k : Nat) (f : LStall → LStall) : (s.modLStall k f).slots = s.slots := rfl
@[simp] theorem State.modLStall_tiles (s : State) (k : Nat) (f : LStall → LStall) : (s.modLStall k f).tiles = s.tiles := rfl
@[simp] theorem State.modLStall_pstalls (s : State) (k : Nat) (f : LStall → LStall) : (s.modLStall k f).pstalls = s.pstalls := rfl
@[simp] theorem State.modLStall_cells (s : State) (k : Nat) (f : LStall → LStall) : (s.modLStall k f).cells = s.cells := rfl
@[simp] theorem State.modLStall_arcades (s : State) (k : Nat) (f : LStall → LStall) : (s.modLStall k f).arcades = s.arcades := rfl
@[simp] theorem State.modLStall_quads (s : State) (k : Nat) (f : LStall → LStall) : (s.modLStall k f).quads = s.quads := rfl
@[simp] theorem State.modLStall_parts (s : State) (k : Nat) (f : LStall → LStall) : (s.modLStall k f).parts = s.parts := rfl
@[simp] theorem State.modLStall_queues (s : State) (k : Nat) (f : LStall → LStall) : (s.modLStall k f).queues = s.queues := rfl
@[simp] theorem State.modLStall_nodes (s : State) (k : Nat) (f : LStall → LStall) : (s.modLStall k f).nodes = s.nodes := rfl
@[simp] theorem State.modLStall_net (s : State) (k : Nat) (f : LStall → LStall) : (s.modLStall k f).net = s.net := rfl
@[simp] theorem State.modLStall_refusals (s : State) (k : Nat) (f : LStall → LStall) : (s.modLStall k f).refusals = s.refusals := rfl
@[simp] theorem State.modLStall_bankops (s : State) (k : Nat) (f : LStall → LStall) : (s.modLStall k f).bankops = s.bankops := rfl
@[simp] theorem State.modLStall_dirty (s : State) (k : Nat) (f : LStall → LStall) : (s.modLStall k f).dirty = s.dirty := rfl
@[simp] theorem State.modLStall_releases (s : State) (k : Nat) (f : LStall → LStall) : (s.modLStall k f).releases = s.releases := rfl
@[simp] theorem State.modLStall_commits (s : State) (k : Nat) (f : LStall → LStall) : (s.modLStall k f).commits = s.commits := rfl
@[simp] theorem State.modLStall_poison (s : State) (k : Nat) (f : LStall → LStall) : (s.modLStall k f).poison = s.poison := rfl
@[simp] theorem State.modLStall_lost (s : State) (k : Nat) (f : LStall → LStall) : (s.modLStall k f).lost = s.lost := rfl
@[simp] theorem State.modLStall_place (s : State) (k : Nat) (f : LStall → LStall) : (s.modLStall k f).place = s.place := rfl
@[simp] theorem State.modLStall_rmap (s : State) (k : Nat) (f : LStall → LStall) : (s.modLStall k f).rmap = s.rmap := rfl
@[simp] theorem State.modLStall_tables (s : State) (k : Nat) (f : LStall → LStall) : (s.modLStall k f).tables = s.tables := rfl
@[simp] theorem State.modLStall_tx (s : State) (k : Nat) (f : LStall → LStall) : (s.modLStall k f).tx = s.tx := rfl
@[simp] theorem State.modLStall_rx (s : State) (k : Nat) (f : LStall → LStall) : (s.modLStall k f).rx = s.rx := rfl
@[simp] theorem State.modLStall_bundles (s : State) (k : Nat) (f : LStall → LStall) : (s.modLStall k f).bundles = s.bundles := rfl
@[simp] theorem State.modLStall_gone (s : State) (k : Nat) (f : LStall → LStall) : (s.modLStall k f).gone = s.gone := rfl
@[simp] theorem State.modLStall_refl (s : State) (k : Nat) (f : LStall → LStall) : (s.modLStall k f).refl = s.refl := rfl
@[simp] theorem State.modLStall_ended (s : State) (k : Nat) (f : LStall → LStall) : (s.modLStall k f).ended = s.ended := rfl
@[simp] theorem State.modLStall_msix (s : State) (k : Nat) (f : LStall → LStall) : (s.modLStall k f).msix = s.msix := rfl
@[simp] theorem State.modLStall_dev (s : State) (k : Nat) (f : LStall → LStall) : (s.modLStall k f).dev = s.dev := rfl
@[simp] theorem State.modLStall_cut (s : State) (k : Nat) (f : LStall → LStall) : (s.modLStall k f).cut = s.cut := rfl
@[simp] theorem State.modLStall_held (s : State) (k : Nat) (f : LStall → LStall) : (s.modLStall k f).held = s.held := rfl
@[simp] theorem State.modLStall_l1 (s : State) (k : Nat) (f : LStall → LStall) : (s.modLStall k f).l1 = s.l1 := rfl
@[simp] theorem State.modLStall_caches (s : State) (k : Nat) (f : LStall → LStall) : (s.modLStall k f).caches = s.caches := rfl
@[simp] theorem State.modLStall_overflow (s : State) (k : Nat) (f : LStall → LStall) : (s.modLStall k f).overflow = s.overflow := rfl
@[simp] theorem State.modLStall_misses (s : State) (k : Nat) (f : LStall → LStall) : (s.modLStall k f).misses = s.misses := rfl
@[simp] theorem State.modPStall_steps (s : State) (k : Nat) (f : PStall → PStall) : (s.modPStall k f).steps = s.steps := rfl
@[simp] theorem State.modPStall_agenda (s : State) (k : Nat) (f : PStall → PStall) : (s.modPStall k f).agenda = s.agenda := rfl
@[simp] theorem State.modPStall_cur (s : State) (k : Nat) (f : PStall → PStall) : (s.modPStall k f).cur = s.cur := rfl
@[simp] theorem State.modPStall_time (s : State) (k : Nat) (f : PStall → PStall) : (s.modPStall k f).time = s.time := rfl
@[simp] theorem State.modPStall_cycles (s : State) (k : Nat) (f : PStall → PStall) : (s.modPStall k f).cycles = s.cycles := rfl
@[simp] theorem State.modPStall_mem (s : State) (k : Nat) (f : PStall → PStall) : (s.modPStall k f).mem = s.mem := rfl
@[simp] theorem State.modPStall_slots (s : State) (k : Nat) (f : PStall → PStall) : (s.modPStall k f).slots = s.slots := rfl
@[simp] theorem State.modPStall_tiles (s : State) (k : Nat) (f : PStall → PStall) : (s.modPStall k f).tiles = s.tiles := rfl
@[simp] theorem State.modPStall_lstalls (s : State) (k : Nat) (f : PStall → PStall) : (s.modPStall k f).lstalls = s.lstalls := rfl
@[simp] theorem State.modPStall_cells (s : State) (k : Nat) (f : PStall → PStall) : (s.modPStall k f).cells = s.cells := rfl
@[simp] theorem State.modPStall_arcades (s : State) (k : Nat) (f : PStall → PStall) : (s.modPStall k f).arcades = s.arcades := rfl
@[simp] theorem State.modPStall_quads (s : State) (k : Nat) (f : PStall → PStall) : (s.modPStall k f).quads = s.quads := rfl
@[simp] theorem State.modPStall_parts (s : State) (k : Nat) (f : PStall → PStall) : (s.modPStall k f).parts = s.parts := rfl
@[simp] theorem State.modPStall_queues (s : State) (k : Nat) (f : PStall → PStall) : (s.modPStall k f).queues = s.queues := rfl
@[simp] theorem State.modPStall_nodes (s : State) (k : Nat) (f : PStall → PStall) : (s.modPStall k f).nodes = s.nodes := rfl
@[simp] theorem State.modPStall_net (s : State) (k : Nat) (f : PStall → PStall) : (s.modPStall k f).net = s.net := rfl
@[simp] theorem State.modPStall_refusals (s : State) (k : Nat) (f : PStall → PStall) : (s.modPStall k f).refusals = s.refusals := rfl
@[simp] theorem State.modPStall_bankops (s : State) (k : Nat) (f : PStall → PStall) : (s.modPStall k f).bankops = s.bankops := rfl
@[simp] theorem State.modPStall_dirty (s : State) (k : Nat) (f : PStall → PStall) : (s.modPStall k f).dirty = s.dirty := rfl
@[simp] theorem State.modPStall_releases (s : State) (k : Nat) (f : PStall → PStall) : (s.modPStall k f).releases = s.releases := rfl
@[simp] theorem State.modPStall_commits (s : State) (k : Nat) (f : PStall → PStall) : (s.modPStall k f).commits = s.commits := rfl
@[simp] theorem State.modPStall_poison (s : State) (k : Nat) (f : PStall → PStall) : (s.modPStall k f).poison = s.poison := rfl
@[simp] theorem State.modPStall_lost (s : State) (k : Nat) (f : PStall → PStall) : (s.modPStall k f).lost = s.lost := rfl
@[simp] theorem State.modPStall_place (s : State) (k : Nat) (f : PStall → PStall) : (s.modPStall k f).place = s.place := rfl
@[simp] theorem State.modPStall_rmap (s : State) (k : Nat) (f : PStall → PStall) : (s.modPStall k f).rmap = s.rmap := rfl
@[simp] theorem State.modPStall_tables (s : State) (k : Nat) (f : PStall → PStall) : (s.modPStall k f).tables = s.tables := rfl
@[simp] theorem State.modPStall_tx (s : State) (k : Nat) (f : PStall → PStall) : (s.modPStall k f).tx = s.tx := rfl
@[simp] theorem State.modPStall_rx (s : State) (k : Nat) (f : PStall → PStall) : (s.modPStall k f).rx = s.rx := rfl
@[simp] theorem State.modPStall_bundles (s : State) (k : Nat) (f : PStall → PStall) : (s.modPStall k f).bundles = s.bundles := rfl
@[simp] theorem State.modPStall_gone (s : State) (k : Nat) (f : PStall → PStall) : (s.modPStall k f).gone = s.gone := rfl
@[simp] theorem State.modPStall_refl (s : State) (k : Nat) (f : PStall → PStall) : (s.modPStall k f).refl = s.refl := rfl
@[simp] theorem State.modPStall_ended (s : State) (k : Nat) (f : PStall → PStall) : (s.modPStall k f).ended = s.ended := rfl
@[simp] theorem State.modPStall_msix (s : State) (k : Nat) (f : PStall → PStall) : (s.modPStall k f).msix = s.msix := rfl
@[simp] theorem State.modPStall_dev (s : State) (k : Nat) (f : PStall → PStall) : (s.modPStall k f).dev = s.dev := rfl
@[simp] theorem State.modPStall_cut (s : State) (k : Nat) (f : PStall → PStall) : (s.modPStall k f).cut = s.cut := rfl
@[simp] theorem State.modPStall_held (s : State) (k : Nat) (f : PStall → PStall) : (s.modPStall k f).held = s.held := rfl
@[simp] theorem State.modPStall_l1 (s : State) (k : Nat) (f : PStall → PStall) : (s.modPStall k f).l1 = s.l1 := rfl
@[simp] theorem State.modPStall_caches (s : State) (k : Nat) (f : PStall → PStall) : (s.modPStall k f).caches = s.caches := rfl
@[simp] theorem State.modPStall_overflow (s : State) (k : Nat) (f : PStall → PStall) : (s.modPStall k f).overflow = s.overflow := rfl
@[simp] theorem State.modPStall_misses (s : State) (k : Nat) (f : PStall → PStall) : (s.modPStall k f).misses = s.misses := rfl
@[simp] theorem State.modArcade_steps (s : State) (k : Nat) (f : Arcade → Arcade) : (s.modArcade k f).steps = s.steps := rfl
@[simp] theorem State.modArcade_agenda (s : State) (k : Nat) (f : Arcade → Arcade) : (s.modArcade k f).agenda = s.agenda := rfl
@[simp] theorem State.modArcade_cur (s : State) (k : Nat) (f : Arcade → Arcade) : (s.modArcade k f).cur = s.cur := rfl
@[simp] theorem State.modArcade_time (s : State) (k : Nat) (f : Arcade → Arcade) : (s.modArcade k f).time = s.time := rfl
@[simp] theorem State.modArcade_cycles (s : State) (k : Nat) (f : Arcade → Arcade) : (s.modArcade k f).cycles = s.cycles := rfl
@[simp] theorem State.modArcade_mem (s : State) (k : Nat) (f : Arcade → Arcade) : (s.modArcade k f).mem = s.mem := rfl
@[simp] theorem State.modArcade_slots (s : State) (k : Nat) (f : Arcade → Arcade) : (s.modArcade k f).slots = s.slots := rfl
@[simp] theorem State.modArcade_tiles (s : State) (k : Nat) (f : Arcade → Arcade) : (s.modArcade k f).tiles = s.tiles := rfl
@[simp] theorem State.modArcade_lstalls (s : State) (k : Nat) (f : Arcade → Arcade) : (s.modArcade k f).lstalls = s.lstalls := rfl
@[simp] theorem State.modArcade_pstalls (s : State) (k : Nat) (f : Arcade → Arcade) : (s.modArcade k f).pstalls = s.pstalls := rfl
@[simp] theorem State.modArcade_cells (s : State) (k : Nat) (f : Arcade → Arcade) : (s.modArcade k f).cells = s.cells := rfl
@[simp] theorem State.modArcade_quads (s : State) (k : Nat) (f : Arcade → Arcade) : (s.modArcade k f).quads = s.quads := rfl
@[simp] theorem State.modArcade_parts (s : State) (k : Nat) (f : Arcade → Arcade) : (s.modArcade k f).parts = s.parts := rfl
@[simp] theorem State.modArcade_queues (s : State) (k : Nat) (f : Arcade → Arcade) : (s.modArcade k f).queues = s.queues := rfl
@[simp] theorem State.modArcade_nodes (s : State) (k : Nat) (f : Arcade → Arcade) : (s.modArcade k f).nodes = s.nodes := rfl
@[simp] theorem State.modArcade_net (s : State) (k : Nat) (f : Arcade → Arcade) : (s.modArcade k f).net = s.net := rfl
@[simp] theorem State.modArcade_refusals (s : State) (k : Nat) (f : Arcade → Arcade) : (s.modArcade k f).refusals = s.refusals := rfl
@[simp] theorem State.modArcade_bankops (s : State) (k : Nat) (f : Arcade → Arcade) : (s.modArcade k f).bankops = s.bankops := rfl
@[simp] theorem State.modArcade_dirty (s : State) (k : Nat) (f : Arcade → Arcade) : (s.modArcade k f).dirty = s.dirty := rfl
@[simp] theorem State.modArcade_releases (s : State) (k : Nat) (f : Arcade → Arcade) : (s.modArcade k f).releases = s.releases := rfl
@[simp] theorem State.modArcade_commits (s : State) (k : Nat) (f : Arcade → Arcade) : (s.modArcade k f).commits = s.commits := rfl
@[simp] theorem State.modArcade_poison (s : State) (k : Nat) (f : Arcade → Arcade) : (s.modArcade k f).poison = s.poison := rfl
@[simp] theorem State.modArcade_lost (s : State) (k : Nat) (f : Arcade → Arcade) : (s.modArcade k f).lost = s.lost := rfl
@[simp] theorem State.modArcade_place (s : State) (k : Nat) (f : Arcade → Arcade) : (s.modArcade k f).place = s.place := rfl
@[simp] theorem State.modArcade_rmap (s : State) (k : Nat) (f : Arcade → Arcade) : (s.modArcade k f).rmap = s.rmap := rfl
@[simp] theorem State.modArcade_tables (s : State) (k : Nat) (f : Arcade → Arcade) : (s.modArcade k f).tables = s.tables := rfl
@[simp] theorem State.modArcade_tx (s : State) (k : Nat) (f : Arcade → Arcade) : (s.modArcade k f).tx = s.tx := rfl
@[simp] theorem State.modArcade_rx (s : State) (k : Nat) (f : Arcade → Arcade) : (s.modArcade k f).rx = s.rx := rfl
@[simp] theorem State.modArcade_bundles (s : State) (k : Nat) (f : Arcade → Arcade) : (s.modArcade k f).bundles = s.bundles := rfl
@[simp] theorem State.modArcade_gone (s : State) (k : Nat) (f : Arcade → Arcade) : (s.modArcade k f).gone = s.gone := rfl
@[simp] theorem State.modArcade_refl (s : State) (k : Nat) (f : Arcade → Arcade) : (s.modArcade k f).refl = s.refl := rfl
@[simp] theorem State.modArcade_ended (s : State) (k : Nat) (f : Arcade → Arcade) : (s.modArcade k f).ended = s.ended := rfl
@[simp] theorem State.modArcade_msix (s : State) (k : Nat) (f : Arcade → Arcade) : (s.modArcade k f).msix = s.msix := rfl
@[simp] theorem State.modArcade_dev (s : State) (k : Nat) (f : Arcade → Arcade) : (s.modArcade k f).dev = s.dev := rfl
@[simp] theorem State.modArcade_cut (s : State) (k : Nat) (f : Arcade → Arcade) : (s.modArcade k f).cut = s.cut := rfl
@[simp] theorem State.modArcade_held (s : State) (k : Nat) (f : Arcade → Arcade) : (s.modArcade k f).held = s.held := rfl
@[simp] theorem State.modArcade_l1 (s : State) (k : Nat) (f : Arcade → Arcade) : (s.modArcade k f).l1 = s.l1 := rfl
@[simp] theorem State.modArcade_caches (s : State) (k : Nat) (f : Arcade → Arcade) : (s.modArcade k f).caches = s.caches := rfl
@[simp] theorem State.modArcade_overflow (s : State) (k : Nat) (f : Arcade → Arcade) : (s.modArcade k f).overflow = s.overflow := rfl
@[simp] theorem State.modArcade_misses (s : State) (k : Nat) (f : Arcade → Arcade) : (s.modArcade k f).misses = s.misses := rfl
@[simp] theorem State.modQuad_steps (s : State) (k : Nat) (f : Quad → Quad) : (s.modQuad k f).steps = s.steps := rfl
@[simp] theorem State.modQuad_agenda (s : State) (k : Nat) (f : Quad → Quad) : (s.modQuad k f).agenda = s.agenda := rfl
@[simp] theorem State.modQuad_cur (s : State) (k : Nat) (f : Quad → Quad) : (s.modQuad k f).cur = s.cur := rfl
@[simp] theorem State.modQuad_time (s : State) (k : Nat) (f : Quad → Quad) : (s.modQuad k f).time = s.time := rfl
@[simp] theorem State.modQuad_cycles (s : State) (k : Nat) (f : Quad → Quad) : (s.modQuad k f).cycles = s.cycles := rfl
@[simp] theorem State.modQuad_mem (s : State) (k : Nat) (f : Quad → Quad) : (s.modQuad k f).mem = s.mem := rfl
@[simp] theorem State.modQuad_slots (s : State) (k : Nat) (f : Quad → Quad) : (s.modQuad k f).slots = s.slots := rfl
@[simp] theorem State.modQuad_tiles (s : State) (k : Nat) (f : Quad → Quad) : (s.modQuad k f).tiles = s.tiles := rfl
@[simp] theorem State.modQuad_lstalls (s : State) (k : Nat) (f : Quad → Quad) : (s.modQuad k f).lstalls = s.lstalls := rfl
@[simp] theorem State.modQuad_pstalls (s : State) (k : Nat) (f : Quad → Quad) : (s.modQuad k f).pstalls = s.pstalls := rfl
@[simp] theorem State.modQuad_cells (s : State) (k : Nat) (f : Quad → Quad) : (s.modQuad k f).cells = s.cells := rfl
@[simp] theorem State.modQuad_arcades (s : State) (k : Nat) (f : Quad → Quad) : (s.modQuad k f).arcades = s.arcades := rfl
@[simp] theorem State.modQuad_parts (s : State) (k : Nat) (f : Quad → Quad) : (s.modQuad k f).parts = s.parts := rfl
@[simp] theorem State.modQuad_queues (s : State) (k : Nat) (f : Quad → Quad) : (s.modQuad k f).queues = s.queues := rfl
@[simp] theorem State.modQuad_nodes (s : State) (k : Nat) (f : Quad → Quad) : (s.modQuad k f).nodes = s.nodes := rfl
@[simp] theorem State.modQuad_net (s : State) (k : Nat) (f : Quad → Quad) : (s.modQuad k f).net = s.net := rfl
@[simp] theorem State.modQuad_refusals (s : State) (k : Nat) (f : Quad → Quad) : (s.modQuad k f).refusals = s.refusals := rfl
@[simp] theorem State.modQuad_bankops (s : State) (k : Nat) (f : Quad → Quad) : (s.modQuad k f).bankops = s.bankops := rfl
@[simp] theorem State.modQuad_dirty (s : State) (k : Nat) (f : Quad → Quad) : (s.modQuad k f).dirty = s.dirty := rfl
@[simp] theorem State.modQuad_releases (s : State) (k : Nat) (f : Quad → Quad) : (s.modQuad k f).releases = s.releases := rfl
@[simp] theorem State.modQuad_commits (s : State) (k : Nat) (f : Quad → Quad) : (s.modQuad k f).commits = s.commits := rfl
@[simp] theorem State.modQuad_poison (s : State) (k : Nat) (f : Quad → Quad) : (s.modQuad k f).poison = s.poison := rfl
@[simp] theorem State.modQuad_lost (s : State) (k : Nat) (f : Quad → Quad) : (s.modQuad k f).lost = s.lost := rfl
@[simp] theorem State.modQuad_place (s : State) (k : Nat) (f : Quad → Quad) : (s.modQuad k f).place = s.place := rfl
@[simp] theorem State.modQuad_rmap (s : State) (k : Nat) (f : Quad → Quad) : (s.modQuad k f).rmap = s.rmap := rfl
@[simp] theorem State.modQuad_tables (s : State) (k : Nat) (f : Quad → Quad) : (s.modQuad k f).tables = s.tables := rfl
@[simp] theorem State.modQuad_tx (s : State) (k : Nat) (f : Quad → Quad) : (s.modQuad k f).tx = s.tx := rfl
@[simp] theorem State.modQuad_rx (s : State) (k : Nat) (f : Quad → Quad) : (s.modQuad k f).rx = s.rx := rfl
@[simp] theorem State.modQuad_bundles (s : State) (k : Nat) (f : Quad → Quad) : (s.modQuad k f).bundles = s.bundles := rfl
@[simp] theorem State.modQuad_gone (s : State) (k : Nat) (f : Quad → Quad) : (s.modQuad k f).gone = s.gone := rfl
@[simp] theorem State.modQuad_refl (s : State) (k : Nat) (f : Quad → Quad) : (s.modQuad k f).refl = s.refl := rfl
@[simp] theorem State.modQuad_ended (s : State) (k : Nat) (f : Quad → Quad) : (s.modQuad k f).ended = s.ended := rfl
@[simp] theorem State.modQuad_msix (s : State) (k : Nat) (f : Quad → Quad) : (s.modQuad k f).msix = s.msix := rfl
@[simp] theorem State.modQuad_dev (s : State) (k : Nat) (f : Quad → Quad) : (s.modQuad k f).dev = s.dev := rfl
@[simp] theorem State.modQuad_cut (s : State) (k : Nat) (f : Quad → Quad) : (s.modQuad k f).cut = s.cut := rfl
@[simp] theorem State.modQuad_held (s : State) (k : Nat) (f : Quad → Quad) : (s.modQuad k f).held = s.held := rfl
@[simp] theorem State.modQuad_l1 (s : State) (k : Nat) (f : Quad → Quad) : (s.modQuad k f).l1 = s.l1 := rfl
@[simp] theorem State.modQuad_caches (s : State) (k : Nat) (f : Quad → Quad) : (s.modQuad k f).caches = s.caches := rfl
@[simp] theorem State.modQuad_overflow (s : State) (k : Nat) (f : Quad → Quad) : (s.modQuad k f).overflow = s.overflow := rfl
@[simp] theorem State.modQuad_misses (s : State) (k : Nat) (f : Quad → Quad) : (s.modQuad k f).misses = s.misses := rfl
@[simp] theorem State.modPart_steps (s : State) (p : Nat) (f : Part → Part) : (s.modPart p f).steps = s.steps := rfl
@[simp] theorem State.modPart_agenda (s : State) (p : Nat) (f : Part → Part) : (s.modPart p f).agenda = s.agenda := rfl
@[simp] theorem State.modPart_cur (s : State) (p : Nat) (f : Part → Part) : (s.modPart p f).cur = s.cur := rfl
@[simp] theorem State.modPart_time (s : State) (p : Nat) (f : Part → Part) : (s.modPart p f).time = s.time := rfl
@[simp] theorem State.modPart_cycles (s : State) (p : Nat) (f : Part → Part) : (s.modPart p f).cycles = s.cycles := rfl
@[simp] theorem State.modPart_mem (s : State) (p : Nat) (f : Part → Part) : (s.modPart p f).mem = s.mem := rfl
@[simp] theorem State.modPart_slots (s : State) (p : Nat) (f : Part → Part) : (s.modPart p f).slots = s.slots := rfl
@[simp] theorem State.modPart_tiles (s : State) (p : Nat) (f : Part → Part) : (s.modPart p f).tiles = s.tiles := rfl
@[simp] theorem State.modPart_lstalls (s : State) (p : Nat) (f : Part → Part) : (s.modPart p f).lstalls = s.lstalls := rfl
@[simp] theorem State.modPart_pstalls (s : State) (p : Nat) (f : Part → Part) : (s.modPart p f).pstalls = s.pstalls := rfl
@[simp] theorem State.modPart_cells (s : State) (p : Nat) (f : Part → Part) : (s.modPart p f).cells = s.cells := rfl
@[simp] theorem State.modPart_arcades (s : State) (p : Nat) (f : Part → Part) : (s.modPart p f).arcades = s.arcades := rfl
@[simp] theorem State.modPart_quads (s : State) (p : Nat) (f : Part → Part) : (s.modPart p f).quads = s.quads := rfl
@[simp] theorem State.modPart_queues (s : State) (p : Nat) (f : Part → Part) : (s.modPart p f).queues = s.queues := rfl
@[simp] theorem State.modPart_nodes (s : State) (p : Nat) (f : Part → Part) : (s.modPart p f).nodes = s.nodes := rfl
@[simp] theorem State.modPart_net (s : State) (p : Nat) (f : Part → Part) : (s.modPart p f).net = s.net := rfl
@[simp] theorem State.modPart_refusals (s : State) (p : Nat) (f : Part → Part) : (s.modPart p f).refusals = s.refusals := rfl
@[simp] theorem State.modPart_bankops (s : State) (p : Nat) (f : Part → Part) : (s.modPart p f).bankops = s.bankops := rfl
@[simp] theorem State.modPart_dirty (s : State) (p : Nat) (f : Part → Part) : (s.modPart p f).dirty = s.dirty := rfl
@[simp] theorem State.modPart_releases (s : State) (p : Nat) (f : Part → Part) : (s.modPart p f).releases = s.releases := rfl
@[simp] theorem State.modPart_commits (s : State) (p : Nat) (f : Part → Part) : (s.modPart p f).commits = s.commits := rfl
@[simp] theorem State.modPart_poison (s : State) (p : Nat) (f : Part → Part) : (s.modPart p f).poison = s.poison := rfl
@[simp] theorem State.modPart_lost (s : State) (p : Nat) (f : Part → Part) : (s.modPart p f).lost = s.lost := rfl
@[simp] theorem State.modPart_place (s : State) (p : Nat) (f : Part → Part) : (s.modPart p f).place = s.place := rfl
@[simp] theorem State.modPart_rmap (s : State) (p : Nat) (f : Part → Part) : (s.modPart p f).rmap = s.rmap := rfl
@[simp] theorem State.modPart_tables (s : State) (p : Nat) (f : Part → Part) : (s.modPart p f).tables = s.tables := rfl
@[simp] theorem State.modPart_tx (s : State) (p : Nat) (f : Part → Part) : (s.modPart p f).tx = s.tx := rfl
@[simp] theorem State.modPart_rx (s : State) (p : Nat) (f : Part → Part) : (s.modPart p f).rx = s.rx := rfl
@[simp] theorem State.modPart_bundles (s : State) (p : Nat) (f : Part → Part) : (s.modPart p f).bundles = s.bundles := rfl
@[simp] theorem State.modPart_gone (s : State) (p : Nat) (f : Part → Part) : (s.modPart p f).gone = s.gone := rfl
@[simp] theorem State.modPart_refl (s : State) (p : Nat) (f : Part → Part) : (s.modPart p f).refl = s.refl := rfl
@[simp] theorem State.modPart_ended (s : State) (p : Nat) (f : Part → Part) : (s.modPart p f).ended = s.ended := rfl
@[simp] theorem State.modPart_msix (s : State) (p : Nat) (f : Part → Part) : (s.modPart p f).msix = s.msix := rfl
@[simp] theorem State.modPart_dev (s : State) (p : Nat) (f : Part → Part) : (s.modPart p f).dev = s.dev := rfl
@[simp] theorem State.modPart_cut (s : State) (p : Nat) (f : Part → Part) : (s.modPart p f).cut = s.cut := rfl
@[simp] theorem State.modPart_held (s : State) (p : Nat) (f : Part → Part) : (s.modPart p f).held = s.held := rfl
@[simp] theorem State.modPart_l1 (s : State) (p : Nat) (f : Part → Part) : (s.modPart p f).l1 = s.l1 := rfl
@[simp] theorem State.modPart_caches (s : State) (p : Nat) (f : Part → Part) : (s.modPart p f).caches = s.caches := rfl
@[simp] theorem State.modPart_overflow (s : State) (p : Nat) (f : Part → Part) : (s.modPart p f).overflow = s.overflow := rfl
@[simp] theorem State.modPart_misses (s : State) (p : Nat) (f : Part → Part) : (s.modPart p f).misses = s.misses := rfl
@[simp] theorem State.modQueue_steps (s : State) (q : Nat) (f : Queue → Queue) : (s.modQueue q f).steps = s.steps := rfl
@[simp] theorem State.modQueue_agenda (s : State) (q : Nat) (f : Queue → Queue) : (s.modQueue q f).agenda = s.agenda := rfl
@[simp] theorem State.modQueue_cur (s : State) (q : Nat) (f : Queue → Queue) : (s.modQueue q f).cur = s.cur := rfl
@[simp] theorem State.modQueue_time (s : State) (q : Nat) (f : Queue → Queue) : (s.modQueue q f).time = s.time := rfl
@[simp] theorem State.modQueue_cycles (s : State) (q : Nat) (f : Queue → Queue) : (s.modQueue q f).cycles = s.cycles := rfl
@[simp] theorem State.modQueue_mem (s : State) (q : Nat) (f : Queue → Queue) : (s.modQueue q f).mem = s.mem := rfl
@[simp] theorem State.modQueue_slots (s : State) (q : Nat) (f : Queue → Queue) : (s.modQueue q f).slots = s.slots := rfl
@[simp] theorem State.modQueue_tiles (s : State) (q : Nat) (f : Queue → Queue) : (s.modQueue q f).tiles = s.tiles := rfl
@[simp] theorem State.modQueue_lstalls (s : State) (q : Nat) (f : Queue → Queue) : (s.modQueue q f).lstalls = s.lstalls := rfl
@[simp] theorem State.modQueue_pstalls (s : State) (q : Nat) (f : Queue → Queue) : (s.modQueue q f).pstalls = s.pstalls := rfl
@[simp] theorem State.modQueue_cells (s : State) (q : Nat) (f : Queue → Queue) : (s.modQueue q f).cells = s.cells := rfl
@[simp] theorem State.modQueue_arcades (s : State) (q : Nat) (f : Queue → Queue) : (s.modQueue q f).arcades = s.arcades := rfl
@[simp] theorem State.modQueue_quads (s : State) (q : Nat) (f : Queue → Queue) : (s.modQueue q f).quads = s.quads := rfl
@[simp] theorem State.modQueue_parts (s : State) (q : Nat) (f : Queue → Queue) : (s.modQueue q f).parts = s.parts := rfl
@[simp] theorem State.modQueue_nodes (s : State) (q : Nat) (f : Queue → Queue) : (s.modQueue q f).nodes = s.nodes := rfl
@[simp] theorem State.modQueue_net (s : State) (q : Nat) (f : Queue → Queue) : (s.modQueue q f).net = s.net := rfl
@[simp] theorem State.modQueue_refusals (s : State) (q : Nat) (f : Queue → Queue) : (s.modQueue q f).refusals = s.refusals := rfl
@[simp] theorem State.modQueue_bankops (s : State) (q : Nat) (f : Queue → Queue) : (s.modQueue q f).bankops = s.bankops := rfl
@[simp] theorem State.modQueue_dirty (s : State) (q : Nat) (f : Queue → Queue) : (s.modQueue q f).dirty = s.dirty := rfl
@[simp] theorem State.modQueue_releases (s : State) (q : Nat) (f : Queue → Queue) : (s.modQueue q f).releases = s.releases := rfl
@[simp] theorem State.modQueue_commits (s : State) (q : Nat) (f : Queue → Queue) : (s.modQueue q f).commits = s.commits := rfl
@[simp] theorem State.modQueue_poison (s : State) (q : Nat) (f : Queue → Queue) : (s.modQueue q f).poison = s.poison := rfl
@[simp] theorem State.modQueue_lost (s : State) (q : Nat) (f : Queue → Queue) : (s.modQueue q f).lost = s.lost := rfl
@[simp] theorem State.modQueue_place (s : State) (q : Nat) (f : Queue → Queue) : (s.modQueue q f).place = s.place := rfl
@[simp] theorem State.modQueue_rmap (s : State) (q : Nat) (f : Queue → Queue) : (s.modQueue q f).rmap = s.rmap := rfl
@[simp] theorem State.modQueue_tables (s : State) (q : Nat) (f : Queue → Queue) : (s.modQueue q f).tables = s.tables := rfl
@[simp] theorem State.modQueue_tx (s : State) (q : Nat) (f : Queue → Queue) : (s.modQueue q f).tx = s.tx := rfl
@[simp] theorem State.modQueue_rx (s : State) (q : Nat) (f : Queue → Queue) : (s.modQueue q f).rx = s.rx := rfl
@[simp] theorem State.modQueue_bundles (s : State) (q : Nat) (f : Queue → Queue) : (s.modQueue q f).bundles = s.bundles := rfl
@[simp] theorem State.modQueue_gone (s : State) (q : Nat) (f : Queue → Queue) : (s.modQueue q f).gone = s.gone := rfl
@[simp] theorem State.modQueue_refl (s : State) (q : Nat) (f : Queue → Queue) : (s.modQueue q f).refl = s.refl := rfl
@[simp] theorem State.modQueue_ended (s : State) (q : Nat) (f : Queue → Queue) : (s.modQueue q f).ended = s.ended := rfl
@[simp] theorem State.modQueue_msix (s : State) (q : Nat) (f : Queue → Queue) : (s.modQueue q f).msix = s.msix := rfl
@[simp] theorem State.modQueue_dev (s : State) (q : Nat) (f : Queue → Queue) : (s.modQueue q f).dev = s.dev := rfl
@[simp] theorem State.modQueue_cut (s : State) (q : Nat) (f : Queue → Queue) : (s.modQueue q f).cut = s.cut := rfl
@[simp] theorem State.modQueue_held (s : State) (q : Nat) (f : Queue → Queue) : (s.modQueue q f).held = s.held := rfl
@[simp] theorem State.modQueue_l1 (s : State) (q : Nat) (f : Queue → Queue) : (s.modQueue q f).l1 = s.l1 := rfl
@[simp] theorem State.modQueue_caches (s : State) (q : Nat) (f : Queue → Queue) : (s.modQueue q f).caches = s.caches := rfl
@[simp] theorem State.modQueue_overflow (s : State) (q : Nat) (f : Queue → Queue) : (s.modQueue q f).overflow = s.overflow := rfl
@[simp] theorem State.modQueue_misses (s : State) (q : Nat) (f : Queue → Queue) : (s.modQueue q f).misses = s.misses := rfl
@[simp] theorem State.setCell_steps (s : State) (k : Nat) (c : Option Cell) : (s.setCell k c).steps = s.steps := rfl
@[simp] theorem State.setCell_agenda (s : State) (k : Nat) (c : Option Cell) : (s.setCell k c).agenda = s.agenda := rfl
@[simp] theorem State.setCell_cur (s : State) (k : Nat) (c : Option Cell) : (s.setCell k c).cur = s.cur := rfl
@[simp] theorem State.setCell_time (s : State) (k : Nat) (c : Option Cell) : (s.setCell k c).time = s.time := rfl
@[simp] theorem State.setCell_cycles (s : State) (k : Nat) (c : Option Cell) : (s.setCell k c).cycles = s.cycles := rfl
@[simp] theorem State.setCell_mem (s : State) (k : Nat) (c : Option Cell) : (s.setCell k c).mem = s.mem := rfl
@[simp] theorem State.setCell_slots (s : State) (k : Nat) (c : Option Cell) : (s.setCell k c).slots = s.slots := rfl
@[simp] theorem State.setCell_tiles (s : State) (k : Nat) (c : Option Cell) : (s.setCell k c).tiles = s.tiles := rfl
@[simp] theorem State.setCell_lstalls (s : State) (k : Nat) (c : Option Cell) : (s.setCell k c).lstalls = s.lstalls := rfl
@[simp] theorem State.setCell_pstalls (s : State) (k : Nat) (c : Option Cell) : (s.setCell k c).pstalls = s.pstalls := rfl
@[simp] theorem State.setCell_arcades (s : State) (k : Nat) (c : Option Cell) : (s.setCell k c).arcades = s.arcades := rfl
@[simp] theorem State.setCell_quads (s : State) (k : Nat) (c : Option Cell) : (s.setCell k c).quads = s.quads := rfl
@[simp] theorem State.setCell_parts (s : State) (k : Nat) (c : Option Cell) : (s.setCell k c).parts = s.parts := rfl
@[simp] theorem State.setCell_queues (s : State) (k : Nat) (c : Option Cell) : (s.setCell k c).queues = s.queues := rfl
@[simp] theorem State.setCell_nodes (s : State) (k : Nat) (c : Option Cell) : (s.setCell k c).nodes = s.nodes := rfl
@[simp] theorem State.setCell_net (s : State) (k : Nat) (c : Option Cell) : (s.setCell k c).net = s.net := rfl
@[simp] theorem State.setCell_refusals (s : State) (k : Nat) (c : Option Cell) : (s.setCell k c).refusals = s.refusals := rfl
@[simp] theorem State.setCell_bankops (s : State) (k : Nat) (c : Option Cell) : (s.setCell k c).bankops = s.bankops := rfl
@[simp] theorem State.setCell_dirty (s : State) (k : Nat) (c : Option Cell) : (s.setCell k c).dirty = s.dirty := rfl
@[simp] theorem State.setCell_releases (s : State) (k : Nat) (c : Option Cell) : (s.setCell k c).releases = s.releases := rfl
@[simp] theorem State.setCell_commits (s : State) (k : Nat) (c : Option Cell) : (s.setCell k c).commits = s.commits := rfl
@[simp] theorem State.setCell_poison (s : State) (k : Nat) (c : Option Cell) : (s.setCell k c).poison = s.poison := rfl
@[simp] theorem State.setCell_lost (s : State) (k : Nat) (c : Option Cell) : (s.setCell k c).lost = s.lost := rfl
@[simp] theorem State.setCell_place (s : State) (k : Nat) (c : Option Cell) : (s.setCell k c).place = s.place := rfl
@[simp] theorem State.setCell_rmap (s : State) (k : Nat) (c : Option Cell) : (s.setCell k c).rmap = s.rmap := rfl
@[simp] theorem State.setCell_tables (s : State) (k : Nat) (c : Option Cell) : (s.setCell k c).tables = s.tables := rfl
@[simp] theorem State.setCell_tx (s : State) (k : Nat) (c : Option Cell) : (s.setCell k c).tx = s.tx := rfl
@[simp] theorem State.setCell_rx (s : State) (k : Nat) (c : Option Cell) : (s.setCell k c).rx = s.rx := rfl
@[simp] theorem State.setCell_bundles (s : State) (k : Nat) (c : Option Cell) : (s.setCell k c).bundles = s.bundles := rfl
@[simp] theorem State.setCell_gone (s : State) (k : Nat) (c : Option Cell) : (s.setCell k c).gone = s.gone := rfl
@[simp] theorem State.setCell_refl (s : State) (k : Nat) (c : Option Cell) : (s.setCell k c).refl = s.refl := rfl
@[simp] theorem State.setCell_ended (s : State) (k : Nat) (c : Option Cell) : (s.setCell k c).ended = s.ended := rfl
@[simp] theorem State.setCell_msix (s : State) (k : Nat) (c : Option Cell) : (s.setCell k c).msix = s.msix := rfl
@[simp] theorem State.setCell_dev (s : State) (k : Nat) (c : Option Cell) : (s.setCell k c).dev = s.dev := rfl
@[simp] theorem State.setCell_cut (s : State) (k : Nat) (c : Option Cell) : (s.setCell k c).cut = s.cut := rfl
@[simp] theorem State.setCell_held (s : State) (k : Nat) (c : Option Cell) : (s.setCell k c).held = s.held := rfl
@[simp] theorem State.setCell_l1 (s : State) (k : Nat) (c : Option Cell) : (s.setCell k c).l1 = s.l1 := rfl
@[simp] theorem State.setCell_caches (s : State) (k : Nat) (c : Option Cell) : (s.setCell k c).caches = s.caches := rfl
@[simp] theorem State.setCell_overflow (s : State) (k : Nat) (c : Option Cell) : (s.setCell k c).overflow = s.overflow := rfl
@[simp] theorem State.setCell_misses (s : State) (k : Nat) (c : Option Cell) : (s.setCell k c).misses = s.misses := rfl
@[simp] theorem State.modDev_steps (s : State) (f : Device → Device) : (s.modDev f).steps = s.steps := rfl
@[simp] theorem State.modDev_agenda (s : State) (f : Device → Device) : (s.modDev f).agenda = s.agenda := rfl
@[simp] theorem State.modDev_cur (s : State) (f : Device → Device) : (s.modDev f).cur = s.cur := rfl
@[simp] theorem State.modDev_time (s : State) (f : Device → Device) : (s.modDev f).time = s.time := rfl
@[simp] theorem State.modDev_cycles (s : State) (f : Device → Device) : (s.modDev f).cycles = s.cycles := rfl
@[simp] theorem State.modDev_mem (s : State) (f : Device → Device) : (s.modDev f).mem = s.mem := rfl
@[simp] theorem State.modDev_slots (s : State) (f : Device → Device) : (s.modDev f).slots = s.slots := rfl
@[simp] theorem State.modDev_tiles (s : State) (f : Device → Device) : (s.modDev f).tiles = s.tiles := rfl
@[simp] theorem State.modDev_lstalls (s : State) (f : Device → Device) : (s.modDev f).lstalls = s.lstalls := rfl
@[simp] theorem State.modDev_pstalls (s : State) (f : Device → Device) : (s.modDev f).pstalls = s.pstalls := rfl
@[simp] theorem State.modDev_cells (s : State) (f : Device → Device) : (s.modDev f).cells = s.cells := rfl
@[simp] theorem State.modDev_arcades (s : State) (f : Device → Device) : (s.modDev f).arcades = s.arcades := rfl
@[simp] theorem State.modDev_quads (s : State) (f : Device → Device) : (s.modDev f).quads = s.quads := rfl
@[simp] theorem State.modDev_parts (s : State) (f : Device → Device) : (s.modDev f).parts = s.parts := rfl
@[simp] theorem State.modDev_queues (s : State) (f : Device → Device) : (s.modDev f).queues = s.queues := rfl
@[simp] theorem State.modDev_nodes (s : State) (f : Device → Device) : (s.modDev f).nodes = s.nodes := rfl
@[simp] theorem State.modDev_net (s : State) (f : Device → Device) : (s.modDev f).net = s.net := rfl
@[simp] theorem State.modDev_refusals (s : State) (f : Device → Device) : (s.modDev f).refusals = s.refusals := rfl
@[simp] theorem State.modDev_bankops (s : State) (f : Device → Device) : (s.modDev f).bankops = s.bankops := rfl
@[simp] theorem State.modDev_dirty (s : State) (f : Device → Device) : (s.modDev f).dirty = s.dirty := rfl
@[simp] theorem State.modDev_releases (s : State) (f : Device → Device) : (s.modDev f).releases = s.releases := rfl
@[simp] theorem State.modDev_commits (s : State) (f : Device → Device) : (s.modDev f).commits = s.commits := rfl
@[simp] theorem State.modDev_poison (s : State) (f : Device → Device) : (s.modDev f).poison = s.poison := rfl
@[simp] theorem State.modDev_lost (s : State) (f : Device → Device) : (s.modDev f).lost = s.lost := rfl
@[simp] theorem State.modDev_place (s : State) (f : Device → Device) : (s.modDev f).place = s.place := rfl
@[simp] theorem State.modDev_rmap (s : State) (f : Device → Device) : (s.modDev f).rmap = s.rmap := rfl
@[simp] theorem State.modDev_tables (s : State) (f : Device → Device) : (s.modDev f).tables = s.tables := rfl
@[simp] theorem State.modDev_tx (s : State) (f : Device → Device) : (s.modDev f).tx = s.tx := rfl
@[simp] theorem State.modDev_rx (s : State) (f : Device → Device) : (s.modDev f).rx = s.rx := rfl
@[simp] theorem State.modDev_bundles (s : State) (f : Device → Device) : (s.modDev f).bundles = s.bundles := rfl
@[simp] theorem State.modDev_gone (s : State) (f : Device → Device) : (s.modDev f).gone = s.gone := rfl
@[simp] theorem State.modDev_refl (s : State) (f : Device → Device) : (s.modDev f).refl = s.refl := rfl
@[simp] theorem State.modDev_ended (s : State) (f : Device → Device) : (s.modDev f).ended = s.ended := rfl
@[simp] theorem State.modDev_msix (s : State) (f : Device → Device) : (s.modDev f).msix = s.msix := rfl
@[simp] theorem State.modDev_cut (s : State) (f : Device → Device) : (s.modDev f).cut = s.cut := rfl
@[simp] theorem State.modDev_held (s : State) (f : Device → Device) : (s.modDev f).held = s.held := rfl
@[simp] theorem State.modDev_l1 (s : State) (f : Device → Device) : (s.modDev f).l1 = s.l1 := rfl
@[simp] theorem State.modDev_caches (s : State) (f : Device → Device) : (s.modDev f).caches = s.caches := rfl
@[simp] theorem State.modDev_overflow (s : State) (f : Device → Device) : (s.modDev f).overflow = s.overflow := rfl
@[simp] theorem State.modDev_misses (s : State) (f : Device → Device) : (s.modDev f).misses = s.misses := rfl
@[simp] theorem State.modSlot_steps (s : State) (key : Nat) (f : Slot → Slot) : (s.modSlot key f).steps = s.steps := rfl
@[simp] theorem State.modSlot_agenda (s : State) (key : Nat) (f : Slot → Slot) : (s.modSlot key f).agenda = s.agenda := rfl
@[simp] theorem State.modSlot_cur (s : State) (key : Nat) (f : Slot → Slot) : (s.modSlot key f).cur = s.cur := rfl
@[simp] theorem State.modSlot_time (s : State) (key : Nat) (f : Slot → Slot) : (s.modSlot key f).time = s.time := rfl
@[simp] theorem State.modSlot_cycles (s : State) (key : Nat) (f : Slot → Slot) : (s.modSlot key f).cycles = s.cycles := rfl
@[simp] theorem State.modSlot_mem (s : State) (key : Nat) (f : Slot → Slot) : (s.modSlot key f).mem = s.mem := rfl
@[simp] theorem State.modSlot_tiles (s : State) (key : Nat) (f : Slot → Slot) : (s.modSlot key f).tiles = s.tiles := rfl
@[simp] theorem State.modSlot_lstalls (s : State) (key : Nat) (f : Slot → Slot) : (s.modSlot key f).lstalls = s.lstalls := rfl
@[simp] theorem State.modSlot_pstalls (s : State) (key : Nat) (f : Slot → Slot) : (s.modSlot key f).pstalls = s.pstalls := rfl
@[simp] theorem State.modSlot_cells (s : State) (key : Nat) (f : Slot → Slot) : (s.modSlot key f).cells = s.cells := rfl
@[simp] theorem State.modSlot_arcades (s : State) (key : Nat) (f : Slot → Slot) : (s.modSlot key f).arcades = s.arcades := rfl
@[simp] theorem State.modSlot_quads (s : State) (key : Nat) (f : Slot → Slot) : (s.modSlot key f).quads = s.quads := rfl
@[simp] theorem State.modSlot_parts (s : State) (key : Nat) (f : Slot → Slot) : (s.modSlot key f).parts = s.parts := rfl
@[simp] theorem State.modSlot_queues (s : State) (key : Nat) (f : Slot → Slot) : (s.modSlot key f).queues = s.queues := rfl
@[simp] theorem State.modSlot_nodes (s : State) (key : Nat) (f : Slot → Slot) : (s.modSlot key f).nodes = s.nodes := rfl
@[simp] theorem State.modSlot_net (s : State) (key : Nat) (f : Slot → Slot) : (s.modSlot key f).net = s.net := rfl
@[simp] theorem State.modSlot_refusals (s : State) (key : Nat) (f : Slot → Slot) : (s.modSlot key f).refusals = s.refusals := rfl
@[simp] theorem State.modSlot_bankops (s : State) (key : Nat) (f : Slot → Slot) : (s.modSlot key f).bankops = s.bankops := rfl
@[simp] theorem State.modSlot_dirty (s : State) (key : Nat) (f : Slot → Slot) : (s.modSlot key f).dirty = s.dirty := rfl
@[simp] theorem State.modSlot_releases (s : State) (key : Nat) (f : Slot → Slot) : (s.modSlot key f).releases = s.releases := rfl
@[simp] theorem State.modSlot_commits (s : State) (key : Nat) (f : Slot → Slot) : (s.modSlot key f).commits = s.commits := rfl
@[simp] theorem State.modSlot_poison (s : State) (key : Nat) (f : Slot → Slot) : (s.modSlot key f).poison = s.poison := rfl
@[simp] theorem State.modSlot_lost (s : State) (key : Nat) (f : Slot → Slot) : (s.modSlot key f).lost = s.lost := rfl
@[simp] theorem State.modSlot_place (s : State) (key : Nat) (f : Slot → Slot) : (s.modSlot key f).place = s.place := rfl
@[simp] theorem State.modSlot_rmap (s : State) (key : Nat) (f : Slot → Slot) : (s.modSlot key f).rmap = s.rmap := rfl
@[simp] theorem State.modSlot_tables (s : State) (key : Nat) (f : Slot → Slot) : (s.modSlot key f).tables = s.tables := rfl
@[simp] theorem State.modSlot_tx (s : State) (key : Nat) (f : Slot → Slot) : (s.modSlot key f).tx = s.tx := rfl
@[simp] theorem State.modSlot_rx (s : State) (key : Nat) (f : Slot → Slot) : (s.modSlot key f).rx = s.rx := rfl
@[simp] theorem State.modSlot_bundles (s : State) (key : Nat) (f : Slot → Slot) : (s.modSlot key f).bundles = s.bundles := rfl
@[simp] theorem State.modSlot_gone (s : State) (key : Nat) (f : Slot → Slot) : (s.modSlot key f).gone = s.gone := rfl
@[simp] theorem State.modSlot_refl (s : State) (key : Nat) (f : Slot → Slot) : (s.modSlot key f).refl = s.refl := rfl
@[simp] theorem State.modSlot_ended (s : State) (key : Nat) (f : Slot → Slot) : (s.modSlot key f).ended = s.ended := rfl
@[simp] theorem State.modSlot_msix (s : State) (key : Nat) (f : Slot → Slot) : (s.modSlot key f).msix = s.msix := rfl
@[simp] theorem State.modSlot_dev (s : State) (key : Nat) (f : Slot → Slot) : (s.modSlot key f).dev = s.dev := rfl
@[simp] theorem State.modSlot_cut (s : State) (key : Nat) (f : Slot → Slot) : (s.modSlot key f).cut = s.cut := rfl
@[simp] theorem State.modSlot_held (s : State) (key : Nat) (f : Slot → Slot) : (s.modSlot key f).held = s.held := rfl
@[simp] theorem State.modSlot_l1 (s : State) (key : Nat) (f : Slot → Slot) : (s.modSlot key f).l1 = s.l1 := rfl
@[simp] theorem State.modSlot_caches (s : State) (key : Nat) (f : Slot → Slot) : (s.modSlot key f).caches = s.caches := rfl
@[simp] theorem State.modSlot_overflow (s : State) (key : Nat) (f : Slot → Slot) : (s.modSlot key f).overflow = s.overflow := rfl
@[simp] theorem State.modSlot_misses (s : State) (key : Nat) (f : Slot → Slot) : (s.modSlot key f).misses = s.misses := rfl
@[simp] theorem State.modTile_steps (s : State) (home : Nat) (f : Tile → Tile) : (s.modTile home f).steps = s.steps := rfl
@[simp] theorem State.modTile_agenda (s : State) (home : Nat) (f : Tile → Tile) : (s.modTile home f).agenda = s.agenda := rfl
@[simp] theorem State.modTile_cur (s : State) (home : Nat) (f : Tile → Tile) : (s.modTile home f).cur = s.cur := rfl
@[simp] theorem State.modTile_time (s : State) (home : Nat) (f : Tile → Tile) : (s.modTile home f).time = s.time := rfl
@[simp] theorem State.modTile_cycles (s : State) (home : Nat) (f : Tile → Tile) : (s.modTile home f).cycles = s.cycles := rfl
@[simp] theorem State.modTile_mem (s : State) (home : Nat) (f : Tile → Tile) : (s.modTile home f).mem = s.mem := rfl
@[simp] theorem State.modTile_slots (s : State) (home : Nat) (f : Tile → Tile) : (s.modTile home f).slots = s.slots := rfl
@[simp] theorem State.modTile_lstalls (s : State) (home : Nat) (f : Tile → Tile) : (s.modTile home f).lstalls = s.lstalls := rfl
@[simp] theorem State.modTile_pstalls (s : State) (home : Nat) (f : Tile → Tile) : (s.modTile home f).pstalls = s.pstalls := rfl
@[simp] theorem State.modTile_cells (s : State) (home : Nat) (f : Tile → Tile) : (s.modTile home f).cells = s.cells := rfl
@[simp] theorem State.modTile_arcades (s : State) (home : Nat) (f : Tile → Tile) : (s.modTile home f).arcades = s.arcades := rfl
@[simp] theorem State.modTile_quads (s : State) (home : Nat) (f : Tile → Tile) : (s.modTile home f).quads = s.quads := rfl
@[simp] theorem State.modTile_parts (s : State) (home : Nat) (f : Tile → Tile) : (s.modTile home f).parts = s.parts := rfl
@[simp] theorem State.modTile_queues (s : State) (home : Nat) (f : Tile → Tile) : (s.modTile home f).queues = s.queues := rfl
@[simp] theorem State.modTile_nodes (s : State) (home : Nat) (f : Tile → Tile) : (s.modTile home f).nodes = s.nodes := rfl
@[simp] theorem State.modTile_net (s : State) (home : Nat) (f : Tile → Tile) : (s.modTile home f).net = s.net := rfl
@[simp] theorem State.modTile_refusals (s : State) (home : Nat) (f : Tile → Tile) : (s.modTile home f).refusals = s.refusals := rfl
@[simp] theorem State.modTile_bankops (s : State) (home : Nat) (f : Tile → Tile) : (s.modTile home f).bankops = s.bankops := rfl
@[simp] theorem State.modTile_dirty (s : State) (home : Nat) (f : Tile → Tile) : (s.modTile home f).dirty = s.dirty := rfl
@[simp] theorem State.modTile_releases (s : State) (home : Nat) (f : Tile → Tile) : (s.modTile home f).releases = s.releases := rfl
@[simp] theorem State.modTile_commits (s : State) (home : Nat) (f : Tile → Tile) : (s.modTile home f).commits = s.commits := rfl
@[simp] theorem State.modTile_poison (s : State) (home : Nat) (f : Tile → Tile) : (s.modTile home f).poison = s.poison := rfl
@[simp] theorem State.modTile_lost (s : State) (home : Nat) (f : Tile → Tile) : (s.modTile home f).lost = s.lost := rfl
@[simp] theorem State.modTile_place (s : State) (home : Nat) (f : Tile → Tile) : (s.modTile home f).place = s.place := rfl
@[simp] theorem State.modTile_rmap (s : State) (home : Nat) (f : Tile → Tile) : (s.modTile home f).rmap = s.rmap := rfl
@[simp] theorem State.modTile_tables (s : State) (home : Nat) (f : Tile → Tile) : (s.modTile home f).tables = s.tables := rfl
@[simp] theorem State.modTile_tx (s : State) (home : Nat) (f : Tile → Tile) : (s.modTile home f).tx = s.tx := rfl
@[simp] theorem State.modTile_rx (s : State) (home : Nat) (f : Tile → Tile) : (s.modTile home f).rx = s.rx := rfl
@[simp] theorem State.modTile_bundles (s : State) (home : Nat) (f : Tile → Tile) : (s.modTile home f).bundles = s.bundles := rfl
@[simp] theorem State.modTile_gone (s : State) (home : Nat) (f : Tile → Tile) : (s.modTile home f).gone = s.gone := rfl
@[simp] theorem State.modTile_refl (s : State) (home : Nat) (f : Tile → Tile) : (s.modTile home f).refl = s.refl := rfl
@[simp] theorem State.modTile_ended (s : State) (home : Nat) (f : Tile → Tile) : (s.modTile home f).ended = s.ended := rfl
@[simp] theorem State.modTile_msix (s : State) (home : Nat) (f : Tile → Tile) : (s.modTile home f).msix = s.msix := rfl
@[simp] theorem State.modTile_dev (s : State) (home : Nat) (f : Tile → Tile) : (s.modTile home f).dev = s.dev := rfl
@[simp] theorem State.modTile_cut (s : State) (home : Nat) (f : Tile → Tile) : (s.modTile home f).cut = s.cut := rfl
@[simp] theorem State.modTile_held (s : State) (home : Nat) (f : Tile → Tile) : (s.modTile home f).held = s.held := rfl
@[simp] theorem State.modTile_l1 (s : State) (home : Nat) (f : Tile → Tile) : (s.modTile home f).l1 = s.l1 := rfl
@[simp] theorem State.modTile_caches (s : State) (home : Nat) (f : Tile → Tile) : (s.modTile home f).caches = s.caches := rfl
@[simp] theorem State.modTile_overflow (s : State) (home : Nat) (f : Tile → Tile) : (s.modTile home f).overflow = s.overflow := rfl
@[simp] theorem State.modTile_misses (s : State) (home : Nat) (f : Tile → Tile) : (s.modTile home f).misses = s.misses := rfl
@[simp] theorem State.setMe_steps (s : State) (sl : Slot) : (s.setMe sl).steps = s.steps := rfl
@[simp] theorem State.setMe_agenda (s : State) (sl : Slot) : (s.setMe sl).agenda = s.agenda := rfl
@[simp] theorem State.setMe_cur (s : State) (sl : Slot) : (s.setMe sl).cur = s.cur := rfl
@[simp] theorem State.setMe_time (s : State) (sl : Slot) : (s.setMe sl).time = s.time := rfl
@[simp] theorem State.setMe_cycles (s : State) (sl : Slot) : (s.setMe sl).cycles = s.cycles := rfl
@[simp] theorem State.setMe_mem (s : State) (sl : Slot) : (s.setMe sl).mem = s.mem := rfl
@[simp] theorem State.setMe_tiles (s : State) (sl : Slot) : (s.setMe sl).tiles = s.tiles := rfl
@[simp] theorem State.setMe_lstalls (s : State) (sl : Slot) : (s.setMe sl).lstalls = s.lstalls := rfl
@[simp] theorem State.setMe_pstalls (s : State) (sl : Slot) : (s.setMe sl).pstalls = s.pstalls := rfl
@[simp] theorem State.setMe_cells (s : State) (sl : Slot) : (s.setMe sl).cells = s.cells := rfl
@[simp] theorem State.setMe_arcades (s : State) (sl : Slot) : (s.setMe sl).arcades = s.arcades := rfl
@[simp] theorem State.setMe_quads (s : State) (sl : Slot) : (s.setMe sl).quads = s.quads := rfl
@[simp] theorem State.setMe_parts (s : State) (sl : Slot) : (s.setMe sl).parts = s.parts := rfl
@[simp] theorem State.setMe_queues (s : State) (sl : Slot) : (s.setMe sl).queues = s.queues := rfl
@[simp] theorem State.setMe_nodes (s : State) (sl : Slot) : (s.setMe sl).nodes = s.nodes := rfl
@[simp] theorem State.setMe_net (s : State) (sl : Slot) : (s.setMe sl).net = s.net := rfl
@[simp] theorem State.setMe_refusals (s : State) (sl : Slot) : (s.setMe sl).refusals = s.refusals := rfl
@[simp] theorem State.setMe_bankops (s : State) (sl : Slot) : (s.setMe sl).bankops = s.bankops := rfl
@[simp] theorem State.setMe_dirty (s : State) (sl : Slot) : (s.setMe sl).dirty = s.dirty := rfl
@[simp] theorem State.setMe_releases (s : State) (sl : Slot) : (s.setMe sl).releases = s.releases := rfl
@[simp] theorem State.setMe_commits (s : State) (sl : Slot) : (s.setMe sl).commits = s.commits := rfl
@[simp] theorem State.setMe_poison (s : State) (sl : Slot) : (s.setMe sl).poison = s.poison := rfl
@[simp] theorem State.setMe_lost (s : State) (sl : Slot) : (s.setMe sl).lost = s.lost := rfl
@[simp] theorem State.setMe_place (s : State) (sl : Slot) : (s.setMe sl).place = s.place := rfl
@[simp] theorem State.setMe_rmap (s : State) (sl : Slot) : (s.setMe sl).rmap = s.rmap := rfl
@[simp] theorem State.setMe_tables (s : State) (sl : Slot) : (s.setMe sl).tables = s.tables := rfl
@[simp] theorem State.setMe_tx (s : State) (sl : Slot) : (s.setMe sl).tx = s.tx := rfl
@[simp] theorem State.setMe_rx (s : State) (sl : Slot) : (s.setMe sl).rx = s.rx := rfl
@[simp] theorem State.setMe_bundles (s : State) (sl : Slot) : (s.setMe sl).bundles = s.bundles := rfl
@[simp] theorem State.setMe_gone (s : State) (sl : Slot) : (s.setMe sl).gone = s.gone := rfl
@[simp] theorem State.setMe_refl (s : State) (sl : Slot) : (s.setMe sl).refl = s.refl := rfl
@[simp] theorem State.setMe_ended (s : State) (sl : Slot) : (s.setMe sl).ended = s.ended := rfl
@[simp] theorem State.setMe_msix (s : State) (sl : Slot) : (s.setMe sl).msix = s.msix := rfl
@[simp] theorem State.setMe_dev (s : State) (sl : Slot) : (s.setMe sl).dev = s.dev := rfl
@[simp] theorem State.setMe_cut (s : State) (sl : Slot) : (s.setMe sl).cut = s.cut := rfl
@[simp] theorem State.setMe_held (s : State) (sl : Slot) : (s.setMe sl).held = s.held := rfl
@[simp] theorem State.setMe_l1 (s : State) (sl : Slot) : (s.setMe sl).l1 = s.l1 := rfl
@[simp] theorem State.setMe_caches (s : State) (sl : Slot) : (s.setMe sl).caches = s.caches := rfl
@[simp] theorem State.setMe_overflow (s : State) (sl : Slot) : (s.setMe sl).overflow = s.overflow := rfl
@[simp] theorem State.setMe_misses (s : State) (sl : Slot) : (s.setMe sl).misses = s.misses := rfl
@[simp] theorem State.modMe_steps (s : State) (f : Slot → Slot) : (s.modMe f).steps = s.steps := rfl
@[simp] theorem State.modMe_agenda (s : State) (f : Slot → Slot) : (s.modMe f).agenda = s.agenda := rfl
@[simp] theorem State.modMe_cur (s : State) (f : Slot → Slot) : (s.modMe f).cur = s.cur := rfl
@[simp] theorem State.modMe_time (s : State) (f : Slot → Slot) : (s.modMe f).time = s.time := rfl
@[simp] theorem State.modMe_cycles (s : State) (f : Slot → Slot) : (s.modMe f).cycles = s.cycles := rfl
@[simp] theorem State.modMe_mem (s : State) (f : Slot → Slot) : (s.modMe f).mem = s.mem := rfl
@[simp] theorem State.modMe_tiles (s : State) (f : Slot → Slot) : (s.modMe f).tiles = s.tiles := rfl
@[simp] theorem State.modMe_lstalls (s : State) (f : Slot → Slot) : (s.modMe f).lstalls = s.lstalls := rfl
@[simp] theorem State.modMe_pstalls (s : State) (f : Slot → Slot) : (s.modMe f).pstalls = s.pstalls := rfl
@[simp] theorem State.modMe_cells (s : State) (f : Slot → Slot) : (s.modMe f).cells = s.cells := rfl
@[simp] theorem State.modMe_arcades (s : State) (f : Slot → Slot) : (s.modMe f).arcades = s.arcades := rfl
@[simp] theorem State.modMe_quads (s : State) (f : Slot → Slot) : (s.modMe f).quads = s.quads := rfl
@[simp] theorem State.modMe_parts (s : State) (f : Slot → Slot) : (s.modMe f).parts = s.parts := rfl
@[simp] theorem State.modMe_queues (s : State) (f : Slot → Slot) : (s.modMe f).queues = s.queues := rfl
@[simp] theorem State.modMe_nodes (s : State) (f : Slot → Slot) : (s.modMe f).nodes = s.nodes := rfl
@[simp] theorem State.modMe_net (s : State) (f : Slot → Slot) : (s.modMe f).net = s.net := rfl
@[simp] theorem State.modMe_refusals (s : State) (f : Slot → Slot) : (s.modMe f).refusals = s.refusals := rfl
@[simp] theorem State.modMe_bankops (s : State) (f : Slot → Slot) : (s.modMe f).bankops = s.bankops := rfl
@[simp] theorem State.modMe_dirty (s : State) (f : Slot → Slot) : (s.modMe f).dirty = s.dirty := rfl
@[simp] theorem State.modMe_releases (s : State) (f : Slot → Slot) : (s.modMe f).releases = s.releases := rfl
@[simp] theorem State.modMe_commits (s : State) (f : Slot → Slot) : (s.modMe f).commits = s.commits := rfl
@[simp] theorem State.modMe_poison (s : State) (f : Slot → Slot) : (s.modMe f).poison = s.poison := rfl
@[simp] theorem State.modMe_lost (s : State) (f : Slot → Slot) : (s.modMe f).lost = s.lost := rfl
@[simp] theorem State.modMe_place (s : State) (f : Slot → Slot) : (s.modMe f).place = s.place := rfl
@[simp] theorem State.modMe_rmap (s : State) (f : Slot → Slot) : (s.modMe f).rmap = s.rmap := rfl
@[simp] theorem State.modMe_tables (s : State) (f : Slot → Slot) : (s.modMe f).tables = s.tables := rfl
@[simp] theorem State.modMe_tx (s : State) (f : Slot → Slot) : (s.modMe f).tx = s.tx := rfl
@[simp] theorem State.modMe_rx (s : State) (f : Slot → Slot) : (s.modMe f).rx = s.rx := rfl
@[simp] theorem State.modMe_bundles (s : State) (f : Slot → Slot) : (s.modMe f).bundles = s.bundles := rfl
@[simp] theorem State.modMe_gone (s : State) (f : Slot → Slot) : (s.modMe f).gone = s.gone := rfl
@[simp] theorem State.modMe_refl (s : State) (f : Slot → Slot) : (s.modMe f).refl = s.refl := rfl
@[simp] theorem State.modMe_ended (s : State) (f : Slot → Slot) : (s.modMe f).ended = s.ended := rfl
@[simp] theorem State.modMe_msix (s : State) (f : Slot → Slot) : (s.modMe f).msix = s.msix := rfl
@[simp] theorem State.modMe_dev (s : State) (f : Slot → Slot) : (s.modMe f).dev = s.dev := rfl
@[simp] theorem State.modMe_cut (s : State) (f : Slot → Slot) : (s.modMe f).cut = s.cut := rfl
@[simp] theorem State.modMe_held (s : State) (f : Slot → Slot) : (s.modMe f).held = s.held := rfl
@[simp] theorem State.modMe_l1 (s : State) (f : Slot → Slot) : (s.modMe f).l1 = s.l1 := rfl
@[simp] theorem State.modMe_caches (s : State) (f : Slot → Slot) : (s.modMe f).caches = s.caches := rfl
@[simp] theorem State.modMe_overflow (s : State) (f : Slot → Slot) : (s.modMe f).overflow = s.overflow := rfl
@[simp] theorem State.modMe_misses (s : State) (f : Slot → Slot) : (s.modMe f).misses = s.misses := rfl
@[simp] theorem State.rawWrite_steps (s : State) (pa n v : Nat) : (s.rawWrite pa n v).steps = s.steps := rfl
@[simp] theorem State.rawWrite_agenda (s : State) (pa n v : Nat) : (s.rawWrite pa n v).agenda = s.agenda := rfl
@[simp] theorem State.rawWrite_cur (s : State) (pa n v : Nat) : (s.rawWrite pa n v).cur = s.cur := rfl
@[simp] theorem State.rawWrite_time (s : State) (pa n v : Nat) : (s.rawWrite pa n v).time = s.time := rfl
@[simp] theorem State.rawWrite_cycles (s : State) (pa n v : Nat) : (s.rawWrite pa n v).cycles = s.cycles := rfl
@[simp] theorem State.rawWrite_slots (s : State) (pa n v : Nat) : (s.rawWrite pa n v).slots = s.slots := rfl
@[simp] theorem State.rawWrite_tiles (s : State) (pa n v : Nat) : (s.rawWrite pa n v).tiles = s.tiles := rfl
@[simp] theorem State.rawWrite_lstalls (s : State) (pa n v : Nat) : (s.rawWrite pa n v).lstalls = s.lstalls := rfl
@[simp] theorem State.rawWrite_pstalls (s : State) (pa n v : Nat) : (s.rawWrite pa n v).pstalls = s.pstalls := rfl
@[simp] theorem State.rawWrite_cells (s : State) (pa n v : Nat) : (s.rawWrite pa n v).cells = s.cells := rfl
@[simp] theorem State.rawWrite_arcades (s : State) (pa n v : Nat) : (s.rawWrite pa n v).arcades = s.arcades := rfl
@[simp] theorem State.rawWrite_quads (s : State) (pa n v : Nat) : (s.rawWrite pa n v).quads = s.quads := rfl
@[simp] theorem State.rawWrite_parts (s : State) (pa n v : Nat) : (s.rawWrite pa n v).parts = s.parts := rfl
@[simp] theorem State.rawWrite_queues (s : State) (pa n v : Nat) : (s.rawWrite pa n v).queues = s.queues := rfl
@[simp] theorem State.rawWrite_nodes (s : State) (pa n v : Nat) : (s.rawWrite pa n v).nodes = s.nodes := rfl
@[simp] theorem State.rawWrite_net (s : State) (pa n v : Nat) : (s.rawWrite pa n v).net = s.net := rfl
@[simp] theorem State.rawWrite_refusals (s : State) (pa n v : Nat) : (s.rawWrite pa n v).refusals = s.refusals := rfl
@[simp] theorem State.rawWrite_bankops (s : State) (pa n v : Nat) : (s.rawWrite pa n v).bankops = s.bankops := rfl
@[simp] theorem State.rawWrite_dirty (s : State) (pa n v : Nat) : (s.rawWrite pa n v).dirty = s.dirty := rfl
@[simp] theorem State.rawWrite_releases (s : State) (pa n v : Nat) : (s.rawWrite pa n v).releases = s.releases := rfl
@[simp] theorem State.rawWrite_commits (s : State) (pa n v : Nat) : (s.rawWrite pa n v).commits = s.commits := rfl
@[simp] theorem State.rawWrite_poison (s : State) (pa n v : Nat) : (s.rawWrite pa n v).poison = s.poison := rfl
@[simp] theorem State.rawWrite_lost (s : State) (pa n v : Nat) : (s.rawWrite pa n v).lost = s.lost := rfl
@[simp] theorem State.rawWrite_place (s : State) (pa n v : Nat) : (s.rawWrite pa n v).place = s.place := rfl
@[simp] theorem State.rawWrite_rmap (s : State) (pa n v : Nat) : (s.rawWrite pa n v).rmap = s.rmap := rfl
@[simp] theorem State.rawWrite_tables (s : State) (pa n v : Nat) : (s.rawWrite pa n v).tables = s.tables := rfl
@[simp] theorem State.rawWrite_tx (s : State) (pa n v : Nat) : (s.rawWrite pa n v).tx = s.tx := rfl
@[simp] theorem State.rawWrite_rx (s : State) (pa n v : Nat) : (s.rawWrite pa n v).rx = s.rx := rfl
@[simp] theorem State.rawWrite_bundles (s : State) (pa n v : Nat) : (s.rawWrite pa n v).bundles = s.bundles := rfl
@[simp] theorem State.rawWrite_gone (s : State) (pa n v : Nat) : (s.rawWrite pa n v).gone = s.gone := rfl
@[simp] theorem State.rawWrite_refl (s : State) (pa n v : Nat) : (s.rawWrite pa n v).refl = s.refl := rfl
@[simp] theorem State.rawWrite_ended (s : State) (pa n v : Nat) : (s.rawWrite pa n v).ended = s.ended := rfl
@[simp] theorem State.rawWrite_msix (s : State) (pa n v : Nat) : (s.rawWrite pa n v).msix = s.msix := rfl
@[simp] theorem State.rawWrite_dev (s : State) (pa n v : Nat) : (s.rawWrite pa n v).dev = s.dev := rfl
@[simp] theorem State.rawWrite_cut (s : State) (pa n v : Nat) : (s.rawWrite pa n v).cut = s.cut := rfl
@[simp] theorem State.rawWrite_held (s : State) (pa n v : Nat) : (s.rawWrite pa n v).held = s.held := rfl
@[simp] theorem State.rawWrite_l1 (s : State) (pa n v : Nat) : (s.rawWrite pa n v).l1 = s.l1 := rfl
@[simp] theorem State.rawWrite_caches (s : State) (pa n v : Nat) : (s.rawWrite pa n v).caches = s.caches := rfl
@[simp] theorem State.rawWrite_overflow (s : State) (pa n v : Nat) : (s.rawWrite pa n v).overflow = s.overflow := rfl
@[simp] theorem State.rawWrite_misses (s : State) (pa n v : Nat) : (s.rawWrite pa n v).misses = s.misses := rfl

/-! Reading a record back. -/

theorem State.slot_setSlot (s : State) (key j : Nat) (sl : Slot) :
    (s.setSlot key sl).slot j = if key = j then sl else s.slot j := fget_fset _ _ _ _ _
@[simp] theorem State.slot_setSlot_same (s : State) (key : Nat) (sl : Slot) : (s.setSlot key sl).slot key = sl := by
  simp [State.slot_setSlot]
theorem State.slot_modSlot (s : State) (key j : Nat) (f : Slot → Slot) :
    (s.modSlot key f).slot j = if key = j then f (s.slot key) else s.slot j := fget_fset _ _ _ _ _
@[simp] theorem State.slot_modSlot_same (s : State) (key : Nat) (f : Slot → Slot) : (s.modSlot key f).slot key = f (s.slot key) := by
  simp [State.slot_modSlot]
@[simp] theorem State.me_modMe (s : State) (f : Slot → Slot) : (s.modMe f).me = f s.me := State.slot_modSlot_same s s.cur f
@[simp] theorem State.me_setMe (s : State) (sl : Slot) : (s.setMe sl).me = sl := State.slot_setSlot_same s s.cur sl
theorem State.slot_modMe (s : State) (j : Nat) (f : Slot → Slot) :
    (s.modMe f).slot j = if s.cur = j then f s.me else s.slot j := State.slot_modSlot s s.cur j f
theorem State.slot_setMe (s : State) (j : Nat) (sl : Slot) :
    (s.setMe sl).slot j = if s.cur = j then sl else s.slot j := State.slot_setSlot s s.cur j sl
theorem State.tile_setTile (s : State) (h j : Nat) (x : Tile) :
    (s.setTile h x).tile j = if h = j then x else s.tile j := fget_fset _ _ _ _ _
theorem State.tile_modTile (s : State) (h j : Nat) (f : Tile → Tile) :
    (s.modTile h f).tile j = if h = j then f (s.tile h) else s.tile j := fget_fset _ _ _ _ _
theorem State.lstall_modLStall (s : State) (k j : Nat) (f : LStall → LStall) :
    (s.modLStall k f).lstall j = if k = j then f (s.lstall k) else s.lstall j := fget_fset _ _ _ _ _
theorem State.pstall_modPStall (s : State) (k j : Nat) (f : PStall → PStall) :
    (s.modPStall k f).pstall j = if k = j then f (s.pstall k) else s.pstall j := fget_fset _ _ _ _ _
theorem State.arcade_modArcade (s : State) (k j : Nat) (f : Arcade → Arcade) :
    (s.modArcade k f).arcade j = if k = j then f (s.arcade k) else s.arcade j := fget_fset _ _ _ _ _
theorem State.quad_modQuad (s : State) (k j : Nat) (f : Quad → Quad) :
    (s.modQuad k f).quad j = if k = j then f (s.quad k) else s.quad j := fget_fset _ _ _ _ _
theorem State.queue_modQueue (s : State) (k j : Nat) (f : Queue → Queue) :
    (s.modQueue k f).queue j = if k = j then f (s.queue k) else s.queue j := fget_fset _ _ _ _ _
theorem State.cell_setCell (s : State) (k j : Nat) (c : Option Cell) :
    (s.setCell k c).cell j = if k = j then c else s.cell j := fget_fset _ _ _ _ _
@[simp] theorem State.parts_length_modPart (s : State) (p : Nat) (f : Part → Part) : (s.modPart p f).parts.length = s.parts.length := by
  simp [State.modPart]

/-! What reads only one field of the state. -/

@[simp] theorem State.tile_setSlot (s : State) (key : Nat) (sl : Slot) (j : Nat) : (s.setSlot key sl).tile j = s.tile j := rfl
@[simp] theorem State.lstall_setSlot (s : State) (key : Nat) (sl : Slot) (j : Nat) : (s.setSlot key sl).lstall j = s.lstall j := rfl
@[simp] theorem State.pstall_setSlot (s : State) (key : Nat) (sl : Slot) (j : Nat) : (s.setSlot key sl).pstall j = s.pstall j := rfl
@[simp] theorem State.arcade_setSlot (s : State) (key : Nat) (sl : Slot) (j : Nat) : (s.setSlot key sl).arcade j = s.arcade j := rfl
@[simp] theorem State.quad_setSlot (s : State) (key : Nat) (sl : Slot) (j : Nat) : (s.setSlot key sl).quad j = s.quad j := rfl
@[simp] theorem State.part_setSlot (s : State) (key : Nat) (sl : Slot) (j : Nat) : (s.setSlot key sl).part j = s.part j := rfl
@[simp] theorem State.queue_setSlot (s : State) (key : Nat) (sl : Slot) (j : Nat) : (s.setSlot key sl).queue j = s.queue j := rfl
@[simp] theorem State.cell_setSlot (s : State) (key : Nat) (sl : Slot) (j : Nat) : (s.setSlot key sl).cell j = s.cell j := rfl
@[simp] theorem State.slot_setTile (s : State) (home : Nat) (x : Tile) (j : Nat) : (s.setTile home x).slot j = s.slot j := rfl
@[simp] theorem State.me_setTile (s : State) (home : Nat) (x : Tile) : (s.setTile home x).me = s.me := rfl
@[simp] theorem State.lstall_setTile (s : State) (home : Nat) (x : Tile) (j : Nat) : (s.setTile home x).lstall j = s.lstall j := rfl
@[simp] theorem State.pstall_setTile (s : State) (home : Nat) (x : Tile) (j : Nat) : (s.setTile home x).pstall j = s.pstall j := rfl
@[simp] theorem State.arcade_setTile (s : State) (home : Nat) (x : Tile) (j : Nat) : (s.setTile home x).arcade j = s.arcade j := rfl
@[simp] theorem State.quad_setTile (s : State) (home : Nat) (x : Tile) (j : Nat) : (s.setTile home x).quad j = s.quad j := rfl
@[simp] theorem State.part_setTile (s : State) (home : Nat) (x : Tile) (j : Nat) : (s.setTile home x).part j = s.part j := rfl
@[simp] theorem State.queue_setTile (s : State) (home : Nat) (x : Tile) (j : Nat) : (s.setTile home x).queue j = s.queue j := rfl
@[simp] theorem State.cell_setTile (s : State) (home : Nat) (x : Tile) (j : Nat) : (s.setTile home x).cell j = s.cell j := rfl
@[simp] theorem State.slot_modLStall (s : State) (k : Nat) (f : LStall → LStall) (j : Nat) : (s.modLStall k f).slot j = s.slot j := rfl
@[simp] theorem State.me_modLStall (s : State) (k : Nat) (f : LStall → LStall) : (s.modLStall k f).me = s.me := rfl
@[simp] theorem State.tile_modLStall (s : State) (k : Nat) (f : LStall → LStall) (j : Nat) : (s.modLStall k f).tile j = s.tile j := rfl
@[simp] theorem State.pstall_modLStall (s : State) (k : Nat) (f : LStall → LStall) (j : Nat) : (s.modLStall k f).pstall j = s.pstall j := rfl
@[simp] theorem State.arcade_modLStall (s : State) (k : Nat) (f : LStall → LStall) (j : Nat) : (s.modLStall k f).arcade j = s.arcade j := rfl
@[simp] theorem State.quad_modLStall (s : State) (k : Nat) (f : LStall → LStall) (j : Nat) : (s.modLStall k f).quad j = s.quad j := rfl
@[simp] theorem State.part_modLStall (s : State) (k : Nat) (f : LStall → LStall) (j : Nat) : (s.modLStall k f).part j = s.part j := rfl
@[simp] theorem State.queue_modLStall (s : State) (k : Nat) (f : LStall → LStall) (j : Nat) : (s.modLStall k f).queue j = s.queue j := rfl
@[simp] theorem State.cell_modLStall (s : State) (k : Nat) (f : LStall → LStall) (j : Nat) : (s.modLStall k f).cell j = s.cell j := rfl
@[simp] theorem State.slot_modPStall (s : State) (k : Nat) (f : PStall → PStall) (j : Nat) : (s.modPStall k f).slot j = s.slot j := rfl
@[simp] theorem State.me_modPStall (s : State) (k : Nat) (f : PStall → PStall) : (s.modPStall k f).me = s.me := rfl
@[simp] theorem State.tile_modPStall (s : State) (k : Nat) (f : PStall → PStall) (j : Nat) : (s.modPStall k f).tile j = s.tile j := rfl
@[simp] theorem State.lstall_modPStall (s : State) (k : Nat) (f : PStall → PStall) (j : Nat) : (s.modPStall k f).lstall j = s.lstall j := rfl
@[simp] theorem State.arcade_modPStall (s : State) (k : Nat) (f : PStall → PStall) (j : Nat) : (s.modPStall k f).arcade j = s.arcade j := rfl
@[simp] theorem State.quad_modPStall (s : State) (k : Nat) (f : PStall → PStall) (j : Nat) : (s.modPStall k f).quad j = s.quad j := rfl
@[simp] theorem State.part_modPStall (s : State) (k : Nat) (f : PStall → PStall) (j : Nat) : (s.modPStall k f).part j = s.part j := rfl
@[simp] theorem State.queue_modPStall (s : State) (k : Nat) (f : PStall → PStall) (j : Nat) : (s.modPStall k f).queue j = s.queue j := rfl
@[simp] theorem State.cell_modPStall (s : State) (k : Nat) (f : PStall → PStall) (j : Nat) : (s.modPStall k f).cell j = s.cell j := rfl
@[simp] theorem State.slot_modArcade (s : State) (k : Nat) (f : Arcade → Arcade) (j : Nat) : (s.modArcade k f).slot j = s.slot j := rfl
@[simp] theorem State.me_modArcade (s : State) (k : Nat) (f : Arcade → Arcade) : (s.modArcade k f).me = s.me := rfl
@[simp] theorem State.tile_modArcade (s : State) (k : Nat) (f : Arcade → Arcade) (j : Nat) : (s.modArcade k f).tile j = s.tile j := rfl
@[simp] theorem State.lstall_modArcade (s : State) (k : Nat) (f : Arcade → Arcade) (j : Nat) : (s.modArcade k f).lstall j = s.lstall j := rfl
@[simp] theorem State.pstall_modArcade (s : State) (k : Nat) (f : Arcade → Arcade) (j : Nat) : (s.modArcade k f).pstall j = s.pstall j := rfl
@[simp] theorem State.quad_modArcade (s : State) (k : Nat) (f : Arcade → Arcade) (j : Nat) : (s.modArcade k f).quad j = s.quad j := rfl
@[simp] theorem State.part_modArcade (s : State) (k : Nat) (f : Arcade → Arcade) (j : Nat) : (s.modArcade k f).part j = s.part j := rfl
@[simp] theorem State.queue_modArcade (s : State) (k : Nat) (f : Arcade → Arcade) (j : Nat) : (s.modArcade k f).queue j = s.queue j := rfl
@[simp] theorem State.cell_modArcade (s : State) (k : Nat) (f : Arcade → Arcade) (j : Nat) : (s.modArcade k f).cell j = s.cell j := rfl
@[simp] theorem State.slot_modQuad (s : State) (k : Nat) (f : Quad → Quad) (j : Nat) : (s.modQuad k f).slot j = s.slot j := rfl
@[simp] theorem State.me_modQuad (s : State) (k : Nat) (f : Quad → Quad) : (s.modQuad k f).me = s.me := rfl
@[simp] theorem State.tile_modQuad (s : State) (k : Nat) (f : Quad → Quad) (j : Nat) : (s.modQuad k f).tile j = s.tile j := rfl
@[simp] theorem State.lstall_modQuad (s : State) (k : Nat) (f : Quad → Quad) (j : Nat) : (s.modQuad k f).lstall j = s.lstall j := rfl
@[simp] theorem State.pstall_modQuad (s : State) (k : Nat) (f : Quad → Quad) (j : Nat) : (s.modQuad k f).pstall j = s.pstall j := rfl
@[simp] theorem State.arcade_modQuad (s : State) (k : Nat) (f : Quad → Quad) (j : Nat) : (s.modQuad k f).arcade j = s.arcade j := rfl
@[simp] theorem State.part_modQuad (s : State) (k : Nat) (f : Quad → Quad) (j : Nat) : (s.modQuad k f).part j = s.part j := rfl
@[simp] theorem State.queue_modQuad (s : State) (k : Nat) (f : Quad → Quad) (j : Nat) : (s.modQuad k f).queue j = s.queue j := rfl
@[simp] theorem State.cell_modQuad (s : State) (k : Nat) (f : Quad → Quad) (j : Nat) : (s.modQuad k f).cell j = s.cell j := rfl
@[simp] theorem State.slot_modPart (s : State) (p : Nat) (f : Part → Part) (j : Nat) : (s.modPart p f).slot j = s.slot j := rfl
@[simp] theorem State.me_modPart (s : State) (p : Nat) (f : Part → Part) : (s.modPart p f).me = s.me := rfl
@[simp] theorem State.tile_modPart (s : State) (p : Nat) (f : Part → Part) (j : Nat) : (s.modPart p f).tile j = s.tile j := rfl
@[simp] theorem State.lstall_modPart (s : State) (p : Nat) (f : Part → Part) (j : Nat) : (s.modPart p f).lstall j = s.lstall j := rfl
@[simp] theorem State.pstall_modPart (s : State) (p : Nat) (f : Part → Part) (j : Nat) : (s.modPart p f).pstall j = s.pstall j := rfl
@[simp] theorem State.arcade_modPart (s : State) (p : Nat) (f : Part → Part) (j : Nat) : (s.modPart p f).arcade j = s.arcade j := rfl
@[simp] theorem State.quad_modPart (s : State) (p : Nat) (f : Part → Part) (j : Nat) : (s.modPart p f).quad j = s.quad j := rfl
@[simp] theorem State.queue_modPart (s : State) (p : Nat) (f : Part → Part) (j : Nat) : (s.modPart p f).queue j = s.queue j := rfl
@[simp] theorem State.cell_modPart (s : State) (p : Nat) (f : Part → Part) (j : Nat) : (s.modPart p f).cell j = s.cell j := rfl
@[simp] theorem State.slot_modQueue (s : State) (q : Nat) (f : Queue → Queue) (j : Nat) : (s.modQueue q f).slot j = s.slot j := rfl
@[simp] theorem State.me_modQueue (s : State) (q : Nat) (f : Queue → Queue) : (s.modQueue q f).me = s.me := rfl
@[simp] theorem State.tile_modQueue (s : State) (q : Nat) (f : Queue → Queue) (j : Nat) : (s.modQueue q f).tile j = s.tile j := rfl
@[simp] theorem State.lstall_modQueue (s : State) (q : Nat) (f : Queue → Queue) (j : Nat) : (s.modQueue q f).lstall j = s.lstall j := rfl
@[simp] theorem State.pstall_modQueue (s : State) (q : Nat) (f : Queue → Queue) (j : Nat) : (s.modQueue q f).pstall j = s.pstall j := rfl
@[simp] theorem State.arcade_modQueue (s : State) (q : Nat) (f : Queue → Queue) (j : Nat) : (s.modQueue q f).arcade j = s.arcade j := rfl
@[simp] theorem State.quad_modQueue (s : State) (q : Nat) (f : Queue → Queue) (j : Nat) : (s.modQueue q f).quad j = s.quad j := rfl
@[simp] theorem State.part_modQueue (s : State) (q : Nat) (f : Queue → Queue) (j : Nat) : (s.modQueue q f).part j = s.part j := rfl
@[simp] theorem State.cell_modQueue (s : State) (q : Nat) (f : Queue → Queue) (j : Nat) : (s.modQueue q f).cell j = s.cell j := rfl
@[simp] theorem State.slot_setCell (s : State) (k : Nat) (c : Option Cell) (j : Nat) : (s.setCell k c).slot j = s.slot j := rfl
@[simp] theorem State.me_setCell (s : State) (k : Nat) (c : Option Cell) : (s.setCell k c).me = s.me := rfl
@[simp] theorem State.tile_setCell (s : State) (k : Nat) (c : Option Cell) (j : Nat) : (s.setCell k c).tile j = s.tile j := rfl
@[simp] theorem State.lstall_setCell (s : State) (k : Nat) (c : Option Cell) (j : Nat) : (s.setCell k c).lstall j = s.lstall j := rfl
@[simp] theorem State.pstall_setCell (s : State) (k : Nat) (c : Option Cell) (j : Nat) : (s.setCell k c).pstall j = s.pstall j := rfl
@[simp] theorem State.arcade_setCell (s : State) (k : Nat) (c : Option Cell) (j : Nat) : (s.setCell k c).arcade j = s.arcade j := rfl
@[simp] theorem State.quad_setCell (s : State) (k : Nat) (c : Option Cell) (j : Nat) : (s.setCell k c).quad j = s.quad j := rfl
@[simp] theorem State.part_setCell (s : State) (k : Nat) (c : Option Cell) (j : Nat) : (s.setCell k c).part j = s.part j := rfl
@[simp] theorem State.queue_setCell (s : State) (k : Nat) (c : Option Cell) (j : Nat) : (s.setCell k c).queue j = s.queue j := rfl
@[simp] theorem State.slot_modDev (s : State) (f : Device → Device) (j : Nat) : (s.modDev f).slot j = s.slot j := rfl
@[simp] theorem State.me_modDev (s : State) (f : Device → Device) : (s.modDev f).me = s.me := rfl
@[simp] theorem State.tile_modDev (s : State) (f : Device → Device) (j : Nat) : (s.modDev f).tile j = s.tile j := rfl
@[simp] theorem State.lstall_modDev (s : State) (f : Device → Device) (j : Nat) : (s.modDev f).lstall j = s.lstall j := rfl
@[simp] theorem State.pstall_modDev (s : State) (f : Device → Device) (j : Nat) : (s.modDev f).pstall j = s.pstall j := rfl
@[simp] theorem State.arcade_modDev (s : State) (f : Device → Device) (j : Nat) : (s.modDev f).arcade j = s.arcade j := rfl
@[simp] theorem State.quad_modDev (s : State) (f : Device → Device) (j : Nat) : (s.modDev f).quad j = s.quad j := rfl
@[simp] theorem State.part_modDev (s : State) (f : Device → Device) (j : Nat) : (s.modDev f).part j = s.part j := rfl
@[simp] theorem State.queue_modDev (s : State) (f : Device → Device) (j : Nat) : (s.modDev f).queue j = s.queue j := rfl
@[simp] theorem State.cell_modDev (s : State) (f : Device → Device) (j : Nat) : (s.modDev f).cell j = s.cell j := rfl
@[simp] theorem State.tile_modSlot (s : State) (key : Nat) (f : Slot → Slot) (j : Nat) : (s.modSlot key f).tile j = s.tile j := rfl
@[simp] theorem State.lstall_modSlot (s : State) (key : Nat) (f : Slot → Slot) (j : Nat) : (s.modSlot key f).lstall j = s.lstall j := rfl
@[simp] theorem State.pstall_modSlot (s : State) (key : Nat) (f : Slot → Slot) (j : Nat) : (s.modSlot key f).pstall j = s.pstall j := rfl
@[simp] theorem State.arcade_modSlot (s : State) (key : Nat) (f : Slot → Slot) (j : Nat) : (s.modSlot key f).arcade j = s.arcade j := rfl
@[simp] theorem State.quad_modSlot (s : State) (key : Nat) (f : Slot → Slot) (j : Nat) : (s.modSlot key f).quad j = s.quad j := rfl
@[simp] theorem State.part_modSlot (s : State) (key : Nat) (f : Slot → Slot) (j : Nat) : (s.modSlot key f).part j = s.part j := rfl
@[simp] theorem State.queue_modSlot (s : State) (key : Nat) (f : Slot → Slot) (j : Nat) : (s.modSlot key f).queue j = s.queue j := rfl
@[simp] theorem State.cell_modSlot (s : State) (key : Nat) (f : Slot → Slot) (j : Nat) : (s.modSlot key f).cell j = s.cell j := rfl
@[simp] theorem State.slot_modTile (s : State) (home : Nat) (f : Tile → Tile) (j : Nat) : (s.modTile home f).slot j = s.slot j := rfl
@[simp] theorem State.me_modTile (s : State) (home : Nat) (f : Tile → Tile) : (s.modTile home f).me = s.me := rfl
@[simp] theorem State.lstall_modTile (s : State) (home : Nat) (f : Tile → Tile) (j : Nat) : (s.modTile home f).lstall j = s.lstall j := rfl
@[simp] theorem State.pstall_modTile (s : State) (home : Nat) (f : Tile → Tile) (j : Nat) : (s.modTile home f).pstall j = s.pstall j := rfl
@[simp] theorem State.arcade_modTile (s : State) (home : Nat) (f : Tile → Tile) (j : Nat) : (s.modTile home f).arcade j = s.arcade j := rfl
@[simp] theorem State.quad_modTile (s : State) (home : Nat) (f : Tile → Tile) (j : Nat) : (s.modTile home f).quad j = s.quad j := rfl
@[simp] theorem State.part_modTile (s : State) (home : Nat) (f : Tile → Tile) (j : Nat) : (s.modTile home f).part j = s.part j := rfl
@[simp] theorem State.queue_modTile (s : State) (home : Nat) (f : Tile → Tile) (j : Nat) : (s.modTile home f).queue j = s.queue j := rfl
@[simp] theorem State.cell_modTile (s : State) (home : Nat) (f : Tile → Tile) (j : Nat) : (s.modTile home f).cell j = s.cell j := rfl
@[simp] theorem State.tile_setMe (s : State) (sl : Slot) (j : Nat) : (s.setMe sl).tile j = s.tile j := rfl
@[simp] theorem State.lstall_setMe (s : State) (sl : Slot) (j : Nat) : (s.setMe sl).lstall j = s.lstall j := rfl
@[simp] theorem State.pstall_setMe (s : State) (sl : Slot) (j : Nat) : (s.setMe sl).pstall j = s.pstall j := rfl
@[simp] theorem State.arcade_setMe (s : State) (sl : Slot) (j : Nat) : (s.setMe sl).arcade j = s.arcade j := rfl
@[simp] theorem State.quad_setMe (s : State) (sl : Slot) (j : Nat) : (s.setMe sl).quad j = s.quad j := rfl
@[simp] theorem State.part_setMe (s : State) (sl : Slot) (j : Nat) : (s.setMe sl).part j = s.part j := rfl
@[simp] theorem State.queue_setMe (s : State) (sl : Slot) (j : Nat) : (s.setMe sl).queue j = s.queue j := rfl
@[simp] theorem State.cell_setMe (s : State) (sl : Slot) (j : Nat) : (s.setMe sl).cell j = s.cell j := rfl
@[simp] theorem State.tile_modMe (s : State) (f : Slot → Slot) (j : Nat) : (s.modMe f).tile j = s.tile j := rfl
@[simp] theorem State.lstall_modMe (s : State) (f : Slot → Slot) (j : Nat) : (s.modMe f).lstall j = s.lstall j := rfl
@[simp] theorem State.pstall_modMe (s : State) (f : Slot → Slot) (j : Nat) : (s.modMe f).pstall j = s.pstall j := rfl
@[simp] theorem State.arcade_modMe (s : State) (f : Slot → Slot) (j : Nat) : (s.modMe f).arcade j = s.arcade j := rfl
@[simp] theorem State.quad_modMe (s : State) (f : Slot → Slot) (j : Nat) : (s.modMe f).quad j = s.quad j := rfl
@[simp] theorem State.part_modMe (s : State) (f : Slot → Slot) (j : Nat) : (s.modMe f).part j = s.part j := rfl
@[simp] theorem State.queue_modMe (s : State) (f : Slot → Slot) (j : Nat) : (s.modMe f).queue j = s.queue j := rfl
@[simp] theorem State.cell_modMe (s : State) (f : Slot → Slot) (j : Nat) : (s.modMe f).cell j = s.cell j := rfl
@[simp] theorem State.slot_rawWrite (s : State) (pa n v : Nat) (j : Nat) : (s.rawWrite pa n v).slot j = s.slot j := rfl
@[simp] theorem State.me_rawWrite (s : State) (pa n v : Nat) : (s.rawWrite pa n v).me = s.me := rfl
@[simp] theorem State.tile_rawWrite (s : State) (pa n v : Nat) (j : Nat) : (s.rawWrite pa n v).tile j = s.tile j := rfl
@[simp] theorem State.lstall_rawWrite (s : State) (pa n v : Nat) (j : Nat) : (s.rawWrite pa n v).lstall j = s.lstall j := rfl
@[simp] theorem State.pstall_rawWrite (s : State) (pa n v : Nat) (j : Nat) : (s.rawWrite pa n v).pstall j = s.pstall j := rfl
@[simp] theorem State.arcade_rawWrite (s : State) (pa n v : Nat) (j : Nat) : (s.rawWrite pa n v).arcade j = s.arcade j := rfl
@[simp] theorem State.quad_rawWrite (s : State) (pa n v : Nat) (j : Nat) : (s.rawWrite pa n v).quad j = s.quad j := rfl
@[simp] theorem State.part_rawWrite (s : State) (pa n v : Nat) (j : Nat) : (s.rawWrite pa n v).part j = s.part j := rfl
@[simp] theorem State.queue_rawWrite (s : State) (pa n v : Nat) (j : Nat) : (s.rawWrite pa n v).queue j = s.queue j := rfl
@[simp] theorem State.cell_rawWrite (s : State) (pa n v : Nat) (j : Nat) : (s.rawWrite pa n v).cell j = s.cell j := rfl

/-! A slot. -/

@[simp] theorem Slot.vw_phase (l : Slot) (i : Nat) (x : VReg) : (l.vw i x).phase = l.phase := rfl
@[simp] theorem Slot.vw_pc (l : Slot) (i : Nat) (x : VReg) : (l.vw i x).pc = l.pc := rfl
@[simp] theorem Slot.vw_g (l : Slot) (i : Nat) (x : VReg) : (l.vw i x).g = l.g := rfl
@[simp] theorem Slot.vw_k (l : Slot) (i : Nat) (x : VReg) : (l.vw i x).k = l.k := rfl
@[simp] theorem Slot.vw_status (l : Slot) (i : Nat) (x : VReg) : (l.vw i x).status = l.status := rfl
@[simp] theorem Slot.vw_flags (l : Slot) (i : Nat) (x : VReg) : (l.vw i x).flags = l.flags := rfl
@[simp] theorem Slot.vw_taskid (l : Slot) (i : Nat) (x : VReg) : (l.vw i x).taskid = l.taskid := rfl
@[simp] theorem Slot.vw_asid (l : Slot) (i : Nat) (x : VReg) : (l.vw i x).asid = l.asid := rfl
@[simp] theorem Slot.vw_epc (l : Slot) (i : Nat) (x : VReg) : (l.vw i x).epc = l.epc := rfl
@[simp] theorem Slot.vw_ecause (l : Slot) (i : Nat) (x : VReg) : (l.vw i x).ecause = l.ecause := rfl
@[simp] theorem Slot.vw_eval (l : Slot) (i : Nat) (x : VReg) : (l.vw i x).eval = l.eval := rfl
@[simp] theorem Slot.vw_pidx (l : Slot) (i : Nat) (x : VReg) : (l.vw i x).pidx = l.pidx := rfl
@[simp] theorem Slot.vw_estatus (l : Slot) (i : Nat) (x : VReg) : (l.vw i x).estatus = l.estatus := rfl
@[simp] theorem Slot.vw_tvec (l : Slot) (i : Nat) (x : VReg) : (l.vw i x).tvec = l.tvec := rfl
@[simp] theorem Slot.vw_rngs (l : Slot) (i : Nat) (x : VReg) : (l.vw i x).rngs = l.rngs := rfl
@[simp] theorem Slot.vw_quota (l : Slot) (i : Nat) (x : VReg) : (l.vw i x).quota = l.quota := rfl
@[simp] theorem Slot.vw_wdog (l : Slot) (i : Nat) (x : VReg) : (l.vw i x).wdog = l.wdog := rfl
@[simp] theorem Slot.vw_gmask (l : Slot) (i : Nat) (x : VReg) : (l.vw i x).gmask = l.gmask := rfl
@[simp] theorem Slot.vw_gto (l : Slot) (i : Nat) (x : VReg) : (l.vw i x).gto = l.gto := rfl
@[simp] theorem Slot.vw_cwm (l : Slot) (i : Nat) (x : VReg) : (l.vw i x).cwm = l.cwm := rfl
@[simp] theorem Slot.vw_ebcmin (l : Slot) (i : Nat) (x : VReg) : (l.vw i x).ebcmin = l.ebcmin := rfl
@[simp] theorem Slot.vw_q (l : Slot) (i : Nat) (x : VReg) : (l.vw i x).q = l.q := rfl
@[simp] theorem Slot.vw_b (l : Slot) (i : Nat) (x : VReg) : (l.vw i x).b = l.b := rfl
@[simp] theorem Slot.vw_debt (l : Slot) (i : Nat) (x : VReg) : (l.vw i x).debt = l.debt := rfl
@[simp] theorem Slot.vw_units (l : Slot) (i : Nat) (x : VReg) : (l.vw i x).units = l.units := rfl
@[simp] theorem Slot.vw_carry (l : Slot) (i : Nat) (x : VReg) : (l.vw i x).carry = l.carry := rfl
@[simp] theorem Slot.vw_seg (l : Slot) (i : Nat) (x : VReg) : (l.vw i x).seg = l.seg := rfl
@[simp] theorem Slot.vw_startPtr (l : Slot) (i : Nat) (x : VReg) : (l.vw i x).startPtr = l.startPtr := rfl
@[simp] theorem Slot.vw_pend (l : Slot) (i : Nat) (x : VReg) : (l.vw i x).pend = l.pend := rfl
@[simp] theorem Slot.vw_hints (l : Slot) (i : Nat) (x : VReg) : (l.vw i x).hints = l.hints := rfl
@[simp] theorem Slot.vw_runStart (l : Slot) (i : Nat) (x : VReg) : (l.vw i x).runStart = l.runStart := rfl
@[simp] theorem Slot.vw_committed (l : Slot) (i : Nat) (x : VReg) : (l.vw i x).committed = l.committed := rfl
@[simp] theorem Slot.vw_kill (l : Slot) (i : Nat) (x : VReg) : (l.vw i x).kill = l.kill := rfl
@[simp] theorem Slot.vw_wdogDue (l : Slot) (i : Nat) (x : VReg) : (l.vw i x).wdogDue = l.wdogDue := rfl
@[simp] theorem Slot.vw_stops (l : Slot) (i : Nat) (x : VReg) : (l.vw i x).stops = l.stops := rfl
@[simp] theorem Slot.vw_stepping (l : Slot) (i : Nat) (x : VReg) : (l.vw i x).stepping = l.stepping := rfl
@[simp] theorem Slot.vw_prio (l : Slot) (i : Nat) (x : VReg) : (l.vw i x).prio = l.prio := rfl
@[simp] theorem Slot.vw_prioRun (l : Slot) (i : Nat) (x : VReg) : (l.vw i x).prioRun = l.prioRun := rfl
@[simp] theorem Slot.vw_age (l : Slot) (i : Nat) (x : VReg) : (l.vw i x).age = l.age := rfl
@[simp] theorem Slot.vw_arrived (l : Slot) (i : Nat) (x : VReg) : (l.vw i x).arrived = l.arrived := rfl
@[simp] theorem Slot.vw_performing (l : Slot) (i : Nat) (x : VReg) : (l.vw i x).performing = l.performing := rfl
@[simp] theorem Slot.vw_load (l : Slot) (i : Nat) (x : VReg) : (l.vw i x).load = l.load := rfl
@[simp] theorem Slot.vw_reply (l : Slot) (i : Nat) (x : VReg) : (l.vw i x).reply = l.reply := rfl
@[simp] theorem Slot.vw_sent (l : Slot) (i : Nat) (x : VReg) : (l.vw i x).sent = l.sent := rfl
@[simp] theorem Slot.vw_issued (l : Slot) (i : Nat) (x : VReg) : (l.vw i x).issued = l.issued := rfl
@[simp] theorem Slot.vw_origin (l : Slot) (i : Nat) (x : VReg) : (l.vw i x).origin = l.origin := rfl
@[simp] theorem Slot.vw_queue (l : Slot) (i : Nat) (x : VReg) : (l.vw i x).queue = l.queue := rfl
@[simp] theorem Slot.vw_demand (l : Slot) (i : Nat) (x : VReg) : (l.vw i x).demand = l.demand := rfl
@[simp] theorem Slot.vw_leaseTile (l : Slot) (i : Nat) (x : VReg) : (l.vw i x).leaseTile = l.leaseTile := rfl
@[simp] theorem Slot.vw_abLease (l : Slot) (i : Nat) (x : VReg) : (l.vw i x).abLease = l.abLease := rfl
@[simp] theorem Slot.vw_wbLease (l : Slot) (i : Nat) (x : VReg) : (l.vw i x).wbLease = l.wbLease := rfl
@[simp] theorem Slot.vw_held (l : Slot) (i : Nat) (x : VReg) : (l.vw i x).held = l.held := rfl
@[simp] theorem Slot.vw_idleAt (l : Slot) (i : Nat) (x : VReg) : (l.vw i x).idleAt = l.idleAt := rfl
@[simp] theorem Slot.vw_gangFor (l : Slot) (i : Nat) (x : VReg) : (l.vw i x).gangFor = l.gangFor := rfl
@[simp] theorem Slot.vw_peerEnd (l : Slot) (i : Nat) (x : VReg) : (l.vw i x).peerEnd = l.peerEnd := rfl
@[simp] theorem Slot.vw_staged (l : Slot) (i : Nat) (x : VReg) : (l.vw i x).staged = l.staged := rfl
@[simp] theorem Slot.vw_passFrom (l : Slot) (i : Nat) (x : VReg) : (l.vw i x).passFrom = l.passFrom := rfl
@[simp] theorem Slot.vw_chained (l : Slot) (i : Nat) (x : VReg) : (l.vw i x).chained = l.chained := rfl
@[simp] theorem Slot.vw_kept (l : Slot) (i : Nat) (x : VReg) : (l.vw i x).kept = l.kept := rfl
@[simp] theorem Slot.vw_late (l : Slot) (i : Nat) (x : VReg) : (l.vw i x).late = l.late := rfl
@[simp] theorem Slot.vw_next (l : Slot) (i : Nat) (x : VReg) : (l.vw i x).next = l.next := rfl
@[simp] theorem Slot.qw_phase (l : Slot) (i : Nat) (x : BitVec 128) : (l.qw i x).phase = l.phase := rfl
@[simp] theorem Slot.qw_pc (l : Slot) (i : Nat) (x : BitVec 128) : (l.qw i x).pc = l.pc := rfl
@[simp] theorem Slot.qw_g (l : Slot) (i : Nat) (x : BitVec 128) : (l.qw i x).g = l.g := rfl
@[simp] theorem Slot.qw_v (l : Slot) (i : Nat) (x : BitVec 128) : (l.qw i x).v = l.v := rfl
@[simp] theorem Slot.qw_k (l : Slot) (i : Nat) (x : BitVec 128) : (l.qw i x).k = l.k := rfl
@[simp] theorem Slot.qw_status (l : Slot) (i : Nat) (x : BitVec 128) : (l.qw i x).status = l.status := rfl
@[simp] theorem Slot.qw_flags (l : Slot) (i : Nat) (x : BitVec 128) : (l.qw i x).flags = l.flags := rfl
@[simp] theorem Slot.qw_taskid (l : Slot) (i : Nat) (x : BitVec 128) : (l.qw i x).taskid = l.taskid := rfl
@[simp] theorem Slot.qw_asid (l : Slot) (i : Nat) (x : BitVec 128) : (l.qw i x).asid = l.asid := rfl
@[simp] theorem Slot.qw_epc (l : Slot) (i : Nat) (x : BitVec 128) : (l.qw i x).epc = l.epc := rfl
@[simp] theorem Slot.qw_ecause (l : Slot) (i : Nat) (x : BitVec 128) : (l.qw i x).ecause = l.ecause := rfl
@[simp] theorem Slot.qw_eval (l : Slot) (i : Nat) (x : BitVec 128) : (l.qw i x).eval = l.eval := rfl
@[simp] theorem Slot.qw_pidx (l : Slot) (i : Nat) (x : BitVec 128) : (l.qw i x).pidx = l.pidx := rfl
@[simp] theorem Slot.qw_estatus (l : Slot) (i : Nat) (x : BitVec 128) : (l.qw i x).estatus = l.estatus := rfl
@[simp] theorem Slot.qw_tvec (l : Slot) (i : Nat) (x : BitVec 128) : (l.qw i x).tvec = l.tvec := rfl
@[simp] theorem Slot.qw_rngs (l : Slot) (i : Nat) (x : BitVec 128) : (l.qw i x).rngs = l.rngs := rfl
@[simp] theorem Slot.qw_quota (l : Slot) (i : Nat) (x : BitVec 128) : (l.qw i x).quota = l.quota := rfl
@[simp] theorem Slot.qw_wdog (l : Slot) (i : Nat) (x : BitVec 128) : (l.qw i x).wdog = l.wdog := rfl
@[simp] theorem Slot.qw_gmask (l : Slot) (i : Nat) (x : BitVec 128) : (l.qw i x).gmask = l.gmask := rfl
@[simp] theorem Slot.qw_gto (l : Slot) (i : Nat) (x : BitVec 128) : (l.qw i x).gto = l.gto := rfl
@[simp] theorem Slot.qw_cwm (l : Slot) (i : Nat) (x : BitVec 128) : (l.qw i x).cwm = l.cwm := rfl
@[simp] theorem Slot.qw_ebcmin (l : Slot) (i : Nat) (x : BitVec 128) : (l.qw i x).ebcmin = l.ebcmin := rfl
@[simp] theorem Slot.qw_b (l : Slot) (i : Nat) (x : BitVec 128) : (l.qw i x).b = l.b := rfl
@[simp] theorem Slot.qw_debt (l : Slot) (i : Nat) (x : BitVec 128) : (l.qw i x).debt = l.debt := rfl
@[simp] theorem Slot.qw_units (l : Slot) (i : Nat) (x : BitVec 128) : (l.qw i x).units = l.units := rfl
@[simp] theorem Slot.qw_carry (l : Slot) (i : Nat) (x : BitVec 128) : (l.qw i x).carry = l.carry := rfl
@[simp] theorem Slot.qw_seg (l : Slot) (i : Nat) (x : BitVec 128) : (l.qw i x).seg = l.seg := rfl
@[simp] theorem Slot.qw_startPtr (l : Slot) (i : Nat) (x : BitVec 128) : (l.qw i x).startPtr = l.startPtr := rfl
@[simp] theorem Slot.qw_pend (l : Slot) (i : Nat) (x : BitVec 128) : (l.qw i x).pend = l.pend := rfl
@[simp] theorem Slot.qw_hints (l : Slot) (i : Nat) (x : BitVec 128) : (l.qw i x).hints = l.hints := rfl
@[simp] theorem Slot.qw_runStart (l : Slot) (i : Nat) (x : BitVec 128) : (l.qw i x).runStart = l.runStart := rfl
@[simp] theorem Slot.qw_committed (l : Slot) (i : Nat) (x : BitVec 128) : (l.qw i x).committed = l.committed := rfl
@[simp] theorem Slot.qw_kill (l : Slot) (i : Nat) (x : BitVec 128) : (l.qw i x).kill = l.kill := rfl
@[simp] theorem Slot.qw_wdogDue (l : Slot) (i : Nat) (x : BitVec 128) : (l.qw i x).wdogDue = l.wdogDue := rfl
@[simp] theorem Slot.qw_stops (l : Slot) (i : Nat) (x : BitVec 128) : (l.qw i x).stops = l.stops := rfl
@[simp] theorem Slot.qw_stepping (l : Slot) (i : Nat) (x : BitVec 128) : (l.qw i x).stepping = l.stepping := rfl
@[simp] theorem Slot.qw_prio (l : Slot) (i : Nat) (x : BitVec 128) : (l.qw i x).prio = l.prio := rfl
@[simp] theorem Slot.qw_prioRun (l : Slot) (i : Nat) (x : BitVec 128) : (l.qw i x).prioRun = l.prioRun := rfl
@[simp] theorem Slot.qw_age (l : Slot) (i : Nat) (x : BitVec 128) : (l.qw i x).age = l.age := rfl
@[simp] theorem Slot.qw_arrived (l : Slot) (i : Nat) (x : BitVec 128) : (l.qw i x).arrived = l.arrived := rfl
@[simp] theorem Slot.qw_performing (l : Slot) (i : Nat) (x : BitVec 128) : (l.qw i x).performing = l.performing := rfl
@[simp] theorem Slot.qw_load (l : Slot) (i : Nat) (x : BitVec 128) : (l.qw i x).load = l.load := rfl
@[simp] theorem Slot.qw_reply (l : Slot) (i : Nat) (x : BitVec 128) : (l.qw i x).reply = l.reply := rfl
@[simp] theorem Slot.qw_sent (l : Slot) (i : Nat) (x : BitVec 128) : (l.qw i x).sent = l.sent := rfl
@[simp] theorem Slot.qw_issued (l : Slot) (i : Nat) (x : BitVec 128) : (l.qw i x).issued = l.issued := rfl
@[simp] theorem Slot.qw_origin (l : Slot) (i : Nat) (x : BitVec 128) : (l.qw i x).origin = l.origin := rfl
@[simp] theorem Slot.qw_queue (l : Slot) (i : Nat) (x : BitVec 128) : (l.qw i x).queue = l.queue := rfl
@[simp] theorem Slot.qw_demand (l : Slot) (i : Nat) (x : BitVec 128) : (l.qw i x).demand = l.demand := rfl
@[simp] theorem Slot.qw_leaseTile (l : Slot) (i : Nat) (x : BitVec 128) : (l.qw i x).leaseTile = l.leaseTile := rfl
@[simp] theorem Slot.qw_abLease (l : Slot) (i : Nat) (x : BitVec 128) : (l.qw i x).abLease = l.abLease := rfl
@[simp] theorem Slot.qw_wbLease (l : Slot) (i : Nat) (x : BitVec 128) : (l.qw i x).wbLease = l.wbLease := rfl
@[simp] theorem Slot.qw_held (l : Slot) (i : Nat) (x : BitVec 128) : (l.qw i x).held = l.held := rfl
@[simp] theorem Slot.qw_idleAt (l : Slot) (i : Nat) (x : BitVec 128) : (l.qw i x).idleAt = l.idleAt := rfl
@[simp] theorem Slot.qw_gangFor (l : Slot) (i : Nat) (x : BitVec 128) : (l.qw i x).gangFor = l.gangFor := rfl
@[simp] theorem Slot.qw_peerEnd (l : Slot) (i : Nat) (x : BitVec 128) : (l.qw i x).peerEnd = l.peerEnd := rfl
@[simp] theorem Slot.qw_staged (l : Slot) (i : Nat) (x : BitVec 128) : (l.qw i x).staged = l.staged := rfl
@[simp] theorem Slot.qw_passFrom (l : Slot) (i : Nat) (x : BitVec 128) : (l.qw i x).passFrom = l.passFrom := rfl
@[simp] theorem Slot.qw_chained (l : Slot) (i : Nat) (x : BitVec 128) : (l.qw i x).chained = l.chained := rfl
@[simp] theorem Slot.qw_kept (l : Slot) (i : Nat) (x : BitVec 128) : (l.qw i x).kept = l.kept := rfl
@[simp] theorem Slot.qw_late (l : Slot) (i : Nat) (x : BitVec 128) : (l.qw i x).late = l.late := rfl
@[simp] theorem Slot.qw_next (l : Slot) (i : Nat) (x : BitVec 128) : (l.qw i x).next = l.next := rfl
@[simp] theorem Slot.bw_phase (l : Slot) (i : Nat) (x : BitVec 32) : (l.bw i x).phase = l.phase := rfl
@[simp] theorem Slot.bw_pc (l : Slot) (i : Nat) (x : BitVec 32) : (l.bw i x).pc = l.pc := rfl
@[simp] theorem Slot.bw_g (l : Slot) (i : Nat) (x : BitVec 32) : (l.bw i x).g = l.g := rfl
@[simp] theorem Slot.bw_v (l : Slot) (i : Nat) (x : BitVec 32) : (l.bw i x).v = l.v := rfl
@[simp] theorem Slot.bw_k (l : Slot) (i : Nat) (x : BitVec 32) : (l.bw i x).k = l.k := rfl
@[simp] theorem Slot.bw_status (l : Slot) (i : Nat) (x : BitVec 32) : (l.bw i x).status = l.status := rfl
@[simp] theorem Slot.bw_flags (l : Slot) (i : Nat) (x : BitVec 32) : (l.bw i x).flags = l.flags := rfl
@[simp] theorem Slot.bw_taskid (l : Slot) (i : Nat) (x : BitVec 32) : (l.bw i x).taskid = l.taskid := rfl
@[simp] theorem Slot.bw_asid (l : Slot) (i : Nat) (x : BitVec 32) : (l.bw i x).asid = l.asid := rfl
@[simp] theorem Slot.bw_epc (l : Slot) (i : Nat) (x : BitVec 32) : (l.bw i x).epc = l.epc := rfl
@[simp] theorem Slot.bw_ecause (l : Slot) (i : Nat) (x : BitVec 32) : (l.bw i x).ecause = l.ecause := rfl
@[simp] theorem Slot.bw_eval (l : Slot) (i : Nat) (x : BitVec 32) : (l.bw i x).eval = l.eval := rfl
@[simp] theorem Slot.bw_pidx (l : Slot) (i : Nat) (x : BitVec 32) : (l.bw i x).pidx = l.pidx := rfl
@[simp] theorem Slot.bw_estatus (l : Slot) (i : Nat) (x : BitVec 32) : (l.bw i x).estatus = l.estatus := rfl
@[simp] theorem Slot.bw_tvec (l : Slot) (i : Nat) (x : BitVec 32) : (l.bw i x).tvec = l.tvec := rfl
@[simp] theorem Slot.bw_rngs (l : Slot) (i : Nat) (x : BitVec 32) : (l.bw i x).rngs = l.rngs := rfl
@[simp] theorem Slot.bw_quota (l : Slot) (i : Nat) (x : BitVec 32) : (l.bw i x).quota = l.quota := rfl
@[simp] theorem Slot.bw_wdog (l : Slot) (i : Nat) (x : BitVec 32) : (l.bw i x).wdog = l.wdog := rfl
@[simp] theorem Slot.bw_gmask (l : Slot) (i : Nat) (x : BitVec 32) : (l.bw i x).gmask = l.gmask := rfl
@[simp] theorem Slot.bw_gto (l : Slot) (i : Nat) (x : BitVec 32) : (l.bw i x).gto = l.gto := rfl
@[simp] theorem Slot.bw_cwm (l : Slot) (i : Nat) (x : BitVec 32) : (l.bw i x).cwm = l.cwm := rfl
@[simp] theorem Slot.bw_ebcmin (l : Slot) (i : Nat) (x : BitVec 32) : (l.bw i x).ebcmin = l.ebcmin := rfl
@[simp] theorem Slot.bw_q (l : Slot) (i : Nat) (x : BitVec 32) : (l.bw i x).q = l.q := rfl
@[simp] theorem Slot.bw_debt (l : Slot) (i : Nat) (x : BitVec 32) : (l.bw i x).debt = l.debt := rfl
@[simp] theorem Slot.bw_units (l : Slot) (i : Nat) (x : BitVec 32) : (l.bw i x).units = l.units := rfl
@[simp] theorem Slot.bw_carry (l : Slot) (i : Nat) (x : BitVec 32) : (l.bw i x).carry = l.carry := rfl
@[simp] theorem Slot.bw_seg (l : Slot) (i : Nat) (x : BitVec 32) : (l.bw i x).seg = l.seg := rfl
@[simp] theorem Slot.bw_startPtr (l : Slot) (i : Nat) (x : BitVec 32) : (l.bw i x).startPtr = l.startPtr := rfl
@[simp] theorem Slot.bw_pend (l : Slot) (i : Nat) (x : BitVec 32) : (l.bw i x).pend = l.pend := rfl
@[simp] theorem Slot.bw_hints (l : Slot) (i : Nat) (x : BitVec 32) : (l.bw i x).hints = l.hints := rfl
@[simp] theorem Slot.bw_runStart (l : Slot) (i : Nat) (x : BitVec 32) : (l.bw i x).runStart = l.runStart := rfl
@[simp] theorem Slot.bw_committed (l : Slot) (i : Nat) (x : BitVec 32) : (l.bw i x).committed = l.committed := rfl
@[simp] theorem Slot.bw_kill (l : Slot) (i : Nat) (x : BitVec 32) : (l.bw i x).kill = l.kill := rfl
@[simp] theorem Slot.bw_wdogDue (l : Slot) (i : Nat) (x : BitVec 32) : (l.bw i x).wdogDue = l.wdogDue := rfl
@[simp] theorem Slot.bw_stops (l : Slot) (i : Nat) (x : BitVec 32) : (l.bw i x).stops = l.stops := rfl
@[simp] theorem Slot.bw_stepping (l : Slot) (i : Nat) (x : BitVec 32) : (l.bw i x).stepping = l.stepping := rfl
@[simp] theorem Slot.bw_prio (l : Slot) (i : Nat) (x : BitVec 32) : (l.bw i x).prio = l.prio := rfl
@[simp] theorem Slot.bw_prioRun (l : Slot) (i : Nat) (x : BitVec 32) : (l.bw i x).prioRun = l.prioRun := rfl
@[simp] theorem Slot.bw_age (l : Slot) (i : Nat) (x : BitVec 32) : (l.bw i x).age = l.age := rfl
@[simp] theorem Slot.bw_arrived (l : Slot) (i : Nat) (x : BitVec 32) : (l.bw i x).arrived = l.arrived := rfl
@[simp] theorem Slot.bw_performing (l : Slot) (i : Nat) (x : BitVec 32) : (l.bw i x).performing = l.performing := rfl
@[simp] theorem Slot.bw_load (l : Slot) (i : Nat) (x : BitVec 32) : (l.bw i x).load = l.load := rfl
@[simp] theorem Slot.bw_reply (l : Slot) (i : Nat) (x : BitVec 32) : (l.bw i x).reply = l.reply := rfl
@[simp] theorem Slot.bw_sent (l : Slot) (i : Nat) (x : BitVec 32) : (l.bw i x).sent = l.sent := rfl
@[simp] theorem Slot.bw_issued (l : Slot) (i : Nat) (x : BitVec 32) : (l.bw i x).issued = l.issued := rfl
@[simp] theorem Slot.bw_origin (l : Slot) (i : Nat) (x : BitVec 32) : (l.bw i x).origin = l.origin := rfl
@[simp] theorem Slot.bw_queue (l : Slot) (i : Nat) (x : BitVec 32) : (l.bw i x).queue = l.queue := rfl
@[simp] theorem Slot.bw_demand (l : Slot) (i : Nat) (x : BitVec 32) : (l.bw i x).demand = l.demand := rfl
@[simp] theorem Slot.bw_leaseTile (l : Slot) (i : Nat) (x : BitVec 32) : (l.bw i x).leaseTile = l.leaseTile := rfl
@[simp] theorem Slot.bw_abLease (l : Slot) (i : Nat) (x : BitVec 32) : (l.bw i x).abLease = l.abLease := rfl
@[simp] theorem Slot.bw_wbLease (l : Slot) (i : Nat) (x : BitVec 32) : (l.bw i x).wbLease = l.wbLease := rfl
@[simp] theorem Slot.bw_held (l : Slot) (i : Nat) (x : BitVec 32) : (l.bw i x).held = l.held := rfl
@[simp] theorem Slot.bw_idleAt (l : Slot) (i : Nat) (x : BitVec 32) : (l.bw i x).idleAt = l.idleAt := rfl
@[simp] theorem Slot.bw_gangFor (l : Slot) (i : Nat) (x : BitVec 32) : (l.bw i x).gangFor = l.gangFor := rfl
@[simp] theorem Slot.bw_peerEnd (l : Slot) (i : Nat) (x : BitVec 32) : (l.bw i x).peerEnd = l.peerEnd := rfl
@[simp] theorem Slot.bw_staged (l : Slot) (i : Nat) (x : BitVec 32) : (l.bw i x).staged = l.staged := rfl
@[simp] theorem Slot.bw_passFrom (l : Slot) (i : Nat) (x : BitVec 32) : (l.bw i x).passFrom = l.passFrom := rfl
@[simp] theorem Slot.bw_chained (l : Slot) (i : Nat) (x : BitVec 32) : (l.bw i x).chained = l.chained := rfl
@[simp] theorem Slot.bw_kept (l : Slot) (i : Nat) (x : BitVec 32) : (l.bw i x).kept = l.kept := rfl
@[simp] theorem Slot.bw_late (l : Slot) (i : Nat) (x : BitVec 32) : (l.bw i x).late = l.late := rfl
@[simp] theorem Slot.bw_next (l : Slot) (i : Nat) (x : BitVec 32) : (l.bw i x).next = l.next := rfl
@[simp] theorem Slot.setStatus_phase (l : Slot) (lo len v : Nat) : (l.setStatus lo len v).phase = l.phase := rfl
@[simp] theorem Slot.setStatus_pc (l : Slot) (lo len v : Nat) : (l.setStatus lo len v).pc = l.pc := rfl
@[simp] theorem Slot.setStatus_g (l : Slot) (lo len v : Nat) : (l.setStatus lo len v).g = l.g := rfl
@[simp] theorem Slot.setStatus_v (l : Slot) (lo len v : Nat) : (l.setStatus lo len v).v = l.v := rfl
@[simp] theorem Slot.setStatus_k (l : Slot) (lo len v : Nat) : (l.setStatus lo len v).k = l.k := rfl
@[simp] theorem Slot.setStatus_flags (l : Slot) (lo len v : Nat) : (l.setStatus lo len v).flags = l.flags := rfl
@[simp] theorem Slot.setStatus_taskid (l : Slot) (lo len v : Nat) : (l.setStatus lo len v).taskid = l.taskid := rfl
@[simp] theorem Slot.setStatus_asid (l : Slot) (lo len v : Nat) : (l.setStatus lo len v).asid = l.asid := rfl
@[simp] theorem Slot.setStatus_epc (l : Slot) (lo len v : Nat) : (l.setStatus lo len v).epc = l.epc := rfl
@[simp] theorem Slot.setStatus_ecause (l : Slot) (lo len v : Nat) : (l.setStatus lo len v).ecause = l.ecause := rfl
@[simp] theorem Slot.setStatus_eval (l : Slot) (lo len v : Nat) : (l.setStatus lo len v).eval = l.eval := rfl
@[simp] theorem Slot.setStatus_pidx (l : Slot) (lo len v : Nat) : (l.setStatus lo len v).pidx = l.pidx := rfl
@[simp] theorem Slot.setStatus_estatus (l : Slot) (lo len v : Nat) : (l.setStatus lo len v).estatus = l.estatus := rfl
@[simp] theorem Slot.setStatus_tvec (l : Slot) (lo len v : Nat) : (l.setStatus lo len v).tvec = l.tvec := rfl
@[simp] theorem Slot.setStatus_rngs (l : Slot) (lo len v : Nat) : (l.setStatus lo len v).rngs = l.rngs := rfl
@[simp] theorem Slot.setStatus_quota (l : Slot) (lo len v : Nat) : (l.setStatus lo len v).quota = l.quota := rfl
@[simp] theorem Slot.setStatus_wdog (l : Slot) (lo len v : Nat) : (l.setStatus lo len v).wdog = l.wdog := rfl
@[simp] theorem Slot.setStatus_gmask (l : Slot) (lo len v : Nat) : (l.setStatus lo len v).gmask = l.gmask := rfl
@[simp] theorem Slot.setStatus_gto (l : Slot) (lo len v : Nat) : (l.setStatus lo len v).gto = l.gto := rfl
@[simp] theorem Slot.setStatus_cwm (l : Slot) (lo len v : Nat) : (l.setStatus lo len v).cwm = l.cwm := rfl
@[simp] theorem Slot.setStatus_ebcmin (l : Slot) (lo len v : Nat) : (l.setStatus lo len v).ebcmin = l.ebcmin := rfl
@[simp] theorem Slot.setStatus_q (l : Slot) (lo len v : Nat) : (l.setStatus lo len v).q = l.q := rfl
@[simp] theorem Slot.setStatus_b (l : Slot) (lo len v : Nat) : (l.setStatus lo len v).b = l.b := rfl
@[simp] theorem Slot.setStatus_debt (l : Slot) (lo len v : Nat) : (l.setStatus lo len v).debt = l.debt := rfl
@[simp] theorem Slot.setStatus_units (l : Slot) (lo len v : Nat) : (l.setStatus lo len v).units = l.units := rfl
@[simp] theorem Slot.setStatus_carry (l : Slot) (lo len v : Nat) : (l.setStatus lo len v).carry = l.carry := rfl
@[simp] theorem Slot.setStatus_seg (l : Slot) (lo len v : Nat) : (l.setStatus lo len v).seg = l.seg := rfl
@[simp] theorem Slot.setStatus_startPtr (l : Slot) (lo len v : Nat) : (l.setStatus lo len v).startPtr = l.startPtr := rfl
@[simp] theorem Slot.setStatus_pend (l : Slot) (lo len v : Nat) : (l.setStatus lo len v).pend = l.pend := rfl
@[simp] theorem Slot.setStatus_hints (l : Slot) (lo len v : Nat) : (l.setStatus lo len v).hints = l.hints := rfl
@[simp] theorem Slot.setStatus_runStart (l : Slot) (lo len v : Nat) : (l.setStatus lo len v).runStart = l.runStart := rfl
@[simp] theorem Slot.setStatus_committed (l : Slot) (lo len v : Nat) : (l.setStatus lo len v).committed = l.committed := rfl
@[simp] theorem Slot.setStatus_kill (l : Slot) (lo len v : Nat) : (l.setStatus lo len v).kill = l.kill := rfl
@[simp] theorem Slot.setStatus_wdogDue (l : Slot) (lo len v : Nat) : (l.setStatus lo len v).wdogDue = l.wdogDue := rfl
@[simp] theorem Slot.setStatus_stops (l : Slot) (lo len v : Nat) : (l.setStatus lo len v).stops = l.stops := rfl
@[simp] theorem Slot.setStatus_stepping (l : Slot) (lo len v : Nat) : (l.setStatus lo len v).stepping = l.stepping := rfl
@[simp] theorem Slot.setStatus_prio (l : Slot) (lo len v : Nat) : (l.setStatus lo len v).prio = l.prio := rfl
@[simp] theorem Slot.setStatus_prioRun (l : Slot) (lo len v : Nat) : (l.setStatus lo len v).prioRun = l.prioRun := rfl
@[simp] theorem Slot.setStatus_age (l : Slot) (lo len v : Nat) : (l.setStatus lo len v).age = l.age := rfl
@[simp] theorem Slot.setStatus_arrived (l : Slot) (lo len v : Nat) : (l.setStatus lo len v).arrived = l.arrived := rfl
@[simp] theorem Slot.setStatus_performing (l : Slot) (lo len v : Nat) : (l.setStatus lo len v).performing = l.performing := rfl
@[simp] theorem Slot.setStatus_load (l : Slot) (lo len v : Nat) : (l.setStatus lo len v).load = l.load := rfl
@[simp] theorem Slot.setStatus_reply (l : Slot) (lo len v : Nat) : (l.setStatus lo len v).reply = l.reply := rfl
@[simp] theorem Slot.setStatus_sent (l : Slot) (lo len v : Nat) : (l.setStatus lo len v).sent = l.sent := rfl
@[simp] theorem Slot.setStatus_issued (l : Slot) (lo len v : Nat) : (l.setStatus lo len v).issued = l.issued := rfl
@[simp] theorem Slot.setStatus_origin (l : Slot) (lo len v : Nat) : (l.setStatus lo len v).origin = l.origin := rfl
@[simp] theorem Slot.setStatus_queue (l : Slot) (lo len v : Nat) : (l.setStatus lo len v).queue = l.queue := rfl
@[simp] theorem Slot.setStatus_demand (l : Slot) (lo len v : Nat) : (l.setStatus lo len v).demand = l.demand := rfl
@[simp] theorem Slot.setStatus_leaseTile (l : Slot) (lo len v : Nat) : (l.setStatus lo len v).leaseTile = l.leaseTile := rfl
@[simp] theorem Slot.setStatus_abLease (l : Slot) (lo len v : Nat) : (l.setStatus lo len v).abLease = l.abLease := rfl
@[simp] theorem Slot.setStatus_wbLease (l : Slot) (lo len v : Nat) : (l.setStatus lo len v).wbLease = l.wbLease := rfl
@[simp] theorem Slot.setStatus_held (l : Slot) (lo len v : Nat) : (l.setStatus lo len v).held = l.held := rfl
@[simp] theorem Slot.setStatus_idleAt (l : Slot) (lo len v : Nat) : (l.setStatus lo len v).idleAt = l.idleAt := rfl
@[simp] theorem Slot.setStatus_gangFor (l : Slot) (lo len v : Nat) : (l.setStatus lo len v).gangFor = l.gangFor := rfl
@[simp] theorem Slot.setStatus_peerEnd (l : Slot) (lo len v : Nat) : (l.setStatus lo len v).peerEnd = l.peerEnd := rfl
@[simp] theorem Slot.setStatus_staged (l : Slot) (lo len v : Nat) : (l.setStatus lo len v).staged = l.staged := rfl
@[simp] theorem Slot.setStatus_passFrom (l : Slot) (lo len v : Nat) : (l.setStatus lo len v).passFrom = l.passFrom := rfl
@[simp] theorem Slot.setStatus_chained (l : Slot) (lo len v : Nat) : (l.setStatus lo len v).chained = l.chained := rfl
@[simp] theorem Slot.setStatus_kept (l : Slot) (lo len v : Nat) : (l.setStatus lo len v).kept = l.kept := rfl
@[simp] theorem Slot.setStatus_late (l : Slot) (lo len v : Nat) : (l.setStatus lo len v).late = l.late := rfl
@[simp] theorem Slot.setStatus_next (l : Slot) (lo len v : Nat) : (l.setStatus lo len v).next = l.next := rfl
@[simp] theorem Slot.setVs_phase (l : Slot) : (l.setVs).phase = l.phase := rfl
@[simp] theorem Slot.setVs_pc (l : Slot) : (l.setVs).pc = l.pc := rfl
@[simp] theorem Slot.setVs_g (l : Slot) : (l.setVs).g = l.g := rfl
@[simp] theorem Slot.setVs_v (l : Slot) : (l.setVs).v = l.v := rfl
@[simp] theorem Slot.setVs_k (l : Slot) : (l.setVs).k = l.k := rfl
@[simp] theorem Slot.setVs_flags (l : Slot) : (l.setVs).flags = l.flags := rfl
@[simp] theorem Slot.setVs_taskid (l : Slot) : (l.setVs).taskid = l.taskid := rfl
@[simp] theorem Slot.setVs_asid (l : Slot) : (l.setVs).asid = l.asid := rfl
@[simp] theorem Slot.setVs_epc (l : Slot) : (l.setVs).epc = l.epc := rfl
@[simp] theorem Slot.setVs_ecause (l : Slot) : (l.setVs).ecause = l.ecause := rfl
@[simp] theorem Slot.setVs_eval (l : Slot) : (l.setVs).eval = l.eval := rfl
@[simp] theorem Slot.setVs_pidx (l : Slot) : (l.setVs).pidx = l.pidx := rfl
@[simp] theorem Slot.setVs_estatus (l : Slot) : (l.setVs).estatus = l.estatus := rfl
@[simp] theorem Slot.setVs_tvec (l : Slot) : (l.setVs).tvec = l.tvec := rfl
@[simp] theorem Slot.setVs_rngs (l : Slot) : (l.setVs).rngs = l.rngs := rfl
@[simp] theorem Slot.setVs_quota (l : Slot) : (l.setVs).quota = l.quota := rfl
@[simp] theorem Slot.setVs_wdog (l : Slot) : (l.setVs).wdog = l.wdog := rfl
@[simp] theorem Slot.setVs_gmask (l : Slot) : (l.setVs).gmask = l.gmask := rfl
@[simp] theorem Slot.setVs_gto (l : Slot) : (l.setVs).gto = l.gto := rfl
@[simp] theorem Slot.setVs_cwm (l : Slot) : (l.setVs).cwm = l.cwm := rfl
@[simp] theorem Slot.setVs_ebcmin (l : Slot) : (l.setVs).ebcmin = l.ebcmin := rfl
@[simp] theorem Slot.setVs_q (l : Slot) : (l.setVs).q = l.q := rfl
@[simp] theorem Slot.setVs_b (l : Slot) : (l.setVs).b = l.b := rfl
@[simp] theorem Slot.setVs_debt (l : Slot) : (l.setVs).debt = l.debt := rfl
@[simp] theorem Slot.setVs_units (l : Slot) : (l.setVs).units = l.units := rfl
@[simp] theorem Slot.setVs_carry (l : Slot) : (l.setVs).carry = l.carry := rfl
@[simp] theorem Slot.setVs_seg (l : Slot) : (l.setVs).seg = l.seg := rfl
@[simp] theorem Slot.setVs_startPtr (l : Slot) : (l.setVs).startPtr = l.startPtr := rfl
@[simp] theorem Slot.setVs_pend (l : Slot) : (l.setVs).pend = l.pend := rfl
@[simp] theorem Slot.setVs_hints (l : Slot) : (l.setVs).hints = l.hints := rfl
@[simp] theorem Slot.setVs_runStart (l : Slot) : (l.setVs).runStart = l.runStart := rfl
@[simp] theorem Slot.setVs_committed (l : Slot) : (l.setVs).committed = l.committed := rfl
@[simp] theorem Slot.setVs_kill (l : Slot) : (l.setVs).kill = l.kill := rfl
@[simp] theorem Slot.setVs_wdogDue (l : Slot) : (l.setVs).wdogDue = l.wdogDue := rfl
@[simp] theorem Slot.setVs_stops (l : Slot) : (l.setVs).stops = l.stops := rfl
@[simp] theorem Slot.setVs_stepping (l : Slot) : (l.setVs).stepping = l.stepping := rfl
@[simp] theorem Slot.setVs_prio (l : Slot) : (l.setVs).prio = l.prio := rfl
@[simp] theorem Slot.setVs_prioRun (l : Slot) : (l.setVs).prioRun = l.prioRun := rfl
@[simp] theorem Slot.setVs_age (l : Slot) : (l.setVs).age = l.age := rfl
@[simp] theorem Slot.setVs_arrived (l : Slot) : (l.setVs).arrived = l.arrived := rfl
@[simp] theorem Slot.setVs_performing (l : Slot) : (l.setVs).performing = l.performing := rfl
@[simp] theorem Slot.setVs_load (l : Slot) : (l.setVs).load = l.load := rfl
@[simp] theorem Slot.setVs_reply (l : Slot) : (l.setVs).reply = l.reply := rfl
@[simp] theorem Slot.setVs_sent (l : Slot) : (l.setVs).sent = l.sent := rfl
@[simp] theorem Slot.setVs_issued (l : Slot) : (l.setVs).issued = l.issued := rfl
@[simp] theorem Slot.setVs_origin (l : Slot) : (l.setVs).origin = l.origin := rfl
@[simp] theorem Slot.setVs_queue (l : Slot) : (l.setVs).queue = l.queue := rfl
@[simp] theorem Slot.setVs_demand (l : Slot) : (l.setVs).demand = l.demand := rfl
@[simp] theorem Slot.setVs_leaseTile (l : Slot) : (l.setVs).leaseTile = l.leaseTile := rfl
@[simp] theorem Slot.setVs_abLease (l : Slot) : (l.setVs).abLease = l.abLease := rfl
@[simp] theorem Slot.setVs_wbLease (l : Slot) : (l.setVs).wbLease = l.wbLease := rfl
@[simp] theorem Slot.setVs_held (l : Slot) : (l.setVs).held = l.held := rfl
@[simp] theorem Slot.setVs_idleAt (l : Slot) : (l.setVs).idleAt = l.idleAt := rfl
@[simp] theorem Slot.setVs_gangFor (l : Slot) : (l.setVs).gangFor = l.gangFor := rfl
@[simp] theorem Slot.setVs_peerEnd (l : Slot) : (l.setVs).peerEnd = l.peerEnd := rfl
@[simp] theorem Slot.setVs_staged (l : Slot) : (l.setVs).staged = l.staged := rfl
@[simp] theorem Slot.setVs_passFrom (l : Slot) : (l.setVs).passFrom = l.passFrom := rfl
@[simp] theorem Slot.setVs_chained (l : Slot) : (l.setVs).chained = l.chained := rfl
@[simp] theorem Slot.setVs_kept (l : Slot) : (l.setVs).kept = l.kept := rfl
@[simp] theorem Slot.setVs_late (l : Slot) : (l.setVs).late = l.late := rfl
@[simp] theorem Slot.setVs_next (l : Slot) : (l.setVs).next = l.next := rfl
@[simp] theorem Slot.setTbw_phase (l : Slot) : (l.setTbw).phase = l.phase := rfl
@[simp] theorem Slot.setTbw_pc (l : Slot) : (l.setTbw).pc = l.pc := rfl
@[simp] theorem Slot.setTbw_g (l : Slot) : (l.setTbw).g = l.g := rfl
@[simp] theorem Slot.setTbw_v (l : Slot) : (l.setTbw).v = l.v := rfl
@[simp] theorem Slot.setTbw_k (l : Slot) : (l.setTbw).k = l.k := rfl
@[simp] theorem Slot.setTbw_flags (l : Slot) : (l.setTbw).flags = l.flags := rfl
@[simp] theorem Slot.setTbw_taskid (l : Slot) : (l.setTbw).taskid = l.taskid := rfl
@[simp] theorem Slot.setTbw_asid (l : Slot) : (l.setTbw).asid = l.asid := rfl
@[simp] theorem Slot.setTbw_epc (l : Slot) : (l.setTbw).epc = l.epc := rfl
@[simp] theorem Slot.setTbw_ecause (l : Slot) : (l.setTbw).ecause = l.ecause := rfl
@[simp] theorem Slot.setTbw_eval (l : Slot) : (l.setTbw).eval = l.eval := rfl
@[simp] theorem Slot.setTbw_pidx (l : Slot) : (l.setTbw).pidx = l.pidx := rfl
@[simp] theorem Slot.setTbw_estatus (l : Slot) : (l.setTbw).estatus = l.estatus := rfl
@[simp] theorem Slot.setTbw_tvec (l : Slot) : (l.setTbw).tvec = l.tvec := rfl
@[simp] theorem Slot.setTbw_rngs (l : Slot) : (l.setTbw).rngs = l.rngs := rfl
@[simp] theorem Slot.setTbw_quota (l : Slot) : (l.setTbw).quota = l.quota := rfl
@[simp] theorem Slot.setTbw_wdog (l : Slot) : (l.setTbw).wdog = l.wdog := rfl
@[simp] theorem Slot.setTbw_gmask (l : Slot) : (l.setTbw).gmask = l.gmask := rfl
@[simp] theorem Slot.setTbw_gto (l : Slot) : (l.setTbw).gto = l.gto := rfl
@[simp] theorem Slot.setTbw_cwm (l : Slot) : (l.setTbw).cwm = l.cwm := rfl
@[simp] theorem Slot.setTbw_ebcmin (l : Slot) : (l.setTbw).ebcmin = l.ebcmin := rfl
@[simp] theorem Slot.setTbw_q (l : Slot) : (l.setTbw).q = l.q := rfl
@[simp] theorem Slot.setTbw_b (l : Slot) : (l.setTbw).b = l.b := rfl
@[simp] theorem Slot.setTbw_debt (l : Slot) : (l.setTbw).debt = l.debt := rfl
@[simp] theorem Slot.setTbw_units (l : Slot) : (l.setTbw).units = l.units := rfl
@[simp] theorem Slot.setTbw_carry (l : Slot) : (l.setTbw).carry = l.carry := rfl
@[simp] theorem Slot.setTbw_seg (l : Slot) : (l.setTbw).seg = l.seg := rfl
@[simp] theorem Slot.setTbw_startPtr (l : Slot) : (l.setTbw).startPtr = l.startPtr := rfl
@[simp] theorem Slot.setTbw_pend (l : Slot) : (l.setTbw).pend = l.pend := rfl
@[simp] theorem Slot.setTbw_hints (l : Slot) : (l.setTbw).hints = l.hints := rfl
@[simp] theorem Slot.setTbw_runStart (l : Slot) : (l.setTbw).runStart = l.runStart := rfl
@[simp] theorem Slot.setTbw_committed (l : Slot) : (l.setTbw).committed = l.committed := rfl
@[simp] theorem Slot.setTbw_kill (l : Slot) : (l.setTbw).kill = l.kill := rfl
@[simp] theorem Slot.setTbw_wdogDue (l : Slot) : (l.setTbw).wdogDue = l.wdogDue := rfl
@[simp] theorem Slot.setTbw_stops (l : Slot) : (l.setTbw).stops = l.stops := rfl
@[simp] theorem Slot.setTbw_stepping (l : Slot) : (l.setTbw).stepping = l.stepping := rfl
@[simp] theorem Slot.setTbw_prio (l : Slot) : (l.setTbw).prio = l.prio := rfl
@[simp] theorem Slot.setTbw_prioRun (l : Slot) : (l.setTbw).prioRun = l.prioRun := rfl
@[simp] theorem Slot.setTbw_age (l : Slot) : (l.setTbw).age = l.age := rfl
@[simp] theorem Slot.setTbw_arrived (l : Slot) : (l.setTbw).arrived = l.arrived := rfl
@[simp] theorem Slot.setTbw_performing (l : Slot) : (l.setTbw).performing = l.performing := rfl
@[simp] theorem Slot.setTbw_load (l : Slot) : (l.setTbw).load = l.load := rfl
@[simp] theorem Slot.setTbw_reply (l : Slot) : (l.setTbw).reply = l.reply := rfl
@[simp] theorem Slot.setTbw_sent (l : Slot) : (l.setTbw).sent = l.sent := rfl
@[simp] theorem Slot.setTbw_issued (l : Slot) : (l.setTbw).issued = l.issued := rfl
@[simp] theorem Slot.setTbw_origin (l : Slot) : (l.setTbw).origin = l.origin := rfl
@[simp] theorem Slot.setTbw_queue (l : Slot) : (l.setTbw).queue = l.queue := rfl
@[simp] theorem Slot.setTbw_demand (l : Slot) : (l.setTbw).demand = l.demand := rfl
@[simp] theorem Slot.setTbw_leaseTile (l : Slot) : (l.setTbw).leaseTile = l.leaseTile := rfl
@[simp] theorem Slot.setTbw_abLease (l : Slot) : (l.setTbw).abLease = l.abLease := rfl
@[simp] theorem Slot.setTbw_wbLease (l : Slot) : (l.setTbw).wbLease = l.wbLease := rfl
@[simp] theorem Slot.setTbw_held (l : Slot) : (l.setTbw).held = l.held := rfl
@[simp] theorem Slot.setTbw_idleAt (l : Slot) : (l.setTbw).idleAt = l.idleAt := rfl
@[simp] theorem Slot.setTbw_gangFor (l : Slot) : (l.setTbw).gangFor = l.gangFor := rfl
@[simp] theorem Slot.setTbw_peerEnd (l : Slot) : (l.setTbw).peerEnd = l.peerEnd := rfl
@[simp] theorem Slot.setTbw_staged (l : Slot) : (l.setTbw).staged = l.staged := rfl
@[simp] theorem Slot.setTbw_passFrom (l : Slot) : (l.setTbw).passFrom = l.passFrom := rfl
@[simp] theorem Slot.setTbw_chained (l : Slot) : (l.setTbw).chained = l.chained := rfl
@[simp] theorem Slot.setTbw_kept (l : Slot) : (l.setTbw).kept = l.kept := rfl
@[simp] theorem Slot.setTbw_late (l : Slot) : (l.setTbw).late = l.late := rfl
@[simp] theorem Slot.setTbw_next (l : Slot) : (l.setTbw).next = l.next := rfl
@[simp] theorem Slot.orFlags_phase (l : Slot) (f : FlagSet) : (l.orFlags f).phase = l.phase := rfl
@[simp] theorem Slot.orFlags_pc (l : Slot) (f : FlagSet) : (l.orFlags f).pc = l.pc := rfl
@[simp] theorem Slot.orFlags_g (l : Slot) (f : FlagSet) : (l.orFlags f).g = l.g := rfl
@[simp] theorem Slot.orFlags_v (l : Slot) (f : FlagSet) : (l.orFlags f).v = l.v := rfl
@[simp] theorem Slot.orFlags_k (l : Slot) (f : FlagSet) : (l.orFlags f).k = l.k := rfl
@[simp] theorem Slot.orFlags_status (l : Slot) (f : FlagSet) : (l.orFlags f).status = l.status := rfl
@[simp] theorem Slot.orFlags_taskid (l : Slot) (f : FlagSet) : (l.orFlags f).taskid = l.taskid := rfl
@[simp] theorem Slot.orFlags_asid (l : Slot) (f : FlagSet) : (l.orFlags f).asid = l.asid := rfl
@[simp] theorem Slot.orFlags_epc (l : Slot) (f : FlagSet) : (l.orFlags f).epc = l.epc := rfl
@[simp] theorem Slot.orFlags_ecause (l : Slot) (f : FlagSet) : (l.orFlags f).ecause = l.ecause := rfl
@[simp] theorem Slot.orFlags_eval (l : Slot) (f : FlagSet) : (l.orFlags f).eval = l.eval := rfl
@[simp] theorem Slot.orFlags_pidx (l : Slot) (f : FlagSet) : (l.orFlags f).pidx = l.pidx := rfl
@[simp] theorem Slot.orFlags_estatus (l : Slot) (f : FlagSet) : (l.orFlags f).estatus = l.estatus := rfl
@[simp] theorem Slot.orFlags_tvec (l : Slot) (f : FlagSet) : (l.orFlags f).tvec = l.tvec := rfl
@[simp] theorem Slot.orFlags_rngs (l : Slot) (f : FlagSet) : (l.orFlags f).rngs = l.rngs := rfl
@[simp] theorem Slot.orFlags_quota (l : Slot) (f : FlagSet) : (l.orFlags f).quota = l.quota := rfl
@[simp] theorem Slot.orFlags_wdog (l : Slot) (f : FlagSet) : (l.orFlags f).wdog = l.wdog := rfl
@[simp] theorem Slot.orFlags_gmask (l : Slot) (f : FlagSet) : (l.orFlags f).gmask = l.gmask := rfl
@[simp] theorem Slot.orFlags_gto (l : Slot) (f : FlagSet) : (l.orFlags f).gto = l.gto := rfl
@[simp] theorem Slot.orFlags_cwm (l : Slot) (f : FlagSet) : (l.orFlags f).cwm = l.cwm := rfl
@[simp] theorem Slot.orFlags_ebcmin (l : Slot) (f : FlagSet) : (l.orFlags f).ebcmin = l.ebcmin := rfl
@[simp] theorem Slot.orFlags_q (l : Slot) (f : FlagSet) : (l.orFlags f).q = l.q := rfl
@[simp] theorem Slot.orFlags_b (l : Slot) (f : FlagSet) : (l.orFlags f).b = l.b := rfl
@[simp] theorem Slot.orFlags_debt (l : Slot) (f : FlagSet) : (l.orFlags f).debt = l.debt := rfl
@[simp] theorem Slot.orFlags_units (l : Slot) (f : FlagSet) : (l.orFlags f).units = l.units := rfl
@[simp] theorem Slot.orFlags_carry (l : Slot) (f : FlagSet) : (l.orFlags f).carry = l.carry := rfl
@[simp] theorem Slot.orFlags_seg (l : Slot) (f : FlagSet) : (l.orFlags f).seg = l.seg := rfl
@[simp] theorem Slot.orFlags_startPtr (l : Slot) (f : FlagSet) : (l.orFlags f).startPtr = l.startPtr := rfl
@[simp] theorem Slot.orFlags_pend (l : Slot) (f : FlagSet) : (l.orFlags f).pend = l.pend := rfl
@[simp] theorem Slot.orFlags_hints (l : Slot) (f : FlagSet) : (l.orFlags f).hints = l.hints := rfl
@[simp] theorem Slot.orFlags_runStart (l : Slot) (f : FlagSet) : (l.orFlags f).runStart = l.runStart := rfl
@[simp] theorem Slot.orFlags_committed (l : Slot) (f : FlagSet) : (l.orFlags f).committed = l.committed := rfl
@[simp] theorem Slot.orFlags_kill (l : Slot) (f : FlagSet) : (l.orFlags f).kill = l.kill := rfl
@[simp] theorem Slot.orFlags_wdogDue (l : Slot) (f : FlagSet) : (l.orFlags f).wdogDue = l.wdogDue := rfl
@[simp] theorem Slot.orFlags_stops (l : Slot) (f : FlagSet) : (l.orFlags f).stops = l.stops := rfl
@[simp] theorem Slot.orFlags_stepping (l : Slot) (f : FlagSet) : (l.orFlags f).stepping = l.stepping := rfl
@[simp] theorem Slot.orFlags_prio (l : Slot) (f : FlagSet) : (l.orFlags f).prio = l.prio := rfl
@[simp] theorem Slot.orFlags_prioRun (l : Slot) (f : FlagSet) : (l.orFlags f).prioRun = l.prioRun := rfl
@[simp] theorem Slot.orFlags_age (l : Slot) (f : FlagSet) : (l.orFlags f).age = l.age := rfl
@[simp] theorem Slot.orFlags_arrived (l : Slot) (f : FlagSet) : (l.orFlags f).arrived = l.arrived := rfl
@[simp] theorem Slot.orFlags_performing (l : Slot) (f : FlagSet) : (l.orFlags f).performing = l.performing := rfl
@[simp] theorem Slot.orFlags_load (l : Slot) (f : FlagSet) : (l.orFlags f).load = l.load := rfl
@[simp] theorem Slot.orFlags_reply (l : Slot) (f : FlagSet) : (l.orFlags f).reply = l.reply := rfl
@[simp] theorem Slot.orFlags_sent (l : Slot) (f : FlagSet) : (l.orFlags f).sent = l.sent := rfl
@[simp] theorem Slot.orFlags_issued (l : Slot) (f : FlagSet) : (l.orFlags f).issued = l.issued := rfl
@[simp] theorem Slot.orFlags_origin (l : Slot) (f : FlagSet) : (l.orFlags f).origin = l.origin := rfl
@[simp] theorem Slot.orFlags_queue (l : Slot) (f : FlagSet) : (l.orFlags f).queue = l.queue := rfl
@[simp] theorem Slot.orFlags_demand (l : Slot) (f : FlagSet) : (l.orFlags f).demand = l.demand := rfl
@[simp] theorem Slot.orFlags_leaseTile (l : Slot) (f : FlagSet) : (l.orFlags f).leaseTile = l.leaseTile := rfl
@[simp] theorem Slot.orFlags_abLease (l : Slot) (f : FlagSet) : (l.orFlags f).abLease = l.abLease := rfl
@[simp] theorem Slot.orFlags_wbLease (l : Slot) (f : FlagSet) : (l.orFlags f).wbLease = l.wbLease := rfl
@[simp] theorem Slot.orFlags_held (l : Slot) (f : FlagSet) : (l.orFlags f).held = l.held := rfl
@[simp] theorem Slot.orFlags_idleAt (l : Slot) (f : FlagSet) : (l.orFlags f).idleAt = l.idleAt := rfl
@[simp] theorem Slot.orFlags_gangFor (l : Slot) (f : FlagSet) : (l.orFlags f).gangFor = l.gangFor := rfl
@[simp] theorem Slot.orFlags_peerEnd (l : Slot) (f : FlagSet) : (l.orFlags f).peerEnd = l.peerEnd := rfl
@[simp] theorem Slot.orFlags_staged (l : Slot) (f : FlagSet) : (l.orFlags f).staged = l.staged := rfl
@[simp] theorem Slot.orFlags_passFrom (l : Slot) (f : FlagSet) : (l.orFlags f).passFrom = l.passFrom := rfl
@[simp] theorem Slot.orFlags_chained (l : Slot) (f : FlagSet) : (l.orFlags f).chained = l.chained := rfl
@[simp] theorem Slot.orFlags_kept (l : Slot) (f : FlagSet) : (l.orFlags f).kept = l.kept := rfl
@[simp] theorem Slot.orFlags_late (l : Slot) (f : FlagSet) : (l.orFlags f).late = l.late := rfl
@[simp] theorem Slot.orFlags_next (l : Slot) (f : FlagSet) : (l.orFlags f).next = l.next := rfl
@[simp] theorem Slot.gw_phase (l : Slot) (r : BitVec 4) (x : Word) : (l.gw r x).phase = l.phase := by unfold Slot.gw; split <;> rfl
@[simp] theorem Slot.gw_pc (l : Slot) (r : BitVec 4) (x : Word) : (l.gw r x).pc = l.pc := by unfold Slot.gw; split <;> rfl
@[simp] theorem Slot.gw_v (l : Slot) (r : BitVec 4) (x : Word) : (l.gw r x).v = l.v := by unfold Slot.gw; split <;> rfl
@[simp] theorem Slot.gw_k (l : Slot) (r : BitVec 4) (x : Word) : (l.gw r x).k = l.k := by unfold Slot.gw; split <;> rfl
@[simp] theorem Slot.gw_status (l : Slot) (r : BitVec 4) (x : Word) : (l.gw r x).status = l.status := by unfold Slot.gw; split <;> rfl
@[simp] theorem Slot.gw_flags (l : Slot) (r : BitVec 4) (x : Word) : (l.gw r x).flags = l.flags := by unfold Slot.gw; split <;> rfl
@[simp] theorem Slot.gw_taskid (l : Slot) (r : BitVec 4) (x : Word) : (l.gw r x).taskid = l.taskid := by unfold Slot.gw; split <;> rfl
@[simp] theorem Slot.gw_asid (l : Slot) (r : BitVec 4) (x : Word) : (l.gw r x).asid = l.asid := by unfold Slot.gw; split <;> rfl
@[simp] theorem Slot.gw_epc (l : Slot) (r : BitVec 4) (x : Word) : (l.gw r x).epc = l.epc := by unfold Slot.gw; split <;> rfl
@[simp] theorem Slot.gw_ecause (l : Slot) (r : BitVec 4) (x : Word) : (l.gw r x).ecause = l.ecause := by unfold Slot.gw; split <;> rfl
@[simp] theorem Slot.gw_eval (l : Slot) (r : BitVec 4) (x : Word) : (l.gw r x).eval = l.eval := by unfold Slot.gw; split <;> rfl
@[simp] theorem Slot.gw_pidx (l : Slot) (r : BitVec 4) (x : Word) : (l.gw r x).pidx = l.pidx := by unfold Slot.gw; split <;> rfl
@[simp] theorem Slot.gw_estatus (l : Slot) (r : BitVec 4) (x : Word) : (l.gw r x).estatus = l.estatus := by unfold Slot.gw; split <;> rfl
@[simp] theorem Slot.gw_tvec (l : Slot) (r : BitVec 4) (x : Word) : (l.gw r x).tvec = l.tvec := by unfold Slot.gw; split <;> rfl
@[simp] theorem Slot.gw_rngs (l : Slot) (r : BitVec 4) (x : Word) : (l.gw r x).rngs = l.rngs := by unfold Slot.gw; split <;> rfl
@[simp] theorem Slot.gw_quota (l : Slot) (r : BitVec 4) (x : Word) : (l.gw r x).quota = l.quota := by unfold Slot.gw; split <;> rfl
@[simp] theorem Slot.gw_wdog (l : Slot) (r : BitVec 4) (x : Word) : (l.gw r x).wdog = l.wdog := by unfold Slot.gw; split <;> rfl
@[simp] theorem Slot.gw_gmask (l : Slot) (r : BitVec 4) (x : Word) : (l.gw r x).gmask = l.gmask := by unfold Slot.gw; split <;> rfl
@[simp] theorem Slot.gw_gto (l : Slot) (r : BitVec 4) (x : Word) : (l.gw r x).gto = l.gto := by unfold Slot.gw; split <;> rfl
@[simp] theorem Slot.gw_cwm (l : Slot) (r : BitVec 4) (x : Word) : (l.gw r x).cwm = l.cwm := by unfold Slot.gw; split <;> rfl
@[simp] theorem Slot.gw_ebcmin (l : Slot) (r : BitVec 4) (x : Word) : (l.gw r x).ebcmin = l.ebcmin := by unfold Slot.gw; split <;> rfl
@[simp] theorem Slot.gw_q (l : Slot) (r : BitVec 4) (x : Word) : (l.gw r x).q = l.q := by unfold Slot.gw; split <;> rfl
@[simp] theorem Slot.gw_b (l : Slot) (r : BitVec 4) (x : Word) : (l.gw r x).b = l.b := by unfold Slot.gw; split <;> rfl
@[simp] theorem Slot.gw_debt (l : Slot) (r : BitVec 4) (x : Word) : (l.gw r x).debt = l.debt := by unfold Slot.gw; split <;> rfl
@[simp] theorem Slot.gw_units (l : Slot) (r : BitVec 4) (x : Word) : (l.gw r x).units = l.units := by unfold Slot.gw; split <;> rfl
@[simp] theorem Slot.gw_carry (l : Slot) (r : BitVec 4) (x : Word) : (l.gw r x).carry = l.carry := by unfold Slot.gw; split <;> rfl
@[simp] theorem Slot.gw_seg (l : Slot) (r : BitVec 4) (x : Word) : (l.gw r x).seg = l.seg := by unfold Slot.gw; split <;> rfl
@[simp] theorem Slot.gw_startPtr (l : Slot) (r : BitVec 4) (x : Word) : (l.gw r x).startPtr = l.startPtr := by unfold Slot.gw; split <;> rfl
@[simp] theorem Slot.gw_pend (l : Slot) (r : BitVec 4) (x : Word) : (l.gw r x).pend = l.pend := by unfold Slot.gw; split <;> rfl
@[simp] theorem Slot.gw_hints (l : Slot) (r : BitVec 4) (x : Word) : (l.gw r x).hints = l.hints := by unfold Slot.gw; split <;> rfl
@[simp] theorem Slot.gw_runStart (l : Slot) (r : BitVec 4) (x : Word) : (l.gw r x).runStart = l.runStart := by unfold Slot.gw; split <;> rfl
@[simp] theorem Slot.gw_committed (l : Slot) (r : BitVec 4) (x : Word) : (l.gw r x).committed = l.committed := by unfold Slot.gw; split <;> rfl
@[simp] theorem Slot.gw_kill (l : Slot) (r : BitVec 4) (x : Word) : (l.gw r x).kill = l.kill := by unfold Slot.gw; split <;> rfl
@[simp] theorem Slot.gw_wdogDue (l : Slot) (r : BitVec 4) (x : Word) : (l.gw r x).wdogDue = l.wdogDue := by unfold Slot.gw; split <;> rfl
@[simp] theorem Slot.gw_stops (l : Slot) (r : BitVec 4) (x : Word) : (l.gw r x).stops = l.stops := by unfold Slot.gw; split <;> rfl
@[simp] theorem Slot.gw_stepping (l : Slot) (r : BitVec 4) (x : Word) : (l.gw r x).stepping = l.stepping := by unfold Slot.gw; split <;> rfl
@[simp] theorem Slot.gw_prio (l : Slot) (r : BitVec 4) (x : Word) : (l.gw r x).prio = l.prio := by unfold Slot.gw; split <;> rfl
@[simp] theorem Slot.gw_prioRun (l : Slot) (r : BitVec 4) (x : Word) : (l.gw r x).prioRun = l.prioRun := by unfold Slot.gw; split <;> rfl
@[simp] theorem Slot.gw_age (l : Slot) (r : BitVec 4) (x : Word) : (l.gw r x).age = l.age := by unfold Slot.gw; split <;> rfl
@[simp] theorem Slot.gw_arrived (l : Slot) (r : BitVec 4) (x : Word) : (l.gw r x).arrived = l.arrived := by unfold Slot.gw; split <;> rfl
@[simp] theorem Slot.gw_performing (l : Slot) (r : BitVec 4) (x : Word) : (l.gw r x).performing = l.performing := by unfold Slot.gw; split <;> rfl
@[simp] theorem Slot.gw_load (l : Slot) (r : BitVec 4) (x : Word) : (l.gw r x).load = l.load := by unfold Slot.gw; split <;> rfl
@[simp] theorem Slot.gw_reply (l : Slot) (r : BitVec 4) (x : Word) : (l.gw r x).reply = l.reply := by unfold Slot.gw; split <;> rfl
@[simp] theorem Slot.gw_sent (l : Slot) (r : BitVec 4) (x : Word) : (l.gw r x).sent = l.sent := by unfold Slot.gw; split <;> rfl
@[simp] theorem Slot.gw_issued (l : Slot) (r : BitVec 4) (x : Word) : (l.gw r x).issued = l.issued := by unfold Slot.gw; split <;> rfl
@[simp] theorem Slot.gw_origin (l : Slot) (r : BitVec 4) (x : Word) : (l.gw r x).origin = l.origin := by unfold Slot.gw; split <;> rfl
@[simp] theorem Slot.gw_queue (l : Slot) (r : BitVec 4) (x : Word) : (l.gw r x).queue = l.queue := by unfold Slot.gw; split <;> rfl
@[simp] theorem Slot.gw_demand (l : Slot) (r : BitVec 4) (x : Word) : (l.gw r x).demand = l.demand := by unfold Slot.gw; split <;> rfl
@[simp] theorem Slot.gw_leaseTile (l : Slot) (r : BitVec 4) (x : Word) : (l.gw r x).leaseTile = l.leaseTile := by unfold Slot.gw; split <;> rfl
@[simp] theorem Slot.gw_abLease (l : Slot) (r : BitVec 4) (x : Word) : (l.gw r x).abLease = l.abLease := by unfold Slot.gw; split <;> rfl
@[simp] theorem Slot.gw_wbLease (l : Slot) (r : BitVec 4) (x : Word) : (l.gw r x).wbLease = l.wbLease := by unfold Slot.gw; split <;> rfl
@[simp] theorem Slot.gw_held (l : Slot) (r : BitVec 4) (x : Word) : (l.gw r x).held = l.held := by unfold Slot.gw; split <;> rfl
@[simp] theorem Slot.gw_idleAt (l : Slot) (r : BitVec 4) (x : Word) : (l.gw r x).idleAt = l.idleAt := by unfold Slot.gw; split <;> rfl
@[simp] theorem Slot.gw_gangFor (l : Slot) (r : BitVec 4) (x : Word) : (l.gw r x).gangFor = l.gangFor := by unfold Slot.gw; split <;> rfl
@[simp] theorem Slot.gw_peerEnd (l : Slot) (r : BitVec 4) (x : Word) : (l.gw r x).peerEnd = l.peerEnd := by unfold Slot.gw; split <;> rfl
@[simp] theorem Slot.gw_staged (l : Slot) (r : BitVec 4) (x : Word) : (l.gw r x).staged = l.staged := by unfold Slot.gw; split <;> rfl
@[simp] theorem Slot.gw_passFrom (l : Slot) (r : BitVec 4) (x : Word) : (l.gw r x).passFrom = l.passFrom := by unfold Slot.gw; split <;> rfl
@[simp] theorem Slot.gw_chained (l : Slot) (r : BitVec 4) (x : Word) : (l.gw r x).chained = l.chained := by unfold Slot.gw; split <;> rfl
@[simp] theorem Slot.gw_kept (l : Slot) (r : BitVec 4) (x : Word) : (l.gw r x).kept = l.kept := by unfold Slot.gw; split <;> rfl
@[simp] theorem Slot.gw_late (l : Slot) (r : BitVec 4) (x : Word) : (l.gw r x).late = l.late := by unfold Slot.gw; split <;> rfl
@[simp] theorem Slot.gw_next (l : Slot) (r : BitVec 4) (x : Word) : (l.gw r x).next = l.next := by unfold Slot.gw; split <;> rfl
@[simp] theorem Slot.kw_phase (l : Slot) (k : BitVec 3) (x : BitVec 32) : (l.kw k x).phase = l.phase := by unfold Slot.kw; split <;> rfl
@[simp] theorem Slot.kw_pc (l : Slot) (k : BitVec 3) (x : BitVec 32) : (l.kw k x).pc = l.pc := by unfold Slot.kw; split <;> rfl
@[simp] theorem Slot.kw_g (l : Slot) (k : BitVec 3) (x : BitVec 32) : (l.kw k x).g = l.g := by unfold Slot.kw; split <;> rfl
@[simp] theorem Slot.kw_v (l : Slot) (k : BitVec 3) (x : BitVec 32) : (l.kw k x).v = l.v := by unfold Slot.kw; split <;> rfl
@[simp] theorem Slot.kw_status (l : Slot) (k : BitVec 3) (x : BitVec 32) : (l.kw k x).status = l.status := by unfold Slot.kw; split <;> rfl
@[simp] theorem Slot.kw_flags (l : Slot) (k : BitVec 3) (x : BitVec 32) : (l.kw k x).flags = l.flags := by unfold Slot.kw; split <;> rfl
@[simp] theorem Slot.kw_taskid (l : Slot) (k : BitVec 3) (x : BitVec 32) : (l.kw k x).taskid = l.taskid := by unfold Slot.kw; split <;> rfl
@[simp] theorem Slot.kw_asid (l : Slot) (k : BitVec 3) (x : BitVec 32) : (l.kw k x).asid = l.asid := by unfold Slot.kw; split <;> rfl
@[simp] theorem Slot.kw_epc (l : Slot) (k : BitVec 3) (x : BitVec 32) : (l.kw k x).epc = l.epc := by unfold Slot.kw; split <;> rfl
@[simp] theorem Slot.kw_ecause (l : Slot) (k : BitVec 3) (x : BitVec 32) : (l.kw k x).ecause = l.ecause := by unfold Slot.kw; split <;> rfl
@[simp] theorem Slot.kw_eval (l : Slot) (k : BitVec 3) (x : BitVec 32) : (l.kw k x).eval = l.eval := by unfold Slot.kw; split <;> rfl
@[simp] theorem Slot.kw_pidx (l : Slot) (k : BitVec 3) (x : BitVec 32) : (l.kw k x).pidx = l.pidx := by unfold Slot.kw; split <;> rfl
@[simp] theorem Slot.kw_estatus (l : Slot) (k : BitVec 3) (x : BitVec 32) : (l.kw k x).estatus = l.estatus := by unfold Slot.kw; split <;> rfl
@[simp] theorem Slot.kw_tvec (l : Slot) (k : BitVec 3) (x : BitVec 32) : (l.kw k x).tvec = l.tvec := by unfold Slot.kw; split <;> rfl
@[simp] theorem Slot.kw_rngs (l : Slot) (k : BitVec 3) (x : BitVec 32) : (l.kw k x).rngs = l.rngs := by unfold Slot.kw; split <;> rfl
@[simp] theorem Slot.kw_quota (l : Slot) (k : BitVec 3) (x : BitVec 32) : (l.kw k x).quota = l.quota := by unfold Slot.kw; split <;> rfl
@[simp] theorem Slot.kw_wdog (l : Slot) (k : BitVec 3) (x : BitVec 32) : (l.kw k x).wdog = l.wdog := by unfold Slot.kw; split <;> rfl
@[simp] theorem Slot.kw_gmask (l : Slot) (k : BitVec 3) (x : BitVec 32) : (l.kw k x).gmask = l.gmask := by unfold Slot.kw; split <;> rfl
@[simp] theorem Slot.kw_gto (l : Slot) (k : BitVec 3) (x : BitVec 32) : (l.kw k x).gto = l.gto := by unfold Slot.kw; split <;> rfl
@[simp] theorem Slot.kw_cwm (l : Slot) (k : BitVec 3) (x : BitVec 32) : (l.kw k x).cwm = l.cwm := by unfold Slot.kw; split <;> rfl
@[simp] theorem Slot.kw_ebcmin (l : Slot) (k : BitVec 3) (x : BitVec 32) : (l.kw k x).ebcmin = l.ebcmin := by unfold Slot.kw; split <;> rfl
@[simp] theorem Slot.kw_q (l : Slot) (k : BitVec 3) (x : BitVec 32) : (l.kw k x).q = l.q := by unfold Slot.kw; split <;> rfl
@[simp] theorem Slot.kw_b (l : Slot) (k : BitVec 3) (x : BitVec 32) : (l.kw k x).b = l.b := by unfold Slot.kw; split <;> rfl
@[simp] theorem Slot.kw_debt (l : Slot) (k : BitVec 3) (x : BitVec 32) : (l.kw k x).debt = l.debt := by unfold Slot.kw; split <;> rfl
@[simp] theorem Slot.kw_units (l : Slot) (k : BitVec 3) (x : BitVec 32) : (l.kw k x).units = l.units := by unfold Slot.kw; split <;> rfl
@[simp] theorem Slot.kw_carry (l : Slot) (k : BitVec 3) (x : BitVec 32) : (l.kw k x).carry = l.carry := by unfold Slot.kw; split <;> rfl
@[simp] theorem Slot.kw_seg (l : Slot) (k : BitVec 3) (x : BitVec 32) : (l.kw k x).seg = l.seg := by unfold Slot.kw; split <;> rfl
@[simp] theorem Slot.kw_startPtr (l : Slot) (k : BitVec 3) (x : BitVec 32) : (l.kw k x).startPtr = l.startPtr := by unfold Slot.kw; split <;> rfl
@[simp] theorem Slot.kw_pend (l : Slot) (k : BitVec 3) (x : BitVec 32) : (l.kw k x).pend = l.pend := by unfold Slot.kw; split <;> rfl
@[simp] theorem Slot.kw_hints (l : Slot) (k : BitVec 3) (x : BitVec 32) : (l.kw k x).hints = l.hints := by unfold Slot.kw; split <;> rfl
@[simp] theorem Slot.kw_runStart (l : Slot) (k : BitVec 3) (x : BitVec 32) : (l.kw k x).runStart = l.runStart := by unfold Slot.kw; split <;> rfl
@[simp] theorem Slot.kw_committed (l : Slot) (k : BitVec 3) (x : BitVec 32) : (l.kw k x).committed = l.committed := by unfold Slot.kw; split <;> rfl
@[simp] theorem Slot.kw_kill (l : Slot) (k : BitVec 3) (x : BitVec 32) : (l.kw k x).kill = l.kill := by unfold Slot.kw; split <;> rfl
@[simp] theorem Slot.kw_wdogDue (l : Slot) (k : BitVec 3) (x : BitVec 32) : (l.kw k x).wdogDue = l.wdogDue := by unfold Slot.kw; split <;> rfl
@[simp] theorem Slot.kw_stops (l : Slot) (k : BitVec 3) (x : BitVec 32) : (l.kw k x).stops = l.stops := by unfold Slot.kw; split <;> rfl
@[simp] theorem Slot.kw_stepping (l : Slot) (k : BitVec 3) (x : BitVec 32) : (l.kw k x).stepping = l.stepping := by unfold Slot.kw; split <;> rfl
@[simp] theorem Slot.kw_prio (l : Slot) (k : BitVec 3) (x : BitVec 32) : (l.kw k x).prio = l.prio := by unfold Slot.kw; split <;> rfl
@[simp] theorem Slot.kw_prioRun (l : Slot) (k : BitVec 3) (x : BitVec 32) : (l.kw k x).prioRun = l.prioRun := by unfold Slot.kw; split <;> rfl
@[simp] theorem Slot.kw_age (l : Slot) (k : BitVec 3) (x : BitVec 32) : (l.kw k x).age = l.age := by unfold Slot.kw; split <;> rfl
@[simp] theorem Slot.kw_arrived (l : Slot) (k : BitVec 3) (x : BitVec 32) : (l.kw k x).arrived = l.arrived := by unfold Slot.kw; split <;> rfl
@[simp] theorem Slot.kw_performing (l : Slot) (k : BitVec 3) (x : BitVec 32) : (l.kw k x).performing = l.performing := by unfold Slot.kw; split <;> rfl
@[simp] theorem Slot.kw_load (l : Slot) (k : BitVec 3) (x : BitVec 32) : (l.kw k x).load = l.load := by unfold Slot.kw; split <;> rfl
@[simp] theorem Slot.kw_reply (l : Slot) (k : BitVec 3) (x : BitVec 32) : (l.kw k x).reply = l.reply := by unfold Slot.kw; split <;> rfl
@[simp] theorem Slot.kw_sent (l : Slot) (k : BitVec 3) (x : BitVec 32) : (l.kw k x).sent = l.sent := by unfold Slot.kw; split <;> rfl
@[simp] theorem Slot.kw_issued (l : Slot) (k : BitVec 3) (x : BitVec 32) : (l.kw k x).issued = l.issued := by unfold Slot.kw; split <;> rfl
@[simp] theorem Slot.kw_origin (l : Slot) (k : BitVec 3) (x : BitVec 32) : (l.kw k x).origin = l.origin := by unfold Slot.kw; split <;> rfl
@[simp] theorem Slot.kw_queue (l : Slot) (k : BitVec 3) (x : BitVec 32) : (l.kw k x).queue = l.queue := by unfold Slot.kw; split <;> rfl
@[simp] theorem Slot.kw_demand (l : Slot) (k : BitVec 3) (x : BitVec 32) : (l.kw k x).demand = l.demand := by unfold Slot.kw; split <;> rfl
@[simp] theorem Slot.kw_leaseTile (l : Slot) (k : BitVec 3) (x : BitVec 32) : (l.kw k x).leaseTile = l.leaseTile := by unfold Slot.kw; split <;> rfl
@[simp] theorem Slot.kw_abLease (l : Slot) (k : BitVec 3) (x : BitVec 32) : (l.kw k x).abLease = l.abLease := by unfold Slot.kw; split <;> rfl
@[simp] theorem Slot.kw_wbLease (l : Slot) (k : BitVec 3) (x : BitVec 32) : (l.kw k x).wbLease = l.wbLease := by unfold Slot.kw; split <;> rfl
@[simp] theorem Slot.kw_held (l : Slot) (k : BitVec 3) (x : BitVec 32) : (l.kw k x).held = l.held := by unfold Slot.kw; split <;> rfl
@[simp] theorem Slot.kw_idleAt (l : Slot) (k : BitVec 3) (x : BitVec 32) : (l.kw k x).idleAt = l.idleAt := by unfold Slot.kw; split <;> rfl
@[simp] theorem Slot.kw_gangFor (l : Slot) (k : BitVec 3) (x : BitVec 32) : (l.kw k x).gangFor = l.gangFor := by unfold Slot.kw; split <;> rfl
@[simp] theorem Slot.kw_peerEnd (l : Slot) (k : BitVec 3) (x : BitVec 32) : (l.kw k x).peerEnd = l.peerEnd := by unfold Slot.kw; split <;> rfl
@[simp] theorem Slot.kw_staged (l : Slot) (k : BitVec 3) (x : BitVec 32) : (l.kw k x).staged = l.staged := by unfold Slot.kw; split <;> rfl
@[simp] theorem Slot.kw_passFrom (l : Slot) (k : BitVec 3) (x : BitVec 32) : (l.kw k x).passFrom = l.passFrom := by unfold Slot.kw; split <;> rfl
@[simp] theorem Slot.kw_chained (l : Slot) (k : BitVec 3) (x : BitVec 32) : (l.kw k x).chained = l.chained := by unfold Slot.kw; split <;> rfl
@[simp] theorem Slot.kw_kept (l : Slot) (k : BitVec 3) (x : BitVec 32) : (l.kw k x).kept = l.kept := by unfold Slot.kw; split <;> rfl
@[simp] theorem Slot.kw_late (l : Slot) (k : BitVec 3) (x : BitVec 32) : (l.kw k x).late = l.late := by unfold Slot.kw; split <;> rfl
@[simp] theorem Slot.kw_next (l : Slot) (k : BitVec 3) (x : BitVec 32) : (l.kw k x).next = l.next := by unfold Slot.kw; split <;> rfl

/-! Registers of a slot. -/

@[simp] theorem Slot.gr_zero (l : Slot) : l.gr 0 = 0 := rfl
theorem Slot.gr_gw (l : Slot) (r j : BitVec 4) (x : Word) : (l.gw r x).gr j = if r = j ∧ r ≠ 0 then x else l.gr j := by
  by_cases h : r = 0
  · have e : l.gw r x = l := if_pos h
    rw [e, if_neg (by simp [h])]
  · have e : l.gw r x = { l with g := fset 0 r.toNat x l.g } := if_neg h
    rw [e]
    unfold Slot.gr
    by_cases c : r = j
    · subst c
      rw [if_neg h, if_pos ⟨rfl, h⟩, fget_fset_same]
    · rw [fget_fset_other _ _ _ _ _ (fun q => c (BitVec.eq_of_toNat_eq q))]
      simp [c]
theorem Slot.kr_kw (l : Slot) (r j : BitVec 3) (x : BitVec 32) : (l.kw r x).kr j = if r = j ∧ r ≠ 0 then x else l.kr j := by
  by_cases h : r = 0
  · have e : l.kw r x = l := if_pos h
    rw [e, if_neg (by simp [h])]
  · have e : l.kw r x = { l with k := fset 0 r.toNat x l.k } := if_neg h
    rw [e]
    unfold Slot.kr
    by_cases c : r = j
    · subst c
      rw [if_neg h, if_pos ⟨rfl, h⟩, fget_fset_same]
    · rw [fget_fset_other _ _ _ _ _ (fun q => c (BitVec.eq_of_toNat_eq q))]
      simp [c]
theorem Slot.vr_vw (l : Slot) (i j : Nat) (x : VReg) : (l.vw i x).vr j = if i = j then x else l.vr j := fget_fset _ _ _ _ _
theorem Slot.qr_qw (l : Slot) (i j : Nat) (x : BitVec 128) : (l.qw i x).qr j = if i = j then x else l.qr j := fget_fset _ _ _ _ _
theorem Slot.br_bw (l : Slot) (i j : Nat) (x : BitVec 32) : (l.bw i x).br j = if i = j then x else l.br j := fget_fset _ _ _ _ _

@[simp] theorem Slot.gr_vw (l : Slot) (i : Nat) (x : VReg) (j : BitVec 4) : (l.vw i x).gr j = l.gr j := by simp only [Slot.gr, Slot.vw_g]
@[simp] theorem Slot.kr_vw (l : Slot) (i : Nat) (x : VReg) (j : BitVec 3) : (l.vw i x).kr j = l.kr j := by simp only [Slot.kr, Slot.vw_k]
@[simp] theorem Slot.qr_vw (l : Slot) (i : Nat) (x : VReg) (j : Nat) : (l.vw i x).qr j = l.qr j := by simp only [Slot.qr, Slot.vw_q]
@[simp] theorem Slot.br_vw (l : Slot) (i : Nat) (x : VReg) (j : Nat) : (l.vw i x).br j = l.br j := by simp only [Slot.br, Slot.vw_b]
@[simp] theorem Slot.gr_qw (l : Slot) (i : Nat) (x : BitVec 128) (j : BitVec 4) : (l.qw i x).gr j = l.gr j := by simp only [Slot.gr, Slot.qw_g]
@[simp] theorem Slot.vr_qw (l : Slot) (i : Nat) (x : BitVec 128) (j : Nat) : (l.qw i x).vr j = l.vr j := by simp only [Slot.vr, Slot.qw_v]
@[simp] theorem Slot.kr_qw (l : Slot) (i : Nat) (x : BitVec 128) (j : BitVec 3) : (l.qw i x).kr j = l.kr j := by simp only [Slot.kr, Slot.qw_k]
@[simp] theorem Slot.br_qw (l : Slot) (i : Nat) (x : BitVec 128) (j : Nat) : (l.qw i x).br j = l.br j := by simp only [Slot.br, Slot.qw_b]
@[simp] theorem Slot.gr_bw (l : Slot) (i : Nat) (x : BitVec 32) (j : BitVec 4) : (l.bw i x).gr j = l.gr j := by simp only [Slot.gr, Slot.bw_g]
@[simp] theorem Slot.vr_bw (l : Slot) (i : Nat) (x : BitVec 32) (j : Nat) : (l.bw i x).vr j = l.vr j := by simp only [Slot.vr, Slot.bw_v]
@[simp] theorem Slot.kr_bw (l : Slot) (i : Nat) (x : BitVec 32) (j : BitVec 3) : (l.bw i x).kr j = l.kr j := by simp only [Slot.kr, Slot.bw_k]
@[simp] theorem Slot.qr_bw (l : Slot) (i : Nat) (x : BitVec 32) (j : Nat) : (l.bw i x).qr j = l.qr j := by simp only [Slot.qr, Slot.bw_q]
@[simp] theorem Slot.gr_setStatus (l : Slot) (lo len v : Nat) (j : BitVec 4) : (l.setStatus lo len v).gr j = l.gr j := by simp only [Slot.gr, Slot.setStatus_g]
@[simp] theorem Slot.vr_setStatus (l : Slot) (lo len v : Nat) (j : Nat) : (l.setStatus lo len v).vr j = l.vr j := by simp only [Slot.vr, Slot.setStatus_v]
@[simp] theorem Slot.kr_setStatus (l : Slot) (lo len v : Nat) (j : BitVec 3) : (l.setStatus lo len v).kr j = l.kr j := by simp only [Slot.kr, Slot.setStatus_k]
@[simp] theorem Slot.qr_setStatus (l : Slot) (lo len v : Nat) (j : Nat) : (l.setStatus lo len v).qr j = l.qr j := by simp only [Slot.qr, Slot.setStatus_q]
@[simp] theorem Slot.br_setStatus (l : Slot) (lo len v : Nat) (j : Nat) : (l.setStatus lo len v).br j = l.br j := by simp only [Slot.br, Slot.setStatus_b]
@[simp] theorem Slot.gr_setVs (l : Slot) (j : BitVec 4) : (l.setVs).gr j = l.gr j := by simp only [Slot.gr, Slot.setVs_g]
@[simp] theorem Slot.vr_setVs (l : Slot) (j : Nat) : (l.setVs).vr j = l.vr j := by simp only [Slot.vr, Slot.setVs_v]
@[simp] theorem Slot.kr_setVs (l : Slot) (j : BitVec 3) : (l.setVs).kr j = l.kr j := by simp only [Slot.kr, Slot.setVs_k]
@[simp] theorem Slot.qr_setVs (l : Slot) (j : Nat) : (l.setVs).qr j = l.qr j := by simp only [Slot.qr, Slot.setVs_q]
@[simp] theorem Slot.br_setVs (l : Slot) (j : Nat) : (l.setVs).br j = l.br j := by simp only [Slot.br, Slot.setVs_b]
@[simp] theorem Slot.gr_setTbw (l : Slot) (j : BitVec 4) : (l.setTbw).gr j = l.gr j := by simp only [Slot.gr, Slot.setTbw_g]
@[simp] theorem Slot.vr_setTbw (l : Slot) (j : Nat) : (l.setTbw).vr j = l.vr j := by simp only [Slot.vr, Slot.setTbw_v]
@[simp] theorem Slot.kr_setTbw (l : Slot) (j : BitVec 3) : (l.setTbw).kr j = l.kr j := by simp only [Slot.kr, Slot.setTbw_k]
@[simp] theorem Slot.qr_setTbw (l : Slot) (j : Nat) : (l.setTbw).qr j = l.qr j := by simp only [Slot.qr, Slot.setTbw_q]
@[simp] theorem Slot.br_setTbw (l : Slot) (j : Nat) : (l.setTbw).br j = l.br j := by simp only [Slot.br, Slot.setTbw_b]
@[simp] theorem Slot.gr_orFlags (l : Slot) (f : FlagSet) (j : BitVec 4) : (l.orFlags f).gr j = l.gr j := by simp only [Slot.gr, Slot.orFlags_g]
@[simp] theorem Slot.vr_orFlags (l : Slot) (f : FlagSet) (j : Nat) : (l.orFlags f).vr j = l.vr j := by simp only [Slot.vr, Slot.orFlags_v]
@[simp] theorem Slot.kr_orFlags (l : Slot) (f : FlagSet) (j : BitVec 3) : (l.orFlags f).kr j = l.kr j := by simp only [Slot.kr, Slot.orFlags_k]
@[simp] theorem Slot.qr_orFlags (l : Slot) (f : FlagSet) (j : Nat) : (l.orFlags f).qr j = l.qr j := by simp only [Slot.qr, Slot.orFlags_q]
@[simp] theorem Slot.br_orFlags (l : Slot) (f : FlagSet) (j : Nat) : (l.orFlags f).br j = l.br j := by simp only [Slot.br, Slot.orFlags_b]
@[simp] theorem Slot.vr_gw (l : Slot) (r : BitVec 4) (x : Word) (j : Nat) : (l.gw r x).vr j = l.vr j := by simp only [Slot.vr, Slot.gw_v]
@[simp] theorem Slot.kr_gw (l : Slot) (r : BitVec 4) (x : Word) (j : BitVec 3) : (l.gw r x).kr j = l.kr j := by simp only [Slot.kr, Slot.gw_k]
@[simp] theorem Slot.qr_gw (l : Slot) (r : BitVec 4) (x : Word) (j : Nat) : (l.gw r x).qr j = l.qr j := by simp only [Slot.qr, Slot.gw_q]
@[simp] theorem Slot.br_gw (l : Slot) (r : BitVec 4) (x : Word) (j : Nat) : (l.gw r x).br j = l.br j := by simp only [Slot.br, Slot.gw_b]
@[simp] theorem Slot.gr_kw (l : Slot) (k : BitVec 3) (x : BitVec 32) (j : BitVec 4) : (l.kw k x).gr j = l.gr j := by simp only [Slot.gr, Slot.kw_g]
@[simp] theorem Slot.vr_kw (l : Slot) (k : BitVec 3) (x : BitVec 32) (j : Nat) : (l.kw k x).vr j = l.vr j := by simp only [Slot.vr, Slot.kw_v]
@[simp] theorem Slot.qr_kw (l : Slot) (k : BitVec 3) (x : BitVec 32) (j : Nat) : (l.kw k x).qr j = l.qr j := by simp only [Slot.qr, Slot.kw_q]
@[simp] theorem Slot.br_kw (l : Slot) (k : BitVec 3) (x : BitVec 32) (j : Nat) : (l.kw k x).br j = l.br j := by simp only [Slot.br, Slot.kw_b]

end Sys2Proof.Machine
end

