-- ==== Sys2Proof/Laws/Ops.lean ====
section
/-! SUPPORT. What the shared operations of Machine/Ops.lean can do: one lemma each. Retiring changes the pc and what an instruction in
progress keeps, and nothing else that a claim speaks of. -/

namespace Sys2Proof.Machine

/-! Charging an issue. -/

@[simp] theorem State.chargeQueue_steps (s : State) (q : Option Nat) (n : Nat) : (s.chargeQueue q n).steps = s.steps := by cases q <;> rfl
@[simp] theorem State.chargeQueue_agenda (s : State) (q : Option Nat) (n : Nat) : (s.chargeQueue q n).agenda = s.agenda := by cases q <;> rfl
@[simp] theorem State.chargeQueue_cur (s : State) (q : Option Nat) (n : Nat) : (s.chargeQueue q n).cur = s.cur := by cases q <;> rfl
@[simp] theorem State.chargeQueue_time (s : State) (q : Option Nat) (n : Nat) : (s.chargeQueue q n).time = s.time := by cases q <;> rfl
@[simp] theorem State.chargeQueue_cycles (s : State) (q : Option Nat) (n : Nat) : (s.chargeQueue q n).cycles = s.cycles := by cases q <;> rfl
@[simp] theorem State.chargeQueue_mem (s : State) (q : Option Nat) (n : Nat) : (s.chargeQueue q n).mem = s.mem := by cases q <;> rfl
@[simp] theorem State.chargeQueue_slots (s : State) (q : Option Nat) (n : Nat) : (s.chargeQueue q n).slots = s.slots := by cases q <;> rfl
@[simp] theorem State.chargeQueue_tiles (s : State) (q : Option Nat) (n : Nat) : (s.chargeQueue q n).tiles = s.tiles := by cases q <;> rfl
@[simp] theorem State.chargeQueue_lstalls (s : State) (q : Option Nat) (n : Nat) : (s.chargeQueue q n).lstalls = s.lstalls := by cases q <;> rfl
@[simp] theorem State.chargeQueue_pstalls (s : State) (q : Option Nat) (n : Nat) : (s.chargeQueue q n).pstalls = s.pstalls := by cases q <;> rfl
@[simp] theorem State.chargeQueue_cells (s : State) (q : Option Nat) (n : Nat) : (s.chargeQueue q n).cells = s.cells := by cases q <;> rfl
@[simp] theorem State.chargeQueue_arcades (s : State) (q : Option Nat) (n : Nat) : (s.chargeQueue q n).arcades = s.arcades := by cases q <;> rfl
@[simp] theorem State.chargeQueue_quads (s : State) (q : Option Nat) (n : Nat) : (s.chargeQueue q n).quads = s.quads := by cases q <;> rfl
@[simp] theorem State.chargeQueue_parts (s : State) (q : Option Nat) (n : Nat) : (s.chargeQueue q n).parts = s.parts := by cases q <;> rfl
@[simp] theorem State.chargeQueue_nodes (s : State) (q : Option Nat) (n : Nat) : (s.chargeQueue q n).nodes = s.nodes := by cases q <;> rfl
@[simp] theorem State.chargeQueue_net (s : State) (q : Option Nat) (n : Nat) : (s.chargeQueue q n).net = s.net := by cases q <;> rfl
@[simp] theorem State.chargeQueue_refusals (s : State) (q : Option Nat) (n : Nat) : (s.chargeQueue q n).refusals = s.refusals := by cases q <;> rfl
@[simp] theorem State.chargeQueue_bankops (s : State) (q : Option Nat) (n : Nat) : (s.chargeQueue q n).bankops = s.bankops := by cases q <;> rfl
@[simp] theorem State.chargeQueue_dirty (s : State) (q : Option Nat) (n : Nat) : (s.chargeQueue q n).dirty = s.dirty := by cases q <;> rfl
@[simp] theorem State.chargeQueue_releases (s : State) (q : Option Nat) (n : Nat) : (s.chargeQueue q n).releases = s.releases := by cases q <;> rfl
@[simp] theorem State.chargeQueue_commits (s : State) (q : Option Nat) (n : Nat) : (s.chargeQueue q n).commits = s.commits := by cases q <;> rfl
@[simp] theorem State.chargeQueue_poison (s : State) (q : Option Nat) (n : Nat) : (s.chargeQueue q n).poison = s.poison := by cases q <;> rfl
@[simp] theorem State.chargeQueue_lost (s : State) (q : Option Nat) (n : Nat) : (s.chargeQueue q n).lost = s.lost := by cases q <;> rfl
@[simp] theorem State.chargeQueue_place (s : State) (q : Option Nat) (n : Nat) : (s.chargeQueue q n).place = s.place := by cases q <;> rfl
@[simp] theorem State.chargeQueue_rmap (s : State) (q : Option Nat) (n : Nat) : (s.chargeQueue q n).rmap = s.rmap := by cases q <;> rfl
@[simp] theorem State.chargeQueue_tables (s : State) (q : Option Nat) (n : Nat) : (s.chargeQueue q n).tables = s.tables := by cases q <;> rfl
@[simp] theorem State.chargeQueue_tx (s : State) (q : Option Nat) (n : Nat) : (s.chargeQueue q n).tx = s.tx := by cases q <;> rfl
@[simp] theorem State.chargeQueue_rx (s : State) (q : Option Nat) (n : Nat) : (s.chargeQueue q n).rx = s.rx := by cases q <;> rfl
@[simp] theorem State.chargeQueue_bundles (s : State) (q : Option Nat) (n : Nat) : (s.chargeQueue q n).bundles = s.bundles := by cases q <;> rfl
@[simp] theorem State.chargeQueue_gone (s : State) (q : Option Nat) (n : Nat) : (s.chargeQueue q n).gone = s.gone := by cases q <;> rfl
@[simp] theorem State.chargeQueue_refl (s : State) (q : Option Nat) (n : Nat) : (s.chargeQueue q n).refl = s.refl := by cases q <;> rfl
@[simp] theorem State.chargeQueue_ended (s : State) (q : Option Nat) (n : Nat) : (s.chargeQueue q n).ended = s.ended := by cases q <;> rfl
@[simp] theorem State.chargeQueue_msix (s : State) (q : Option Nat) (n : Nat) : (s.chargeQueue q n).msix = s.msix := by cases q <;> rfl
@[simp] theorem State.chargeQueue_dev (s : State) (q : Option Nat) (n : Nat) : (s.chargeQueue q n).dev = s.dev := by cases q <;> rfl
@[simp] theorem State.chargeQueue_cut (s : State) (q : Option Nat) (n : Nat) : (s.chargeQueue q n).cut = s.cut := by cases q <;> rfl
@[simp] theorem State.chargeQueue_held (s : State) (q : Option Nat) (n : Nat) : (s.chargeQueue q n).held = s.held := by cases q <;> rfl
@[simp] theorem State.chargeQueue_l1 (s : State) (q : Option Nat) (n : Nat) : (s.chargeQueue q n).l1 = s.l1 := by cases q <;> rfl
@[simp] theorem State.chargeQueue_caches (s : State) (q : Option Nat) (n : Nat) : (s.chargeQueue q n).caches = s.caches := by cases q <;> rfl
@[simp] theorem State.chargeQueue_overflow (s : State) (q : Option Nat) (n : Nat) : (s.chargeQueue q n).overflow = s.overflow := by cases q <;> rfl
@[simp] theorem State.chargeQueue_misses (s : State) (q : Option Nat) (n : Nat) : (s.chargeQueue q n).misses = s.misses := by cases q <;> rfl
@[simp] theorem State.countIssue_steps (s : State) (k : Nat) : (s.countIssue k).steps = s.steps := by simp [State.countIssue]
@[simp] theorem State.retireTo_steps (s : State) (pc : Word) : (s.retireTo pc).steps = s.steps := by simp [State.retireTo]
@[simp] theorem State.countIssue_agenda (s : State) (k : Nat) : (s.countIssue k).agenda = s.agenda := by simp [State.countIssue]
@[simp] theorem State.retireTo_agenda (s : State) (pc : Word) : (s.retireTo pc).agenda = s.agenda := by simp [State.retireTo]
@[simp] theorem State.countIssue_cur (s : State) (k : Nat) : (s.countIssue k).cur = s.cur := by simp [State.countIssue]
@[simp] theorem State.retireTo_cur (s : State) (pc : Word) : (s.retireTo pc).cur = s.cur := by simp [State.retireTo]
@[simp] theorem State.countIssue_time (s : State) (k : Nat) : (s.countIssue k).time = s.time := by simp [State.countIssue]
@[simp] theorem State.retireTo_time (s : State) (pc : Word) : (s.retireTo pc).time = s.time := by simp [State.retireTo]
@[simp] theorem State.countIssue_cycles (s : State) (k : Nat) : (s.countIssue k).cycles = s.cycles := by simp [State.countIssue]
@[simp] theorem State.retireTo_cycles (s : State) (pc : Word) : (s.retireTo pc).cycles = s.cycles := by simp [State.retireTo]
@[simp] theorem State.countIssue_mem (s : State) (k : Nat) : (s.countIssue k).mem = s.mem := by simp [State.countIssue]
@[simp] theorem State.retireTo_mem (s : State) (pc : Word) : (s.retireTo pc).mem = s.mem := by simp [State.retireTo]
@[simp] theorem State.countIssue_tiles (s : State) (k : Nat) : (s.countIssue k).tiles = s.tiles := by simp [State.countIssue]
@[simp] theorem State.retireTo_tiles (s : State) (pc : Word) : (s.retireTo pc).tiles = s.tiles := by simp [State.retireTo]
@[simp] theorem State.countIssue_lstalls (s : State) (k : Nat) : (s.countIssue k).lstalls = s.lstalls := by simp [State.countIssue]
@[simp] theorem State.retireTo_lstalls (s : State) (pc : Word) : (s.retireTo pc).lstalls = s.lstalls := by simp [State.retireTo]
@[simp] theorem State.countIssue_pstalls (s : State) (k : Nat) : (s.countIssue k).pstalls = s.pstalls := by simp [State.countIssue]
@[simp] theorem State.retireTo_pstalls (s : State) (pc : Word) : (s.retireTo pc).pstalls = s.pstalls := by simp [State.retireTo]
@[simp] theorem State.countIssue_cells (s : State) (k : Nat) : (s.countIssue k).cells = s.cells := by simp [State.countIssue]
@[simp] theorem State.retireTo_cells (s : State) (pc : Word) : (s.retireTo pc).cells = s.cells := by simp [State.retireTo]
@[simp] theorem State.countIssue_arcades (s : State) (k : Nat) : (s.countIssue k).arcades = s.arcades := by simp [State.countIssue]
@[simp] theorem State.retireTo_arcades (s : State) (pc : Word) : (s.retireTo pc).arcades = s.arcades := by simp [State.retireTo]
@[simp] theorem State.countIssue_quads (s : State) (k : Nat) : (s.countIssue k).quads = s.quads := by simp [State.countIssue]
@[simp] theorem State.retireTo_quads (s : State) (pc : Word) : (s.retireTo pc).quads = s.quads := by simp [State.retireTo]
@[simp] theorem State.countIssue_parts (s : State) (k : Nat) : (s.countIssue k).parts = s.parts := by simp [State.countIssue]
@[simp] theorem State.retireTo_parts (s : State) (pc : Word) : (s.retireTo pc).parts = s.parts := by simp [State.retireTo]
@[simp] theorem State.countIssue_nodes (s : State) (k : Nat) : (s.countIssue k).nodes = s.nodes := by simp [State.countIssue]
@[simp] theorem State.retireTo_nodes (s : State) (pc : Word) : (s.retireTo pc).nodes = s.nodes := by simp [State.retireTo]
@[simp] theorem State.countIssue_net (s : State) (k : Nat) : (s.countIssue k).net = s.net := by simp [State.countIssue]
@[simp] theorem State.retireTo_net (s : State) (pc : Word) : (s.retireTo pc).net = s.net := by simp [State.retireTo]
@[simp] theorem State.countIssue_refusals (s : State) (k : Nat) : (s.countIssue k).refusals = s.refusals := by simp [State.countIssue]
@[simp] theorem State.retireTo_refusals (s : State) (pc : Word) : (s.retireTo pc).refusals = s.refusals := by simp [State.retireTo]
@[simp] theorem State.countIssue_bankops (s : State) (k : Nat) : (s.countIssue k).bankops = s.bankops := by simp [State.countIssue]
@[simp] theorem State.retireTo_bankops (s : State) (pc : Word) : (s.retireTo pc).bankops = s.bankops := by simp [State.retireTo]
@[simp] theorem State.countIssue_dirty (s : State) (k : Nat) : (s.countIssue k).dirty = s.dirty := by simp [State.countIssue]
@[simp] theorem State.retireTo_dirty (s : State) (pc : Word) : (s.retireTo pc).dirty = s.dirty := by simp [State.retireTo]
@[simp] theorem State.countIssue_releases (s : State) (k : Nat) : (s.countIssue k).releases = s.releases := by simp [State.countIssue]
@[simp] theorem State.retireTo_releases (s : State) (pc : Word) : (s.retireTo pc).releases = s.releases := by simp [State.retireTo]
@[simp] theorem State.countIssue_commits (s : State) (k : Nat) : (s.countIssue k).commits = s.commits := by simp [State.countIssue]
@[simp] theorem State.retireTo_commits (s : State) (pc : Word) : (s.retireTo pc).commits = s.commits := by simp [State.retireTo]
@[simp] theorem State.countIssue_poison (s : State) (k : Nat) : (s.countIssue k).poison = s.poison := by simp [State.countIssue]
@[simp] theorem State.retireTo_poison (s : State) (pc : Word) : (s.retireTo pc).poison = s.poison := by simp [State.retireTo]
@[simp] theorem State.countIssue_lost (s : State) (k : Nat) : (s.countIssue k).lost = s.lost := by simp [State.countIssue]
@[simp] theorem State.retireTo_lost (s : State) (pc : Word) : (s.retireTo pc).lost = s.lost := by simp [State.retireTo]
@[simp] theorem State.countIssue_place (s : State) (k : Nat) : (s.countIssue k).place = s.place := by simp [State.countIssue]
@[simp] theorem State.retireTo_place (s : State) (pc : Word) : (s.retireTo pc).place = s.place := by simp [State.retireTo]
@[simp] theorem State.countIssue_rmap (s : State) (k : Nat) : (s.countIssue k).rmap = s.rmap := by simp [State.countIssue]
@[simp] theorem State.retireTo_rmap (s : State) (pc : Word) : (s.retireTo pc).rmap = s.rmap := by simp [State.retireTo]
@[simp] theorem State.countIssue_tables (s : State) (k : Nat) : (s.countIssue k).tables = s.tables := by simp [State.countIssue]
@[simp] theorem State.retireTo_tables (s : State) (pc : Word) : (s.retireTo pc).tables = s.tables := by simp [State.retireTo]
@[simp] theorem State.countIssue_tx (s : State) (k : Nat) : (s.countIssue k).tx = s.tx := by simp [State.countIssue]
@[simp] theorem State.retireTo_tx (s : State) (pc : Word) : (s.retireTo pc).tx = s.tx := by simp [State.retireTo]
@[simp] theorem State.countIssue_rx (s : State) (k : Nat) : (s.countIssue k).rx = s.rx := by simp [State.countIssue]
@[simp] theorem State.retireTo_rx (s : State) (pc : Word) : (s.retireTo pc).rx = s.rx := by simp [State.retireTo]
@[simp] theorem State.countIssue_bundles (s : State) (k : Nat) : (s.countIssue k).bundles = s.bundles := by simp [State.countIssue]
@[simp] theorem State.retireTo_bundles (s : State) (pc : Word) : (s.retireTo pc).bundles = s.bundles := by simp [State.retireTo]
@[simp] theorem State.countIssue_gone (s : State) (k : Nat) : (s.countIssue k).gone = s.gone := by simp [State.countIssue]
@[simp] theorem State.retireTo_gone (s : State) (pc : Word) : (s.retireTo pc).gone = s.gone := by simp [State.retireTo]
@[simp] theorem State.countIssue_refl (s : State) (k : Nat) : (s.countIssue k).refl = s.refl := by simp [State.countIssue]
@[simp] theorem State.retireTo_refl (s : State) (pc : Word) : (s.retireTo pc).refl = s.refl := by simp [State.retireTo]
@[simp] theorem State.countIssue_ended (s : State) (k : Nat) : (s.countIssue k).ended = s.ended := by simp [State.countIssue]
@[simp] theorem State.retireTo_ended (s : State) (pc : Word) : (s.retireTo pc).ended = s.ended := by simp [State.retireTo]
@[simp] theorem State.countIssue_msix (s : State) (k : Nat) : (s.countIssue k).msix = s.msix := by simp [State.countIssue]
@[simp] theorem State.retireTo_msix (s : State) (pc : Word) : (s.retireTo pc).msix = s.msix := by simp [State.retireTo]
@[simp] theorem State.countIssue_dev (s : State) (k : Nat) : (s.countIssue k).dev = s.dev := by simp [State.countIssue]
@[simp] theorem State.countIssue_cut (s : State) (k : Nat) : (s.countIssue k).cut = s.cut := by simp [State.countIssue]
@[simp] theorem State.countIssue_held (s : State) (k : Nat) : (s.countIssue k).held = s.held := by simp [State.countIssue]
@[simp] theorem State.countIssue_l1 (s : State) (k : Nat) : (s.countIssue k).l1 = s.l1 := by simp [State.countIssue]
@[simp] theorem State.countIssue_caches (s : State) (k : Nat) : (s.countIssue k).caches = s.caches := by simp [State.countIssue]
@[simp] theorem State.countIssue_overflow (s : State) (k : Nat) : (s.countIssue k).overflow = s.overflow := by simp [State.countIssue]
@[simp] theorem State.countIssue_misses (s : State) (k : Nat) : (s.countIssue k).misses = s.misses := by simp [State.countIssue]
@[simp] theorem State.retireTo_dev (s : State) (pc : Word) : (s.retireTo pc).dev = s.dev := by simp [State.retireTo]
@[simp] theorem State.retireTo_cut (s : State) (pc : Word) : (s.retireTo pc).cut = s.cut := by simp [State.retireTo]
@[simp] theorem State.retireTo_held (s : State) (pc : Word) : (s.retireTo pc).held = s.held := by simp [State.retireTo]
@[simp] theorem State.retireTo_l1 (s : State) (pc : Word) : (s.retireTo pc).l1 = s.l1 := by simp [State.retireTo]
@[simp] theorem State.retireTo_caches (s : State) (pc : Word) : (s.retireTo pc).caches = s.caches := by simp [State.retireTo]
@[simp] theorem State.retireTo_overflow (s : State) (pc : Word) : (s.retireTo pc).overflow = s.overflow := by simp [State.retireTo]
@[simp] theorem State.retireTo_misses (s : State) (pc : Word) : (s.retireTo pc).misses = s.misses := by simp [State.retireTo]

@[simp] theorem State.slot_chargeQueue (s : State) (q : Option Nat) (n j : Nat) : (s.chargeQueue q n).slot j = s.slot j := by
  cases q <;> rfl

theorem State.slot_countIssue (s : State) (k j : Nat) :
    (s.countIssue k).slot j =
      if k = j then { s.slot k with issued := (s.slot k).issued + 1, units := (s.slot k).units + 1 } else s.slot j := by
  simp [State.countIssue, State.slot_modSlot]

theorem State.queue_chargeQueue (s : State) (q : Option Nat) (n j : Nat) :
    { (s.chargeQueue q n).queue j with deficit := 0 } = { s.queue j with deficit := 0 } := by
  cases q with
  | none => rfl
  | some i =>
    simp only [State.chargeQueue, State.queue_modQueue]
    split
    · subst j
      rfl
    · rfl

theorem State.queue_countIssue (s : State) (k j : Nat) :
    { (s.countIssue k).queue j with deficit := 0 } = { s.queue j with deficit := 0 } := State.queue_chargeQueue s _ 1 j

/-! Retiring. -/

@[simp] theorem Slot.calm_g (l : Slot) : l.calm.g = l.g := rfl
@[simp] theorem Slot.endUnit_g (l : Slot) : l.endUnit.g = l.g := by unfold Slot.endUnit; split <;> rfl
@[simp] theorem Slot.retireAt_g (l : Slot) (pc : Word) : (l.retireAt pc).g = l.g := by simp [Slot.retireAt]
@[simp] theorem Slot.calm_v (l : Slot) : l.calm.v = l.v := rfl
@[simp] theorem Slot.endUnit_v (l : Slot) : l.endUnit.v = l.v := by unfold Slot.endUnit; split <;> rfl
@[simp] theorem Slot.retireAt_v (l : Slot) (pc : Word) : (l.retireAt pc).v = l.v := by simp [Slot.retireAt]
@[simp] theorem Slot.calm_k (l : Slot) : l.calm.k = l.k := rfl
@[simp] theorem Slot.endUnit_k (l : Slot) : l.endUnit.k = l.k := by unfold Slot.endUnit; split <;> rfl
@[simp] theorem Slot.retireAt_k (l : Slot) (pc : Word) : (l.retireAt pc).k = l.k := by simp [Slot.retireAt]
@[simp] theorem Slot.calm_status (l : Slot) : l.calm.status = l.status := rfl
@[simp] theorem Slot.endUnit_status (l : Slot) : l.endUnit.status = l.status := by unfold Slot.endUnit; split <;> rfl
@[simp] theorem Slot.retireAt_status (l : Slot) (pc : Word) : (l.retireAt pc).status = l.status := by simp [Slot.retireAt]
@[simp] theorem Slot.calm_flags (l : Slot) : l.calm.flags = l.flags := rfl
@[simp] theorem Slot.endUnit_flags (l : Slot) : l.endUnit.flags = l.flags := by unfold Slot.endUnit; split <;> rfl
@[simp] theorem Slot.retireAt_flags (l : Slot) (pc : Word) : (l.retireAt pc).flags = l.flags := by simp [Slot.retireAt]
@[simp] theorem Slot.calm_taskid (l : Slot) : l.calm.taskid = l.taskid := rfl
@[simp] theorem Slot.endUnit_taskid (l : Slot) : l.endUnit.taskid = l.taskid := by unfold Slot.endUnit; split <;> rfl
@[simp] theorem Slot.retireAt_taskid (l : Slot) (pc : Word) : (l.retireAt pc).taskid = l.taskid := by simp [Slot.retireAt]
@[simp] theorem Slot.calm_asid (l : Slot) : l.calm.asid = l.asid := rfl
@[simp] theorem Slot.endUnit_asid (l : Slot) : l.endUnit.asid = l.asid := by unfold Slot.endUnit; split <;> rfl
@[simp] theorem Slot.retireAt_asid (l : Slot) (pc : Word) : (l.retireAt pc).asid = l.asid := by simp [Slot.retireAt]
@[simp] theorem Slot.calm_epc (l : Slot) : l.calm.epc = l.epc := rfl
@[simp] theorem Slot.endUnit_epc (l : Slot) : l.endUnit.epc = l.epc := by unfold Slot.endUnit; split <;> rfl
@[simp] theorem Slot.retireAt_epc (l : Slot) (pc : Word) : (l.retireAt pc).epc = l.epc := by simp [Slot.retireAt]
@[simp] theorem Slot.calm_ecause (l : Slot) : l.calm.ecause = l.ecause := rfl
@[simp] theorem Slot.endUnit_ecause (l : Slot) : l.endUnit.ecause = l.ecause := by unfold Slot.endUnit; split <;> rfl
@[simp] theorem Slot.retireAt_ecause (l : Slot) (pc : Word) : (l.retireAt pc).ecause = l.ecause := by simp [Slot.retireAt]
@[simp] theorem Slot.calm_eval (l : Slot) : l.calm.eval = l.eval := rfl
@[simp] theorem Slot.endUnit_eval (l : Slot) : l.endUnit.eval = l.eval := by unfold Slot.endUnit; split <;> rfl
@[simp] theorem Slot.retireAt_eval (l : Slot) (pc : Word) : (l.retireAt pc).eval = l.eval := by simp [Slot.retireAt]
@[simp] theorem Slot.calm_pidx (l : Slot) : l.calm.pidx = l.pidx := rfl
@[simp] theorem Slot.endUnit_pidx (l : Slot) : l.endUnit.pidx = l.pidx := by unfold Slot.endUnit; split <;> rfl
@[simp] theorem Slot.retireAt_pidx (l : Slot) (pc : Word) : (l.retireAt pc).pidx = l.pidx := by simp [Slot.retireAt]
@[simp] theorem Slot.calm_estatus (l : Slot) : l.calm.estatus = l.estatus := rfl
@[simp] theorem Slot.endUnit_estatus (l : Slot) : l.endUnit.estatus = l.estatus := by unfold Slot.endUnit; split <;> rfl
@[simp] theorem Slot.retireAt_estatus (l : Slot) (pc : Word) : (l.retireAt pc).estatus = l.estatus := by simp [Slot.retireAt]
@[simp] theorem Slot.calm_tvec (l : Slot) : l.calm.tvec = l.tvec := rfl
@[simp] theorem Slot.endUnit_tvec (l : Slot) : l.endUnit.tvec = l.tvec := by unfold Slot.endUnit; split <;> rfl
@[simp] theorem Slot.retireAt_tvec (l : Slot) (pc : Word) : (l.retireAt pc).tvec = l.tvec := by simp [Slot.retireAt]
@[simp] theorem Slot.calm_rngs (l : Slot) : l.calm.rngs = l.rngs := rfl
@[simp] theorem Slot.endUnit_rngs (l : Slot) : l.endUnit.rngs = l.rngs := by unfold Slot.endUnit; split <;> rfl
@[simp] theorem Slot.retireAt_rngs (l : Slot) (pc : Word) : (l.retireAt pc).rngs = l.rngs := by simp [Slot.retireAt]
@[simp] theorem Slot.calm_quota (l : Slot) : l.calm.quota = l.quota := rfl
@[simp] theorem Slot.endUnit_quota (l : Slot) : l.endUnit.quota = l.quota := by unfold Slot.endUnit; split <;> rfl
@[simp] theorem Slot.retireAt_quota (l : Slot) (pc : Word) : (l.retireAt pc).quota = l.quota := by simp [Slot.retireAt]
@[simp] theorem Slot.calm_wdog (l : Slot) : l.calm.wdog = l.wdog := rfl
@[simp] theorem Slot.endUnit_wdog (l : Slot) : l.endUnit.wdog = l.wdog := by unfold Slot.endUnit; split <;> rfl
@[simp] theorem Slot.retireAt_wdog (l : Slot) (pc : Word) : (l.retireAt pc).wdog = l.wdog := by simp [Slot.retireAt]
@[simp] theorem Slot.calm_gmask (l : Slot) : l.calm.gmask = l.gmask := rfl
@[simp] theorem Slot.endUnit_gmask (l : Slot) : l.endUnit.gmask = l.gmask := by unfold Slot.endUnit; split <;> rfl
@[simp] theorem Slot.retireAt_gmask (l : Slot) (pc : Word) : (l.retireAt pc).gmask = l.gmask := by simp [Slot.retireAt]
@[simp] theorem Slot.calm_gto (l : Slot) : l.calm.gto = l.gto := rfl
@[simp] theorem Slot.endUnit_gto (l : Slot) : l.endUnit.gto = l.gto := by unfold Slot.endUnit; split <;> rfl
@[simp] theorem Slot.retireAt_gto (l : Slot) (pc : Word) : (l.retireAt pc).gto = l.gto := by simp [Slot.retireAt]
@[simp] theorem Slot.calm_cwm (l : Slot) : l.calm.cwm = l.cwm := rfl
@[simp] theorem Slot.endUnit_cwm (l : Slot) : l.endUnit.cwm = l.cwm := by unfold Slot.endUnit; split <;> rfl
@[simp] theorem Slot.retireAt_cwm (l : Slot) (pc : Word) : (l.retireAt pc).cwm = l.cwm := by simp [Slot.retireAt]
@[simp] theorem Slot.calm_ebcmin (l : Slot) : l.calm.ebcmin = l.ebcmin := rfl
@[simp] theorem Slot.endUnit_ebcmin (l : Slot) : l.endUnit.ebcmin = l.ebcmin := by unfold Slot.endUnit; split <;> rfl
@[simp] theorem Slot.retireAt_ebcmin (l : Slot) (pc : Word) : (l.retireAt pc).ebcmin = l.ebcmin := by simp [Slot.retireAt]
@[simp] theorem Slot.calm_q (l : Slot) : l.calm.q = l.q := rfl
@[simp] theorem Slot.endUnit_q (l : Slot) : l.endUnit.q = l.q := by unfold Slot.endUnit; split <;> rfl
@[simp] theorem Slot.retireAt_q (l : Slot) (pc : Word) : (l.retireAt pc).q = l.q := by simp [Slot.retireAt]
@[simp] theorem Slot.calm_b (l : Slot) : l.calm.b = l.b := rfl
@[simp] theorem Slot.endUnit_b (l : Slot) : l.endUnit.b = l.b := by unfold Slot.endUnit; split <;> rfl
@[simp] theorem Slot.retireAt_b (l : Slot) (pc : Word) : (l.retireAt pc).b = l.b := by simp [Slot.retireAt]
@[simp] theorem Slot.calm_debt (l : Slot) : l.calm.debt = l.debt := rfl
@[simp] theorem Slot.endUnit_debt (l : Slot) : l.endUnit.debt = l.debt := by unfold Slot.endUnit; split <;> rfl
@[simp] theorem Slot.retireAt_debt (l : Slot) (pc : Word) : (l.retireAt pc).debt = l.debt := by simp [Slot.retireAt]
@[simp] theorem Slot.calm_units (l : Slot) : l.calm.units = l.units := rfl
@[simp] theorem Slot.endUnit_units (l : Slot) : l.endUnit.units = l.units := by unfold Slot.endUnit; split <;> rfl
@[simp] theorem Slot.retireAt_units (l : Slot) (pc : Word) : (l.retireAt pc).units = l.units := by simp [Slot.retireAt]
@[simp] theorem Slot.calm_carry (l : Slot) : l.calm.carry = l.carry := rfl
@[simp] theorem Slot.endUnit_carry (l : Slot) : l.endUnit.carry = l.carry := by unfold Slot.endUnit; split <;> rfl
@[simp] theorem Slot.retireAt_carry (l : Slot) (pc : Word) : (l.retireAt pc).carry = l.carry := by simp [Slot.retireAt]
@[simp] theorem Slot.calm_startPtr (l : Slot) : l.calm.startPtr = l.startPtr := rfl
@[simp] theorem Slot.endUnit_startPtr (l : Slot) : l.endUnit.startPtr = l.startPtr := by unfold Slot.endUnit; split <;> rfl
@[simp] theorem Slot.retireAt_startPtr (l : Slot) (pc : Word) : (l.retireAt pc).startPtr = l.startPtr := by simp [Slot.retireAt]
@[simp] theorem Slot.calm_pend (l : Slot) : l.calm.pend = l.pend := rfl
@[simp] theorem Slot.endUnit_pend (l : Slot) : l.endUnit.pend = l.pend := by unfold Slot.endUnit; split <;> rfl
@[simp] theorem Slot.retireAt_pend (l : Slot) (pc : Word) : (l.retireAt pc).pend = l.pend := by simp [Slot.retireAt]
@[simp] theorem Slot.calm_runStart (l : Slot) : l.calm.runStart = l.runStart := rfl
@[simp] theorem Slot.endUnit_runStart (l : Slot) : l.endUnit.runStart = l.runStart := by unfold Slot.endUnit; split <;> rfl
@[simp] theorem Slot.retireAt_runStart (l : Slot) (pc : Word) : (l.retireAt pc).runStart = l.runStart := by simp [Slot.retireAt]
@[simp] theorem Slot.calm_kill (l : Slot) : l.calm.kill = l.kill := rfl
@[simp] theorem Slot.endUnit_kill (l : Slot) : l.endUnit.kill = l.kill := by unfold Slot.endUnit; split <;> rfl
@[simp] theorem Slot.retireAt_kill (l : Slot) (pc : Word) : (l.retireAt pc).kill = l.kill := by simp [Slot.retireAt]
@[simp] theorem Slot.calm_wdogDue (l : Slot) : l.calm.wdogDue = l.wdogDue := rfl
@[simp] theorem Slot.endUnit_wdogDue (l : Slot) : l.endUnit.wdogDue = l.wdogDue := by unfold Slot.endUnit; split <;> rfl
@[simp] theorem Slot.retireAt_wdogDue (l : Slot) (pc : Word) : (l.retireAt pc).wdogDue = l.wdogDue := by simp [Slot.retireAt]
@[simp] theorem Slot.calm_stops (l : Slot) : l.calm.stops = l.stops := rfl
@[simp] theorem Slot.endUnit_stops (l : Slot) : l.endUnit.stops = l.stops := by unfold Slot.endUnit; split <;> rfl
@[simp] theorem Slot.retireAt_stops (l : Slot) (pc : Word) : (l.retireAt pc).stops = l.stops := by simp [Slot.retireAt]
@[simp] theorem Slot.calm_load (l : Slot) : l.calm.load = l.load := rfl
@[simp] theorem Slot.endUnit_load (l : Slot) : l.endUnit.load = l.load := by unfold Slot.endUnit; split <;> rfl
@[simp] theorem Slot.retireAt_load (l : Slot) (pc : Word) : (l.retireAt pc).load = l.load := by simp [Slot.retireAt]
@[simp] theorem Slot.calm_issued (l : Slot) : l.calm.issued = l.issued := rfl
@[simp] theorem Slot.endUnit_issued (l : Slot) : l.endUnit.issued = l.issued := by unfold Slot.endUnit; split <;> rfl
@[simp] theorem Slot.retireAt_issued (l : Slot) (pc : Word) : (l.retireAt pc).issued = l.issued := by simp [Slot.retireAt]
@[simp] theorem Slot.calm_origin (l : Slot) : l.calm.origin = l.origin := rfl
@[simp] theorem Slot.endUnit_origin (l : Slot) : l.endUnit.origin = l.origin := by unfold Slot.endUnit; split <;> rfl
@[simp] theorem Slot.retireAt_origin (l : Slot) (pc : Word) : (l.retireAt pc).origin = l.origin := by simp [Slot.retireAt]
@[simp] theorem Slot.calm_queue (l : Slot) : l.calm.queue = l.queue := rfl
@[simp] theorem Slot.endUnit_queue (l : Slot) : l.endUnit.queue = l.queue := by unfold Slot.endUnit; split <;> rfl
@[simp] theorem Slot.retireAt_queue (l : Slot) (pc : Word) : (l.retireAt pc).queue = l.queue := by simp [Slot.retireAt]
@[simp] theorem Slot.calm_demand (l : Slot) : l.calm.demand = l.demand := rfl
@[simp] theorem Slot.endUnit_demand (l : Slot) : l.endUnit.demand = l.demand := by unfold Slot.endUnit; split <;> rfl
@[simp] theorem Slot.retireAt_demand (l : Slot) (pc : Word) : (l.retireAt pc).demand = l.demand := by simp [Slot.retireAt]
@[simp] theorem Slot.calm_leaseTile (l : Slot) : l.calm.leaseTile = l.leaseTile := rfl
@[simp] theorem Slot.endUnit_leaseTile (l : Slot) : l.endUnit.leaseTile = l.leaseTile := by unfold Slot.endUnit; split <;> rfl
@[simp] theorem Slot.retireAt_leaseTile (l : Slot) (pc : Word) : (l.retireAt pc).leaseTile = l.leaseTile := by simp [Slot.retireAt]
@[simp] theorem Slot.calm_abLease (l : Slot) : l.calm.abLease = l.abLease := rfl
@[simp] theorem Slot.endUnit_abLease (l : Slot) : l.endUnit.abLease = l.abLease := by unfold Slot.endUnit; split <;> rfl
@[simp] theorem Slot.retireAt_abLease (l : Slot) (pc : Word) : (l.retireAt pc).abLease = l.abLease := by simp [Slot.retireAt]
@[simp] theorem Slot.calm_wbLease (l : Slot) : l.calm.wbLease = l.wbLease := rfl
@[simp] theorem Slot.endUnit_wbLease (l : Slot) : l.endUnit.wbLease = l.wbLease := by unfold Slot.endUnit; split <;> rfl
@[simp] theorem Slot.retireAt_wbLease (l : Slot) (pc : Word) : (l.retireAt pc).wbLease = l.wbLease := by simp [Slot.retireAt]
@[simp] theorem Slot.calm_held (l : Slot) : l.calm.held = l.held := rfl
@[simp] theorem Slot.endUnit_held (l : Slot) : l.endUnit.held = l.held := by unfold Slot.endUnit; split <;> rfl
@[simp] theorem Slot.retireAt_held (l : Slot) (pc : Word) : (l.retireAt pc).held = l.held := by simp [Slot.retireAt]
@[simp] theorem Slot.calm_idleAt (l : Slot) : l.calm.idleAt = l.idleAt := rfl
@[simp] theorem Slot.endUnit_idleAt (l : Slot) : l.endUnit.idleAt = l.idleAt := by unfold Slot.endUnit; split <;> rfl
@[simp] theorem Slot.retireAt_idleAt (l : Slot) (pc : Word) : (l.retireAt pc).idleAt = l.idleAt := by simp [Slot.retireAt]
@[simp] theorem Slot.calm_gangFor (l : Slot) : l.calm.gangFor = l.gangFor := rfl
@[simp] theorem Slot.endUnit_gangFor (l : Slot) : l.endUnit.gangFor = l.gangFor := by unfold Slot.endUnit; split <;> rfl
@[simp] theorem Slot.retireAt_gangFor (l : Slot) (pc : Word) : (l.retireAt pc).gangFor = l.gangFor := by simp [Slot.retireAt]
@[simp] theorem Slot.calm_peerEnd (l : Slot) : l.calm.peerEnd = l.peerEnd := rfl
@[simp] theorem Slot.calm_staged (l : Slot) : l.calm.staged = l.staged := rfl
@[simp] theorem Slot.calm_passFrom (l : Slot) : l.calm.passFrom = l.passFrom := rfl
@[simp] theorem Slot.calm_chained (l : Slot) : l.calm.chained = l.chained := rfl
@[simp] theorem Slot.calm_kept (l : Slot) : l.calm.kept = l.kept := rfl
@[simp] theorem Slot.calm_late (l : Slot) : l.calm.late = l.late := rfl
@[simp] theorem Slot.calm_next (l : Slot) : l.calm.next = l.next := rfl
@[simp] theorem Slot.endUnit_peerEnd (l : Slot) : l.endUnit.peerEnd = l.peerEnd := by unfold Slot.endUnit; split <;> rfl
@[simp] theorem Slot.retireAt_peerEnd (l : Slot) (pc : Word) : (l.retireAt pc).peerEnd = l.peerEnd := by simp [Slot.retireAt]
@[simp] theorem Slot.endUnit_pc (l : Slot) : l.endUnit.pc = l.pc := by unfold Slot.endUnit; split <;> rfl
@[simp] theorem Slot.endUnit_hints (l : Slot) : l.endUnit.hints = l.hints := by unfold Slot.endUnit; split <;> rfl
@[simp] theorem Slot.endUnit_seg (l : Slot) : l.endUnit.seg = l.seg := by unfold Slot.endUnit; split <;> rfl
@[simp] theorem Slot.endUnit_sent (l : Slot) : l.endUnit.sent = l.sent := by unfold Slot.endUnit; split <;> rfl
@[simp] theorem Slot.endUnit_reply (l : Slot) : l.endUnit.reply = l.reply := by unfold Slot.endUnit; split <;> rfl
@[simp] theorem Slot.endUnit_committed (l : Slot) : l.endUnit.committed = l.committed := by unfold Slot.endUnit; split <;> rfl
@[simp] theorem Slot.endUnit_arrived (l : Slot) : l.endUnit.arrived = l.arrived := by unfold Slot.endUnit; split <;> rfl
@[simp] theorem Slot.endUnit_performing (l : Slot) : l.endUnit.performing = l.performing := by unfold Slot.endUnit; split <;> rfl
@[simp] theorem Slot.endUnit_staged (l : Slot) : l.endUnit.staged = l.staged := by unfold Slot.endUnit; split <;> rfl
@[simp] theorem Slot.endUnit_passFrom (l : Slot) : l.endUnit.passFrom = l.passFrom := by unfold Slot.endUnit; split <;> rfl
@[simp] theorem Slot.endUnit_chained (l : Slot) : l.endUnit.chained = l.chained := by unfold Slot.endUnit; split <;> rfl
@[simp] theorem Slot.endUnit_kept (l : Slot) : l.endUnit.kept = l.kept := by unfold Slot.endUnit; split <;> rfl
@[simp] theorem Slot.endUnit_late (l : Slot) : l.endUnit.late = l.late := by unfold Slot.endUnit; split <;> rfl
@[simp] theorem Slot.endUnit_next (l : Slot) : l.endUnit.next = l.next := by unfold Slot.endUnit; split <;> rfl

@[simp] theorem Slot.retireAt_pc (l : Slot) (pc : Word) : (l.retireAt pc).pc = pc := by simp [Slot.retireAt]
@[simp] theorem Slot.retireAt_hints (l : Slot) (pc : Word) : (l.retireAt pc).hints = [] := by simp [Slot.retireAt, Slot.calm]
@[simp] theorem Slot.retireAt_staged (l : Slot) (pc : Word) : (l.retireAt pc).staged = l.staged := by simp [Slot.retireAt]
@[simp] theorem Slot.retireAt_passFrom (l : Slot) (pc : Word) : (l.retireAt pc).passFrom = l.passFrom := by simp [Slot.retireAt]
@[simp] theorem Slot.retireAt_chained (l : Slot) (pc : Word) : (l.retireAt pc).chained = l.chained := by simp [Slot.retireAt]
@[simp] theorem Slot.retireAt_kept (l : Slot) (pc : Word) : (l.retireAt pc).kept = l.kept := by simp [Slot.retireAt]
@[simp] theorem Slot.retireAt_late (l : Slot) (pc : Word) : (l.retireAt pc).late = l.late := by simp [Slot.retireAt]
@[simp] theorem Slot.retireAt_next (l : Slot) (pc : Word) : (l.retireAt pc).next = l.next := by simp [Slot.retireAt]

@[simp] theorem Slot.retireAt_seg_version (l : Slot) (pc : Word) : (l.retireAt pc).seg.version = l.seg.version := by
  simp only [Slot.retireAt, Slot.endUnit_seg]; split <;> rfl
@[simp] theorem Slot.retireAt_seg_reads (l : Slot) (pc : Word) : (l.retireAt pc).seg.reads = l.seg.reads := by
  simp only [Slot.retireAt, Slot.endUnit_seg]; split <;> rfl
@[simp] theorem Slot.retireAt_seg_writes (l : Slot) (pc : Word) : (l.retireAt pc).seg.writes = l.seg.writes := by
  simp only [Slot.retireAt, Slot.endUnit_seg]; split <;> rfl
@[simp] theorem Slot.retireAt_seg_priv (l : Slot) (pc : Word) : (l.retireAt pc).seg.priv = l.seg.priv := by
  simp only [Slot.retireAt, Slot.endUnit_seg]; split <;> rfl
@[simp] theorem Slot.retireAt_seg_sigR (l : Slot) (pc : Word) : (l.retireAt pc).seg.sigR = l.seg.sigR := by
  simp only [Slot.retireAt, Slot.endUnit_seg]; split <;> rfl
@[simp] theorem Slot.retireAt_seg_sigW (l : Slot) (pc : Word) : (l.retireAt pc).seg.sigW = l.seg.sigW := by
  simp only [Slot.retireAt, Slot.endUnit_seg]; split <;> rfl
@[simp] theorem Slot.retireAt_seg_spilled (l : Slot) (pc : Word) : (l.retireAt pc).seg.spilled = l.seg.spilled := by
  simp only [Slot.retireAt, Slot.endUnit_seg]; split <;> rfl
@[simp] theorem Slot.retireAt_seg_doom (l : Slot) (pc : Word) : (l.retireAt pc).seg.doom = l.seg.doom := by
  simp only [Slot.retireAt, Slot.endUnit_seg]; split <;> rfl
@[simp] theorem Slot.retireAt_seg_doomSig (l : Slot) (pc : Word) : (l.retireAt pc).seg.doomSig = l.seg.doomSig := by
  simp only [Slot.retireAt, Slot.endUnit_seg]; split <;> rfl
@[simp] theorem Slot.retireAt_seg_sealedCommit (l : Slot) (pc : Word) : (l.retireAt pc).seg.sealedCommit = l.seg.sealedCommit := by
  simp only [Slot.retireAt, Slot.endUnit_seg]; split <;> rfl
@[simp] theorem Slot.gr_retireAt (l : Slot) (pc : Word) (j : BitVec 4) : (l.retireAt pc).gr j = l.gr j := by simp only [Slot.gr, Slot.retireAt_g]
@[simp] theorem Slot.vr_retireAt (l : Slot) (pc : Word) (j : Nat) : (l.retireAt pc).vr j = l.vr j := by simp only [Slot.vr, Slot.retireAt_v]
@[simp] theorem Slot.kr_retireAt (l : Slot) (pc : Word) (j : BitVec 3) : (l.retireAt pc).kr j = l.kr j := by simp only [Slot.kr, Slot.retireAt_k]
@[simp] theorem Slot.qr_retireAt (l : Slot) (pc : Word) (j : Nat) : (l.retireAt pc).qr j = l.qr j := by simp only [Slot.qr, Slot.retireAt_q]
@[simp] theorem Slot.br_retireAt (l : Slot) (pc : Word) (j : Nat) : (l.retireAt pc).br j = l.br j := by simp only [Slot.br, Slot.retireAt_b]

theorem State.slot_retireTo (s : State) (pc : Word) (j : Nat) :
    (s.retireTo pc).slot j =
      if s.cur = j then Slot.retireAt { s.me with issued := s.me.issued + 1, units := s.me.units + 1 } pc else s.slot j := by
  simp only [State.retireTo, State.slot_modMe, State.countIssue_cur, State.slot_countIssue]
  split
  · simp [State.me, State.slot_countIssue]
  · rfl

@[simp] theorem State.me_retireTo (s : State) (pc : Word) :
    (s.retireTo pc).me = Slot.retireAt { s.me with issued := s.me.issued + 1, units := s.me.units + 1 } pc := by
  simp [State.me, State.slot_retireTo]

/-! Frames. -/

theorem Keeps.refl (t : Touch) (x : Slot) : Keeps t x x := by constructor <;> intros <;> rfl

/-- Retiring keeps the whole context. -/
theorem Keeps.retired {t : Touch} {x y : Slot} (h : Keeps t x y) (n u : Nat) (pc : Word) :
    Keeps t x (Slot.retireAt { y with issued := n, units := u } pc) := by
  obtain ⟨h1, h2, h3, h4, h5, h6, h7, h8, h9, h10, h11, h12, h13, h14, h15, h16, h17, h18, h19, h20, h21, h22, h23, h24, h25, h26, h27, h28⟩ := h
  constructor <;> simpa using ‹_›

theorem Unchanged.refl (e : List Component) (s : State) : Unchanged e s s := by
  refine ⟨fun c _ => ?_, rfl, rfl, rfl, rfl⟩
  cases c <;> simp [Component.Same]

/-- A change of the slot that issues, and its retirement, change nothing outside that slot. -/
theorem unchanged_retireTo (s : State) (l : Slot) (pc : Word) : Unchanged [] s ((s.setMe l).retireTo pc) := by
  refine ⟨fun c _ => ?_, by simp, by simp, by simp, by simp⟩
  cases c
  case otherSlots =>
    intro k hk
    simp only [State.slot_retireTo, State.slot_setMe, State.setMe_cur]
    simp [Ne.symm hk]
  case queues =>
    intro q
    have e := State.queue_countIssue (s.setMe l) s.cur q
    rw [State.queue_setMe] at e
    rw [State.retireTo, State.queue_modMe]
    exact e
  all_goals simp [Component.Same, State.byte, State.tile, State.lstall, State.pstall, State.cell, State.arcade, State.quad]

/-- A change of the slot that issues, then its retirement at `pc`. -/
theorem retires_at (i : Instr) (s : State) (l : Slot) (pc : Word) (touch : Touch) (P : State → Prop)
    (h : exec i s = .next ((s.setMe l).retireTo pc)) (k : Keeps touch s.me l)
    (p : P ((s.setMe l).retireTo pc)) : GoesTo i s pc touch P := by
  refine ⟨_, h, unchanged_retireTo s l pc, ?_, ?_, ?_, p⟩
  · rw [State.me_retireTo, State.me_setMe]
    exact k.retired _ _ _
  · simp
  · simp

/-- The same in sequence. -/
theorem retires_plain (i : Instr) (s : State) (f : Slot → Slot) (touch : Touch) (P : State → Prop) (g : s.goesOn)
    (h : exec i s = plain s f) (e : (f s.me).pc = s.me.pc) (k : Keeps touch s.me (f s.me))
    (p : P ((s.setMe (f s.me)).retireTo (s.me.pc + 4))) : Retires i s [] touch P := by
  have h2 : plain s f = .next ((s.setMe (f s.me)).retireTo (s.me.pc + 4)) := by
    unfold plain sequential
    rw [if_pos (show legalTarget _ = true from g)]
    simp [finish, State.retire, e]
  exact retires_at i s (f s.me) _ touch P (h.trans h2) k p

/-! Scalar writes. -/

theorem keeps_gw (x : Slot) (rd : BitVec 4) (v : Word) (t : Touch) (h : rd ∈ t.g) : Keeps t x (x.gw rd v) := by
  constructor <;> intros <;> try simp
  rename_i r hr
  rw [Slot.gr_gw, if_neg]
  rintro ⟨rfl, _⟩
  exact hr h

/-- A write of `rd` reads back after the instruction has retired. -/
theorem wrote_gw (s : State) (l : Slot) (rd : BitVec 4) (v : Word) (pc : Word) (h : ∃ m : Slot, l = m.gw rd v) :
    Wrote rd v ((s.setMe l).retireTo pc) := by
  obtain ⟨m, rfl⟩ := h
  unfold Wrote
  rw [State.me_retireTo, State.me_setMe, Slot.gr_retireAt]
  show (m.gw rd v).gr rd = _
  rw [Slot.gr_gw]
  by_cases z : rd = 0
  · subst z
    rfl
  · rw [if_pos ⟨rfl, z⟩, if_neg z]

/-! What the shared ends of an instruction answer. -/

/-- The end of an instruction is a next state, whether it completes or stops early. -/
theorem finish_next (x : Except State State) : ∃ t, finish x = .next t := by cases x <;> exact ⟨_, rfl⟩

theorem sequential_goesOn (s : State) (body : State → Except State State) (g : s.goesOn) : sequential s body = finish (body s) := by
  unfold sequential
  rw [if_pos (show legalTarget _ = true from g)]

theorem sequential_stops (s : State) (body : State → Except State State) (g : ¬s.goesOn) :
    sequential s body = .next (s.trapMe 0x09 (s.me.pc + 4)) := by
  unfold sequential
  rw [if_neg (show ¬legalTarget _ = true from g)]

theorem transfer_legal (s : State) (t : Int) (f : Slot → Slot) (h : LegalTarget t) :
    transfer s t f = .next ((s.setMe (f s.me)).retireTo (BitVec.ofInt 64 t)) := if_pos h

theorem transfer_illegal (s : State) (t : Int) (f : Slot → Slot) (h : ¬LegalTarget t) :
    transfer s t f = .next (s.trapMe 0x09 (BitVec.ofInt 64 t)) := if_neg h

/-! Commit-before, traps and waits. -/

/-- All that commit-before can do: it goes on with a commit that was made before it waited, or made now; or the instruction ends with
the undo of its segment, or waits. -/
theorem commitBefore_cases (s : State) :
    (s.me.committed = true ∧
      s.commitBefore = .ok (s.setMe { s.me with committed := false, seg := { s.me.seg with opened := true } })) ∨
    (s.me.committed = false ∧ s.me.doomed = true ∧ s.commitBefore = .error (s.trapMe s.me.doomCause s.me.doomEval)) ∨
    (s.me.committed = false ∧ s.me.doomed = false ∧ s.me.seg.sealedCommit = true ∧ s.commitBefore = .error (s.waitFor .completion)) ∨
    (s.me.committed = false ∧ s.me.doomed = false ∧ s.me.seg.sealedCommit = false ∧ s.commitBlocked s.me (homeOf s.cur) = true ∧
      s.commitBefore = .error s.sealMe) ∨
    (s.clean ∧ s.commitBefore = .ok (s.commitSlot s.cur)) := by
  unfold State.commitBefore State.clean
  cases h1 : s.me.committed
  case true => exact .inl ⟨rfl, by simp [h1]⟩
  cases h2 : s.me.doomed
  case true => exact .inr (.inl ⟨rfl, rfl, by simp [h1, h2]⟩)
  cases h3 : s.me.seg.sealedCommit
  case true => exact .inr (.inr (.inl ⟨rfl, rfl, rfl, by simp [h1, h2, h3]⟩))
  cases h4 : s.commitBlocked s.me (homeOf s.cur)
  case true => exact .inr (.inr (.inr (.inl ⟨rfl, rfl, rfl, rfl, by simp [h1, h2, h3, h4]⟩)))
  exact .inr (.inr (.inr (.inr ⟨⟨rfl, rfl, rfl, rfl⟩, by simp [h1, h2, h3, h4]⟩)))

/-- A slot that no gang and no doom concerns takes its trap alone. -/
theorem trap_alone (s : State) (key : Nat) (c : BitVec 8) (e v : Word) (g : (s.slot key).gang = false) (d : (s.slot key).doomed = false) :
    s.trap key c e v = s.enterTrap key c e v := by
  simp [State.trap, State.breakGang, State.raise, g, d]

/-- Where the handler can start, trap entry changes its slot and nothing else. -/
theorem enterTrap_ok (s : State) (key : Nat) (c : BitVec 8) (e v : Word) (h : (s.slot key).handlerOk e = true) :
    s.enterTrap key c e v = s.setSlot key ((s.slot key).trapEntry c e v) := if_pos h

theorem enterTrap_ends (s : State) (key : Nat) (c : BitVec 8) (e v : Word) (h : (s.slot key).handlerOk e = false) :
    s.enterTrap key c e v = (s.setSlot key { (s.slot key).calm with pc := (s.slot key).unitStart }).endTask key c v := if_neg (by simp [h])

/-- A wait changes the slot that issues and nothing else. -/
theorem waitFor_setMe (s : State) (w : Wait) : s.waitFor w = s.setMe (s.me.waitAt w) := rfl

theorem keeps_waitAt (l : Slot) (w : Wait) (t : Touch) : Keeps t l (l.waitAt w) := by constructor <;> intros <;> rfl

end Sys2Proof.Machine
end

