-- ==== Sys2Proof/Laws/Memory.lean ====
section
/-! SUPPORT. Memory's canonical form: reset's memory has it, and every operation that writes memory keeps it (with the number of
partitions, which together make a state safe). -/

namespace Sys2Proof.Machine

section
set_option Elab.async false

/-- What each step of a fold keeps, the fold keeps. -/
theorem foldl_keeps {α β : Type} (P : β → Prop) (f : β → α → β) (h : ∀ b a, P b → P (f b a)) :
    ∀ (l : List α) (b : β), P b → P (l.foldl f b)
  | [], _, hb => hb
  | a :: l, b, hb => foldl_keeps P f h l (f b a) (h b a hb)

theorem reset_memory_wf : Memory.wf State.reset.mem = true := rfl
theorem reset_safe : State.reset.Safe := ⟨rfl, rfl⟩

/-! Bytes. -/

theorem wrN_wf (n : Nat) : ∀ (m : FMap Byte) (a v : Nat), Memory.wf m = true → Memory.wf (wrN m a n v) = true := by
  induction n with
  | zero => intro m a v h; exact h
  | succ n ih => intro m a v h; exact ih _ _ _ (fwf_fset _ _ _ _ h)

theorem wrMask_wf (n : Nat) : ∀ (m : FMap Byte) (a v k : Nat), Memory.wf m = true → Memory.wf (wrMask m a n v k) = true := by
  induction n with
  | zero => intro m a v k h; exact h
  | succ n ih =>
    intro m a v k h
    refine ih _ _ _ _ ?_
    split
    · exact fwf_fset _ _ _ _ h
    · exact h

theorem writeFields_wf (fs : List AreaField) : ∀ (m : FMap Byte) (base : Nat) (l : Slot),
    Memory.wf m = true → Memory.wf (writeFields m base l fs) = true := by
  induction fs with
  | nil => intro m base l h; exact h
  | cons f fs ih => intro m base l h; exact ih _ _ _ (wrN_wf _ _ _ _ h)

theorem State.rawWrite_safe (s : State) (pa n v : Nat) (h : s.Safe) : (s.rawWrite pa n v).Safe := ⟨wrN_wf n _ _ _ h.1, h.2⟩

/-! Committed writes (R260). -/

@[simp] theorem State.markDirty_mem (s : State) (g holder : Nat) (task : Word) : (s.markDirty g holder task).mem = s.mem := by
  unfold State.markDirty; split <;> rfl
@[simp] theorem State.markDirty_parts (s : State) (g holder : Nat) (task : Word) : (s.markDirty g holder task).parts = s.parts := by
  unfold State.markDirty; split <;> rfl

/-- Dropping copies from the caches leaves memory and the partitions. -/
theorem State.uncachePhys_keeps (s : State) (g : Nat) : (s.uncachePhys g).mem = s.mem ∧ (s.uncachePhys g).parts = s.parts := by
  unfold State.uncachePhys
  split
  · exact ⟨rfl, rfl⟩
  · exact foldl_keeps (fun t : State => t.mem = s.mem ∧ t.parts = s.parts)
      (fun t (m : Nat × Nat × Nat) => t.uncache m.1 m.2.1 (fun k => k == m.2.2)) (fun _ _ h => h) _ _ ⟨rfl, rfl⟩

theorem State.uncachePhys_safe (s : State) (g : Nat) (h : s.Safe) : (s.uncachePhys g).Safe := by
  obtain ⟨a, b⟩ := s.uncachePhys_keeps g
  exact ⟨a ▸ h.1, b ▸ h.2⟩

theorem State.markDirty_safe (s : State) (g holder : Nat) (task : Word) (h : s.Safe) : (s.markDirty g holder task).Safe := by
  simpa [State.Safe] using h

theorem State.clearSender_safe (s : State) (entry stat : Nat) (h : s.Safe) : (s.clearSender entry stat).Safe := by
  unfold State.clearSender; split
  · exact State.rawWrite_safe _ _ _ _ h
  · exact h

theorem State.commitGranule_safe (s : State) (g v mask holder : Nat) (task : Word) (h : s.Safe) :
    (s.commitGranule g v mask holder task).Safe := by
  have h1 := (s.uncachePhys g).markDirty_safe g holder task (s.uncachePhys_safe g h)
  have h2 : ({ (s.uncachePhys g).markDirty g holder task with
      mem := wrMask ((s.uncachePhys g).markDirty g holder task).mem (g * 32) 32 v mask } : State).Safe :=
    ⟨wrMask_wf 32 _ _ _ _ h1.1, h1.2⟩
  unfold State.commitGranule
  split
  · exact h
  · dsimp only
    repeat' split
    all_goals (try apply State.clearSender_safe); (try apply State.clearSender_safe); exact h2

theorem State.doomAll_safe (s : State) (part : Nat) (asid : BitVec 16) (except : Option Nat) (f : Segment → Segment) (h : s.Safe) :
    (s.doomAll part asid except f).Safe := by
  refine ⟨?_, ?_⟩
  · simpa [State.doomAll] using h.1
  · simpa [State.doomAll, State.modPart] using h.2

theorem State.doomPhys_safe (s : State) (ps : List Nat) (h : s.Safe) : (s.doomPhys ps).Safe :=
  ⟨h.1, by simpa [State.doomPhys] using h.2⟩

theorem State.revoke_safe (s : State) (frame part asid vp : Nat) (h : s.Safe) : (s.revoke frame part asid vp).Safe :=
  State.doomAll_safe _ _ _ _ _ ⟨h.1, h.2⟩

theorem State.tlbUpdate_safe (old s : State) (h : s.Safe) : (old.tlbUpdate s).Safe := by
  have k := foldl_keeps (fun t : State => t.Safe) (fun (t : State) (m : Nat × Nat × Nat × Nat) => match m with
    | (f, p, a, vp) => if revokes (old.walk p a (vp * 0x10000)) (s.walk p a (vp * 0x10000)) then t.revoke f p a vp else t)
    (fun b m hb => by
      dsimp only
      split
      · exact State.revoke_safe _ _ _ _ _ hb
      · exact hb) old.mappings s h
  exact ⟨k.1, k.2⟩

theorem State.commitRaw_safe (s : State) (pa n v : Nat) (h : s.Safe) : (s.commitRaw pa n v).Safe := by
  have h0 := foldl_keeps (fun t : State => t.Safe) State.uncachePhys (fun t g ht => t.uncachePhys_safe g ht) (granulesOf pa n) s h
  have h1 := State.rawWrite_safe _ pa n v h0
  unfold State.commitRaw
  split
  · exact h
  · dsimp only
    repeat' split
    all_goals first
      | exact State.tlbUpdate_safe _ _ ⟨h1.1, h1.2⟩
      | exact ⟨h1.1, h1.2⟩

theorem State.commitBytes_safe (s : State) (pa n v : Nat) (h : s.Safe) : (s.commitBytes pa n v).Safe := by
  have h1 := s.commitRaw_safe pa n v h
  unfold State.commitBytes
  dsimp only
  split
  · exact State.clearSender_safe _ _ _ h1
  · exact h1

theorem State.commitDevice_safe (s : State) (pa n v : Nat) (h : s.Safe) : (s.commitDevice pa n v).Safe :=
  State.doomPhys_safe _ _ (s.commitRaw_safe pa n v h)

theorem State.commitReflected_safe (s : State) (b : Bytes) (g : Nat) (h : s.Safe) : (s.commitReflected b g).Safe := by
  have h1 := s.uncachePhys_safe g h
  unfold State.commitReflected
  split
  · exact h
  · dsimp only
    apply State.doomPhys_safe
    split
    · exact State.tlbUpdate_safe _ _ ⟨wrMask_wf 32 _ _ _ _ h.1, h1.2⟩
    · exact ⟨wrMask_wf 32 _ _ _ _ h.1, h1.2⟩

/-! Save areas (R335, R336, R338). -/

theorem State.logAppend_safe (s : State) (area entry : Nat) (h : s.Safe) : (s.logAppend area entry).1.Safe := by
  unfold State.logAppend
  dsimp only
  split
  · exact State.rawWrite_safe _ _ _ _ (State.rawWrite_safe _ _ _ _ h)
  · exact h

theorem State.writeContext_safe (s : State) (area home : Nat) (l : Slot) (h : s.Safe) : (s.writeContext area home l).Safe := by
  refine ⟨?_, h.2⟩
  unfold State.writeContext
  dsimp only
  split
  · exact writeFields_wf _ _ _ _ (wrN_wf _ _ _ _ (writeFields_wf _ _ _ _ h.1))
  · exact wrN_wf _ _ _ _ (writeFields_wf _ _ _ _ h.1)

theorem State.writeArea_safe (s : State) (area home : Nat) (l : Slot) (halted : Bool) (cause : Nat) (h : s.Safe) :
    (s.writeArea area home l halted cause).Safe := by
  have h0 (a n b m : Nat) : ({ s with mem := wrN (wrN s.mem a n 0) b m 0 } : State).Safe := ⟨wrN_wf _ _ _ _ (wrN_wf _ _ _ _ h.1), h.2⟩
  have h1 := h0 area 0x220 (area + 0x1080) 0xF80
  have h3 := State.rawWrite_safe _ (area + 8) 8 (sstateOf l halted cause 0 l.pend.length) (State.writeContext_safe _ area home l h1)
  refine foldl_keeps (fun t : State => t.Safe) _ (fun b a hb => State.logAppend_safe _ _ _ hb) _ _ ?_
  split
  · exact h3
  · exact foldl_keeps (fun t : State => t.Safe) _ (fun b a hb => State.logAppend_safe _ _ _ hb) _ _ (State.rawWrite_safe _ _ _ _ h3)

theorem State.writeExt_safe (s : State) (ext ls : Nat) (h : s.Safe) : (s.writeExt ext ls).Safe := by
  refine ⟨wrN_wf _ _ _ _ ?_, h.2⟩
  refine foldl_keeps (fun m => Memory.wf m = true) _ (fun m i hm => fwf_fset _ _ _ _ hm) _ _ ?_
  exact foldl_keeps (fun m => Memory.wf m = true) _ (fun m i hm => fwf_fset _ _ _ _ hm) _ _ (wrN_wf _ _ _ _ h.1)

/-! Page exchanges, checkpoints, reset, and the placing of a word. -/

theorem State.swapFrames_safe (s : State) (e : Exchange) (h : s.Safe) : (s.swapFrames e).Safe :=
  ⟨fwf_fswap _ _ _ _ _ (foldl_keeps (fun m => Memory.wf m = true) _ (fun _ _ hm => wrN_wf _ _ _ _ hm) _ _ h.1), h.2⟩

theorem State.copyRange_safe (s : State) (lo dst n : Nat) (h : s.Safe) : (s.copyRange lo dst n).Safe := ⟨fwf_fcopy _ _ _ _ _ h.1, h.2⟩

theorem State.saveImage_safe (s : State) (h : s.Safe) : s.saveImage.Safe := State.copyRange_safe _ _ _ _ (State.copyRange_safe _ _ _ _ h)

theorem State.startCheckpoint_safe (s : State) (h : s.Safe) : s.startCheckpoint.Safe := by
  unfold State.startCheckpoint
  split
  · exact ⟨h.1, h.2⟩
  · have h1 : ({ s with dirty := [] } : State).saveImage.Safe := State.saveImage_safe _ ⟨h.1, h.2⟩
    exact ⟨h1.1, h1.2⟩

theorem State.restoreImage_safe (s : State) (h : s.Safe) : s.restoreImage.Safe := by
  unfold State.restoreImage
  split
  · exact h
  · have h1 := State.copyRange_safe _ (s.dev.ckBase + hbmBytes) 0 nearBytes (s.copyRange_safe s.dev.ckBase hbmBase hbmBytes h)
    exact ⟨h1.1, h1.2⟩

theorem State.blank_safe (s : State) (h : s.Safe) : s.blank.Safe := by
  refine ⟨foldl_keeps (fun m => Memory.wf m = true) _ ?_ s.dirty s.mem h.1, by simp [State.blank, State.reset]⟩
  intro m e hm
  split
  · exact wrN_wf _ _ _ _ hm
  · exact hm

end

end Sys2Proof.Machine
end

