-- ==== Sys2Proof/Laws/PerInstr.lean ====
section
/-! SUPPORT. The family RoundTrip: for each constructor of Instr, decoding the encoder's word gives the instruction back. A step of
the device has no word. -/

section

set_option Elab.async false

namespace Sys2Proof.Laws.RoundTrip

theorem tail53 (x : BitVec 24) (a : BitVec 5) (b : BitVec 3) : fld (x ++ a ++ b) 0 8 = a ++ b := by
  apply BitVec.eq_of_getLsbD_eq
  intro i hi
  have h : i - 3 < 5 := by omega
  simp only [fld, BitVec.getLsbD_extractLsb', BitVec.getLsbD_append]
  simp [hi, h]

theorem tail44 (x : BitVec 24) (a : BitVec 4) (b : BitVec 4) : fld (x ++ a ++ b) 0 8 = a ++ b := by
  apply BitVec.eq_of_getLsbD_eq
  intro i hi
  have h : i - 4 < 4 := by omega
  simp only [fld, BitVec.getLsbD_extractLsb', BitVec.getLsbD_append]
  simp [hi, h]

theorem fld_fld (w : BitVec 32) : fld w 3 5 = (fld w 0 8).extractLsb' 3 5 := by
  apply BitVec.eq_of_getLsbD_eq
  intro i hi
  have h : 3 + i < 8 := by omega
  simp only [fld, BitVec.getLsbD_extractLsb']
  simp [hi, h]

theorem mid62 (x : BitVec 18) (a : BitVec 6) (b : BitVec 2) (c : BitVec 6) : fld (x ++ a ++ b ++ c) 6 8 = a ++ b := by
  apply BitVec.eq_of_getLsbD_eq
  intro i hi
  have h : i - 2 < 6 := by omega
  simp only [fld, BitVec.getLsbD_extractLsb', BitVec.getLsbD_append]
  simp [hi, h]

/-- A well-formed instruction's word decodes to it. -/
def Statement (i : Instr) : Prop := ∀ w, i.wf = true → encode i = some w → decode w = .ok i

theorem add rd ra rb : Statement (.add rd ra rb) := by
  intro w h e
  cases e
  simp_all [-BitVec.reduceAppend, decode, decAlu, decLeaf, Instr.wf]
theorem sub rd ra rb : Statement (.sub rd ra rb) := by
  intro w h e
  cases e
  simp_all [-BitVec.reduceAppend, decode, decAlu, decLeaf, Instr.wf]
theorem and rd ra rb : Statement (.and rd ra rb) := by
  intro w h e
  cases e
  simp_all [-BitVec.reduceAppend, decode, decAlu, decLeaf, Instr.wf]
theorem or rd ra rb : Statement (.or rd ra rb) := by
  intro w h e
  cases e
  simp_all [-BitVec.reduceAppend, decode, decAlu, decLeaf, Instr.wf]
theorem xor rd ra rb : Statement (.xor rd ra rb) := by
  intro w h e
  cases e
  simp_all [-BitVec.reduceAppend, decode, decAlu, decLeaf, Instr.wf]
theorem andn rd ra rb : Statement (.andn rd ra rb) := by
  intro w h e
  cases e
  simp_all [-BitVec.reduceAppend, decode, decAlu, decLeaf, Instr.wf]
theorem orn rd ra rb : Statement (.orn rd ra rb) := by
  intro w h e
  cases e
  simp_all [-BitVec.reduceAppend, decode, decAlu, decLeaf, Instr.wf]
theorem shl rd ra rb : Statement (.shl rd ra rb) := by
  intro w h e
  cases e
  simp_all [-BitVec.reduceAppend, decode, decAlu, decLeaf, Instr.wf]
theorem shr rd ra rb : Statement (.shr rd ra rb) := by
  intro w h e
  cases e
  simp_all [-BitVec.reduceAppend, decode, decAlu, decLeaf, Instr.wf]
theorem sra rd ra rb : Statement (.sra rd ra rb) := by
  intro w h e
  cases e
  simp_all [-BitVec.reduceAppend, decode, decAlu, decLeaf, Instr.wf]
theorem rol rd ra rb : Statement (.rol rd ra rb) := by
  intro w h e
  cases e
  simp_all [-BitVec.reduceAppend, decode, decAlu, decLeaf, Instr.wf]
theorem min rd ra rb : Statement (.min rd ra rb) := by
  intro w h e
  cases e
  simp_all [-BitVec.reduceAppend, decode, decAlu, decLeaf, Instr.wf]
theorem max rd ra rb : Statement (.max rd ra rb) := by
  intro w h e
  cases e
  simp_all [-BitVec.reduceAppend, decode, decAlu, decLeaf, Instr.wf]
theorem minn rd ra rb : Statement (.minn rd ra rb) := by
  intro w h e
  cases e
  simp_all [-BitVec.reduceAppend, decode, decAlu, decLeaf, Instr.wf]
theorem maxn rd ra rb : Statement (.maxn rd ra rb) := by
  intro w h e
  cases e
  simp_all [-BitVec.reduceAppend, decode, decAlu, decLeaf, Instr.wf]
theorem slt rd ra rb : Statement (.slt rd ra rb) := by
  intro w h e
  cases e
  simp_all [-BitVec.reduceAppend, decode, decAlu, decLeaf, Instr.wf]
theorem sltn rd ra rb : Statement (.sltn rd ra rb) := by
  intro w h e
  cases e
  simp_all [-BitVec.reduceAppend, decode, decAlu, decLeaf, Instr.wf]
theorem seq rd ra rb : Statement (.seq rd ra rb) := by
  intro w h e
  cases e
  simp_all [-BitVec.reduceAppend, decode, decAlu, decLeaf, Instr.wf]
theorem clz rd ra : Statement (.clz rd ra) := by
  intro w h e
  cases e
  simp_all [-BitVec.reduceAppend, decode, decAlu, decLeaf, Instr.wf]
theorem ctz rd ra : Statement (.ctz rd ra) := by
  intro w h e
  cases e
  simp_all [-BitVec.reduceAppend, decode, decAlu, decLeaf, Instr.wf]
theorem popc rd ra : Statement (.popc rd ra) := by
  intro w h e
  cases e
  simp_all [-BitVec.reduceAppend, decode, decAlu, decLeaf, Instr.wf]
theorem sext rd ra sz : Statement (.sext rd ra sz) := by
  intro w h e
  cases e
  simp_all [-BitVec.reduceAppend, decode, decAlu, decLeaf, Instr.wf]
theorem zext rd ra sz : Statement (.zext rd ra sz) := by
  intro w h e
  cases e
  simp_all [-BitVec.reduceAppend, decode, decAlu, decLeaf, Instr.wf]
theorem bfx rd ra rb : Statement (.bfx rd ra rb) := by
  intro w h e
  cases e
  simp_all [-BitVec.reduceAppend, decode, decAlu, decLeaf, Instr.wf]
theorem bfxs rd ra rb : Statement (.bfxs rd ra rb) := by
  intro w h e
  cases e
  simp_all [-BitVec.reduceAppend, decode, decAlu, decLeaf, Instr.wf]
theorem bfi rd ra rb : Statement (.bfi rd ra rb) := by
  intro w h e
  cases e
  simp_all [-BitVec.reduceAppend, decode, decAlu, decLeaf, Instr.wf]
theorem csel rd ra rb : Statement (.csel rd ra rb) := by
  intro w h e
  cases e
  simp_all [-BitVec.reduceAppend, decode, decAlu, decLeaf, Instr.wf]
theorem lea rd ra rb sh : Statement (.lea rd ra rb sh) := by
  intro w h e
  cases e
  have hb : (fld (0x1#6 ++ rd ++ ra ++ rb ++ 0xC#6 ++ sh ++ 0x0#6) 6 8).toNat = 48 + sh.toNat := by
    clear h
    rw [mid62 (0x1#6 ++ rd ++ ra ++ rb)]
    revert sh
    decide
  simp_all [-BitVec.reduceAppend, decode, decAlu, decLeaf, Instr.wf]
  split <;> first | omega | rfl
theorem mul rd ra rb : Statement (.mul rd ra rb) := by
  intro w h e
  cases e
  simp_all [-BitVec.reduceAppend, decode, decMul, decLeaf, Instr.wf]
theorem mulh rd ra rb : Statement (.mulh rd ra rb) := by
  intro w h e
  cases e
  simp_all [-BitVec.reduceAppend, decode, decMul, decLeaf, Instr.wf]
theorem mulhn rd ra rb : Statement (.mulhn rd ra rb) := by
  intro w h e
  cases e
  simp_all [-BitVec.reduceAppend, decode, decMul, decLeaf, Instr.wf]
theorem div rd ra rb : Statement (.div rd ra rb) := by
  intro w h e
  cases e
  simp_all [-BitVec.reduceAppend, decode, decMul, decLeaf, Instr.wf]
theorem divn rd ra rb : Statement (.divn rd ra rb) := by
  intro w h e
  cases e
  simp_all [-BitVec.reduceAppend, decode, decMul, decLeaf, Instr.wf]
theorem rem rd ra rb : Statement (.rem rd ra rb) := by
  intro w h e
  cases e
  simp_all [-BitVec.reduceAppend, decode, decMul, decLeaf, Instr.wf]
theorem remn rd ra rb : Statement (.remn rd ra rb) := by
  intro w h e
  cases e
  simp_all [-BitVec.reduceAppend, decode, decMul, decLeaf, Instr.wf]
theorem addi rd ra imm : Statement (.addi rd ra imm) := by
  intro w h e
  cases e
  simp_all [-BitVec.reduceAppend, decode, decLeaf, Instr.wf]
theorem andi rd ra imm : Statement (.andi rd ra imm) := by
  intro w h e
  cases e
  simp_all [-BitVec.reduceAppend, decode, decLeaf, Instr.wf]
theorem ori rd ra imm : Statement (.ori rd ra imm) := by
  intro w h e
  cases e
  simp_all [-BitVec.reduceAppend, decode, decLeaf, Instr.wf]
theorem xori rd ra imm : Statement (.xori rd ra imm) := by
  intro w h e
  cases e
  simp_all [-BitVec.reduceAppend, decode, decLeaf, Instr.wf]
theorem slti rd ra imm : Statement (.slti rd ra imm) := by
  intro w h e
  cases e
  simp_all [-BitVec.reduceAppend, decode, decLeaf, Instr.wf]
theorem sltni rd ra imm : Statement (.sltni rd ra imm) := by
  intro w h e
  cases e
  simp_all [-BitVec.reduceAppend, decode, decLeaf, Instr.wf]
theorem shli rd ra n : Statement (.shli rd ra n) := by
  intro w h e
  cases e
  simp_all [-BitVec.reduceAppend, decode, decShift, decLeaf, Instr.wf]
theorem shri rd ra n : Statement (.shri rd ra n) := by
  intro w h e
  cases e
  simp_all [-BitVec.reduceAppend, decode, decShift, decLeaf, Instr.wf]
theorem srai rd ra n : Statement (.srai rd ra n) := by
  intro w h e
  cases e
  simp_all [-BitVec.reduceAppend, decode, decShift, decLeaf, Instr.wf]
theorem lih rd ra imm : Statement (.lih rd ra imm) := by
  intro w h e
  cases e
  simp_all [-BitVec.reduceAppend, decode, decShift, decLeaf, Instr.wf]
theorem bEq ra rb off : Statement (.bEq ra rb off) := by
  intro w h e
  cases e
  simp_all [-BitVec.reduceAppend, decode, decBranch, decLeaf, Instr.wf]
theorem bNe ra rb off : Statement (.bNe ra rb off) := by
  intro w h e
  cases e
  simp_all [-BitVec.reduceAppend, decode, decBranch, decLeaf, Instr.wf]
theorem bLt ra rb off : Statement (.bLt ra rb off) := by
  intro w h e
  cases e
  simp_all [-BitVec.reduceAppend, decode, decBranch, decLeaf, Instr.wf]
theorem bGe ra rb off : Statement (.bGe ra rb off) := by
  intro w h e
  cases e
  simp_all [-BitVec.reduceAppend, decode, decBranch, decLeaf, Instr.wf]
theorem bLtn ra rb off : Statement (.bLtn ra rb off) := by
  intro w h e
  cases e
  simp_all [-BitVec.reduceAppend, decode, decBranch, decLeaf, Instr.wf]
theorem bGen ra rb off : Statement (.bGen ra rb off) := by
  intro w h e
  cases e
  simp_all [-BitVec.reduceAppend, decode, decBranch, decLeaf, Instr.wf]
theorem j off : Statement (.j off) := by
  intro w h e
  cases e
  simp_all [-BitVec.reduceAppend, decode, decLeaf, Instr.wf]
theorem jal off : Statement (.jal off) := by
  intro w h e
  cases e
  simp_all [-BitVec.reduceAppend, decode, decLeaf, Instr.wf]
theorem jalr rd ra imm : Statement (.jalr rd ra imm) := by
  intro w h e
  cases e
  simp_all [-BitVec.reduceAppend, decode, decJalr, Instr.wf]
theorem jr ra imm : Statement (.jr ra imm) := by
  intro w h e
  cases e
  simp_all [-BitVec.reduceAppend, decode, decJalr, Instr.wf]
theorem loop ra off : Statement (.loop ra off) := by
  intro w h e
  cases e
  simp_all [-BitVec.reduceAppend, decode, decLeaf, Instr.wf]
theorem ld rd ra sz ord sp off : Statement (.ld rd ra sz ord sp off) := by
  intro w h e
  cases e
  by_cases hs : sp = 0#2 <;> simp_all [-BitVec.reduceAppend, decode, decLd, decLeaf, Instr.wf]
theorem st rd ra sz ord sp off : Statement (.st rd ra sz ord sp off) := by
  intro w h e
  cases e
  by_cases hs : sp = 0#2 <;> simp_all [-BitVec.reduceAppend, decode, decSt, decLeaf, Instr.wf]
theorem pf ra off : Statement (.pf ra off) := by
  intro w h e
  cases e
  simp_all [-BitVec.reduceAppend, decode, decCache, decLeaf, Instr.wf]
theorem cfl ra off : Statement (.cfl ra off) := by
  intro w h e
  cases e
  simp_all [-BitVec.reduceAppend, decode, decCache, decLeaf, Instr.wf]
theorem cinv ra off : Statement (.cinv ra off) := by
  intro w h e
  cases e
  simp_all [-BitVec.reduceAppend, decode, decCache, decLeaf, Instr.wf]
theorem amoAdd rd ra rb ord dw : Statement (.amoAdd rd ra rb ord dw) := by
  intro w h e
  cases e
  simp_all [-BitVec.reduceAppend, decode, decAmo, decLeaf, Instr.wf]
theorem amoAnd rd ra rb ord dw : Statement (.amoAnd rd ra rb ord dw) := by
  intro w h e
  cases e
  simp_all [-BitVec.reduceAppend, decode, decAmo, decLeaf, Instr.wf]
theorem amoOr rd ra rb ord dw : Statement (.amoOr rd ra rb ord dw) := by
  intro w h e
  cases e
  simp_all [-BitVec.reduceAppend, decode, decAmo, decLeaf, Instr.wf]
theorem amoXor rd ra rb ord dw : Statement (.amoXor rd ra rb ord dw) := by
  intro w h e
  cases e
  simp_all [-BitVec.reduceAppend, decode, decAmo, decLeaf, Instr.wf]
theorem amoMin rd ra rb ord dw : Statement (.amoMin rd ra rb ord dw) := by
  intro w h e
  cases e
  simp_all [-BitVec.reduceAppend, decode, decAmo, decLeaf, Instr.wf]
theorem amoMax rd ra rb ord dw : Statement (.amoMax rd ra rb ord dw) := by
  intro w h e
  cases e
  simp_all [-BitVec.reduceAppend, decode, decAmo, decLeaf, Instr.wf]
theorem amoMinn rd ra rb ord dw : Statement (.amoMinn rd ra rb ord dw) := by
  intro w h e
  cases e
  simp_all [-BitVec.reduceAppend, decode, decAmo, decLeaf, Instr.wf]
theorem amoMaxn rd ra rb ord dw : Statement (.amoMaxn rd ra rb ord dw) := by
  intro w h e
  cases e
  simp_all [-BitVec.reduceAppend, decode, decAmo, decLeaf, Instr.wf]
theorem amoSwap rd ra rb ord dw : Statement (.amoSwap rd ra rb ord dw) := by
  intro w h e
  cases e
  simp_all [-BitVec.reduceAppend, decode, decAmo, decLeaf, Instr.wf]
theorem cas rd ra rb ord dw : Statement (.cas rd ra rb ord dw) := by
  intro w h e
  cases e
  simp_all [-BitVec.reduceAppend, decode, decAmo, decLeaf, Instr.wf]
theorem mopRedAdd ra rb dw : Statement (.mopRedAdd ra rb dw) := by
  intro w h e
  cases e
  simp_all [-BitVec.reduceAppend, decode, decMop, decRed, decLeaf, Instr.wf]
theorem mopRedAnd ra rb dw : Statement (.mopRedAnd ra rb dw) := by
  intro w h e
  cases e
  simp_all [-BitVec.reduceAppend, decode, decMop, decRed, decLeaf, Instr.wf]
theorem mopRedOr ra rb dw : Statement (.mopRedOr ra rb dw) := by
  intro w h e
  cases e
  simp_all [-BitVec.reduceAppend, decode, decMop, decRed, decLeaf, Instr.wf]
theorem mopRedXor ra rb dw : Statement (.mopRedXor ra rb dw) := by
  intro w h e
  cases e
  simp_all [-BitVec.reduceAppend, decode, decMop, decRed, decLeaf, Instr.wf]
theorem mopRedMin ra rb dw : Statement (.mopRedMin ra rb dw) := by
  intro w h e
  cases e
  simp_all [-BitVec.reduceAppend, decode, decMop, decRed, decLeaf, Instr.wf]
theorem mopRedMax ra rb dw : Statement (.mopRedMax ra rb dw) := by
  intro w h e
  cases e
  simp_all [-BitVec.reduceAppend, decode, decMop, decRed, decLeaf, Instr.wf]
theorem mopRedMinn ra rb dw : Statement (.mopRedMinn ra rb dw) := by
  intro w h e
  cases e
  simp_all [-BitVec.reduceAppend, decode, decMop, decRed, decLeaf, Instr.wf]
theorem mopRedMaxn ra rb dw : Statement (.mopRedMaxn ra rb dw) := by
  intro w h e
  cases e
  simp_all [-BitVec.reduceAppend, decode, decMop, decRed, decLeaf, Instr.wf]
theorem mopCas rd ra rb dw : Statement (.mopCas rd ra rb dw) := by
  intro w h e
  cases e
  simp_all [-BitVec.reduceAppend, decode, decMop, decLeaf, Instr.wf]
theorem mopSac rd ra rb dw : Statement (.mopSac rd ra rb dw) := by
  intro w h e
  cases e
  simp_all [-BitVec.reduceAppend, decode, decMop, decLeaf, Instr.wf]
theorem gth rd ra rb : Statement (.gth rd ra rb) := by
  intro w h e
  cases e
  simp_all [-BitVec.reduceAppend, decode, decMop, decLeaf, Instr.wf]
theorem fence : Statement (.fence) := by
  intro w h e
  cases e
  simp_all [-BitVec.reduceAppend, decode, decSync, decLeaf, Instr.wf]
theorem fenceG : Statement (.fenceG) := by
  intro w h e
  cases e
  simp_all [-BitVec.reduceAppend, decode, decSync, decLeaf, Instr.wf]
theorem fenceB : Statement (.fenceB) := by
  intro w h e
  cases e
  simp_all [-BitVec.reduceAppend, decode, decSync, decLeaf, Instr.wf]
theorem commit : Statement (.commit) := by
  intro w h e
  cases e
  simp_all [-BitVec.reduceAppend, decode, decSync, decLeaf, Instr.wf]
theorem waita rd ra rb : Statement (.waita rd ra rb) := by
  intro w h e
  cases e
  simp_all [-BitVec.reduceAppend, decode, decSync, decLeaf, Instr.wf]
theorem waitany rd ra : Statement (.waitany rd ra) := by
  intro w h e
  cases e
  simp_all [-BitVec.reduceAppend, decode, decSync, decLeaf, Instr.wf]
theorem refl rd : Statement (.refl rd) := by
  intro w h e
  cases e
  simp_all [-BitVec.reduceAppend, decode, decSync, decLeaf, Instr.wf]
theorem vadd vd va vb km : Statement (.vadd vd va vb km) := by
  intro w h e
  cases e
  simp_all [-BitVec.reduceAppend, decode, decV18, decLeaf, Instr.wf]
theorem vsub vd va vb km : Statement (.vsub vd va vb km) := by
  intro w h e
  cases e
  simp_all [-BitVec.reduceAppend, decode, decV18, decLeaf, Instr.wf]
theorem vmul vd va vb km : Statement (.vmul vd va vb km) := by
  intro w h e
  cases e
  simp_all [-BitVec.reduceAppend, decode, decV18, decLeaf, Instr.wf]
theorem vmin vd va vb km : Statement (.vmin vd va vb km) := by
  intro w h e
  cases e
  simp_all [-BitVec.reduceAppend, decode, decV18, decLeaf, Instr.wf]
theorem vmax vd va vb km : Statement (.vmax vd va vb km) := by
  intro w h e
  cases e
  simp_all [-BitVec.reduceAppend, decode, decV18, decLeaf, Instr.wf]
theorem vabs vd va km : Statement (.vabs vd va km) := by
  intro w h e
  cases e
  simp_all [-BitVec.reduceAppend, decode, decV18, decLeaf, Instr.wf]
theorem vneg vd va km : Statement (.vneg vd va km) := by
  intro w h e
  cases e
  simp_all [-BitVec.reduceAppend, decode, decV18, decLeaf, Instr.wf]
theorem vfma vd va vb km n : Statement (.vfma vd va vb km n) := by
  intro w h e
  cases e
  have hb : (fld (0x18#6 ++ vd ++ va ++ vb ++ km ++ 0x4#5 ++ n) 0 8).toNat = 32 + n.toNat := by
    clear h
    rw [tail53 (0x18#6 ++ vd ++ va ++ vb ++ km)]
    revert n
    decide
  simp_all [-BitVec.reduceAppend, decode, decV18, decLeaf, Instr.wf]
  split <;> first | omega | rfl
theorem vand vd va vb km : Statement (.vand vd va vb km) := by
  intro w h e
  cases e
  simp_all [-BitVec.reduceAppend, decode, decV18, decLeaf, Instr.wf]
theorem vor vd va vb km : Statement (.vor vd va vb km) := by
  intro w h e
  cases e
  simp_all [-BitVec.reduceAppend, decode, decV18, decLeaf, Instr.wf]
theorem vxor vd va vb km : Statement (.vxor vd va vb km) := by
  intro w h e
  cases e
  simp_all [-BitVec.reduceAppend, decode, decV18, decLeaf, Instr.wf]
theorem vshl vd va vb km : Statement (.vshl vd va vb km) := by
  intro w h e
  cases e
  simp_all [-BitVec.reduceAppend, decode, decV18, decLeaf, Instr.wf]
theorem vshr vd va vb km : Statement (.vshr vd va vb km) := by
  intro w h e
  cases e
  simp_all [-BitVec.reduceAppend, decode, decV18, decLeaf, Instr.wf]
theorem vsra vd va vb km : Statement (.vsra vd va vb km) := by
  intro w h e
  cases e
  simp_all [-BitVec.reduceAppend, decode, decV18, decLeaf, Instr.wf]
theorem vcmpEq kd va vb km : Statement (.vcmpEq kd va vb km) := by
  intro w h e
  cases e
  simp_all [-BitVec.reduceAppend, decode, decV19, decLeaf, Instr.wf]
theorem vcmpNe kd va vb km : Statement (.vcmpNe kd va vb km) := by
  intro w h e
  cases e
  simp_all [-BitVec.reduceAppend, decode, decV19, decLeaf, Instr.wf]
theorem vcmpLt kd va vb km : Statement (.vcmpLt kd va vb km) := by
  intro w h e
  cases e
  simp_all [-BitVec.reduceAppend, decode, decV19, decLeaf, Instr.wf]
theorem vcmpLe kd va vb km : Statement (.vcmpLe kd va vb km) := by
  intro w h e
  cases e
  simp_all [-BitVec.reduceAppend, decode, decV19, decLeaf, Instr.wf]
theorem vcmpGt kd va vb km : Statement (.vcmpGt kd va vb km) := by
  intro w h e
  cases e
  simp_all [-BitVec.reduceAppend, decode, decV19, decLeaf, Instr.wf]
theorem vcmpGe kd va vb km : Statement (.vcmpGe kd va vb km) := by
  intro w h e
  cases e
  simp_all [-BitVec.reduceAppend, decode, decV19, decLeaf, Instr.wf]
theorem vsel vd va vb km n : Statement (.vsel vd va vb km n) := by
  intro w h e
  cases e
  have hb : (fld (0x19#6 ++ vd ++ va ++ vb ++ km ++ 0x1#5 ++ n) 0 8).toNat = 8 + n.toNat := by
    clear h
    rw [tail53 (0x19#6 ++ vd ++ va ++ vb ++ km)]
    revert n
    decide
  simp_all [-BitVec.reduceAppend, decode, decV19, decLeaf, Instr.wf]
  split <;> first | omega | rfl
theorem vmov vd va km : Statement (.vmov vd va km) := by
  intro w h e
  cases e
  simp_all [-BitVec.reduceAppend, decode, decV19, decLeaf, Instr.wf]
theorem vidx vd km : Statement (.vidx vd km) := by
  intro w h e
  cases e
  simp_all [-BitVec.reduceAppend, decode, decV19, decLeaf, Instr.wf]
theorem vbc vd ra km tg : Statement (.vbc vd ra km tg) := by
  intro w h e
  cases e
  have hb : (fld (0x19#6 ++ vd ++ 0x0#1 ++ ra ++ 0x0#5 ++ km ++ 0x2#4 ++ tg) 0 8).toNat = 32 + tg.toNat := by
    clear h
    rw [tail44 (0x19#6 ++ vd ++ 0x0#1 ++ ra ++ 0x0#5 ++ km)]
    revert tg
    decide
  have hc : fld (0x19#6 ++ vd ++ 0x0#1 ++ ra ++ 0x0#5 ++ km ++ 0x2#4 ++ tg) 3 5 ≠ 1#5 := by
    clear h hb
    rw [fld_fld, tail44 (0x19#6 ++ vd ++ 0x0#1 ++ ra ++ 0x0#5 ++ km)]
    revert tg
    decide
  simp_all [-BitVec.reduceAppend, decode, decV19, decLeaf, Instr.wf]
  split <;> first | omega | rfl
theorem vext rd va lane : Statement (.vext rd va lane) := by
  intro w h e
  cases e
  simp_all [-BitVec.reduceAppend, decode, decV19, decLeaf, Instr.wf]
theorem vcvt vd va km tg : Statement (.vcvt vd va km tg) := by
  intro w h e
  cases e
  have hb : (fld (0x1A#6 ++ vd ++ va ++ 0x0#5 ++ km ++ 0x0#4 ++ tg) 0 8).toNat = tg.toNat := by
    clear h
    rw [tail44 (0x1A#6 ++ vd ++ va ++ 0x0#5 ++ km)]
    revert tg
    decide
  simp_all [-BitVec.reduceAppend, decode, decV1a, decLeaf, Instr.wf]
  split <;> first | omega | rfl
theorem vqnt vd va vb tg : Statement (.vqnt vd va vb tg) := by
  intro w h e
  cases e
  have hb : (fld (0x1A#6 ++ vd ++ va ++ vb ++ 0x0#3 ++ 0x1#4 ++ tg) 0 8).toNat = 16 + tg.toNat := by
    clear h
    rw [tail44 (0x1A#6 ++ vd ++ va ++ vb ++ 0x0#3)]
    revert tg
    decide
  simp_all [-BitVec.reduceAppend, decode, decV1a, decLeaf, Instr.wf]
  split <;> first | omega | rfl
theorem vdq vd va vb km : Statement (.vdq vd va vb km) := by
  intro w h e
  cases e
  simp_all [-BitVec.reduceAppend, decode, decV1a, decLeaf, Instr.wf]
theorem vcbd vd va vb km : Statement (.vcbd vd va vb km) := by
  intro w h e
  cases e
  simp_all [-BitVec.reduceAppend, decode, decV1a, decLeaf, Instr.wf]
theorem vpack vd va vb km : Statement (.vpack vd va vb km) := by
  intro w h e
  cases e
  simp_all [-BitVec.reduceAppend, decode, decV1a, decLeaf, Instr.wf]
theorem vunpkL vd va km : Statement (.vunpkL vd va km) := by
  intro w h e
  cases e
  simp_all [-BitVec.reduceAppend, decode, decV1a, decLeaf, Instr.wf]
theorem vunpkH vd va km : Statement (.vunpkH vd va km) := by
  intro w h e
  cases e
  simp_all [-BitVec.reduceAppend, decode, decV1a, decLeaf, Instr.wf]
theorem vredAdd vd va km : Statement (.vredAdd vd va km) := by
  intro w h e
  cases e
  simp_all [-BitVec.reduceAppend, decode, decV1b, decLeaf, Instr.wf]
theorem vredMin vd va km : Statement (.vredMin vd va km) := by
  intro w h e
  cases e
  simp_all [-BitVec.reduceAppend, decode, decV1b, decLeaf, Instr.wf]
theorem vredMax vd va km : Statement (.vredMax vd va km) := by
  intro w h e
  cases e
  simp_all [-BitVec.reduceAppend, decode, decV1b, decLeaf, Instr.wf]
theorem vredAnd vd va km : Statement (.vredAnd vd va km) := by
  intro w h e
  cases e
  simp_all [-BitVec.reduceAppend, decode, decV1b, decLeaf, Instr.wf]
theorem vredOr vd va km : Statement (.vredOr vd va km) := by
  intro w h e
  cases e
  simp_all [-BitVec.reduceAppend, decode, decV1b, decLeaf, Instr.wf]
theorem vredXor vd va km : Statement (.vredXor vd va km) := by
  intro w h e
  cases e
  simp_all [-BitVec.reduceAppend, decode, decV1b, decLeaf, Instr.wf]
theorem vscanAdd vd va km : Statement (.vscanAdd vd va km) := by
  intro w h e
  cases e
  simp_all [-BitVec.reduceAppend, decode, decV1b, decLeaf, Instr.wf]
theorem vscanMin vd va km : Statement (.vscanMin vd va km) := by
  intro w h e
  cases e
  simp_all [-BitVec.reduceAppend, decode, decV1b, decLeaf, Instr.wf]
theorem vscanMax vd va km : Statement (.vscanMax vd va km) := by
  intro w h e
  cases e
  simp_all [-BitVec.reduceAppend, decode, decV1b, decLeaf, Instr.wf]
theorem vscanAnd vd va km : Statement (.vscanAnd vd va km) := by
  intro w h e
  cases e
  simp_all [-BitVec.reduceAppend, decode, decV1b, decLeaf, Instr.wf]
theorem vscanOr vd va km : Statement (.vscanOr vd va km) := by
  intro w h e
  cases e
  simp_all [-BitVec.reduceAppend, decode, decV1b, decLeaf, Instr.wf]
theorem vscanXor vd va km : Statement (.vscanXor vd va km) := by
  intro w h e
  cases e
  simp_all [-BitVec.reduceAppend, decode, decV1b, decLeaf, Instr.wf]
theorem vperm vd va vb km : Statement (.vperm vd va vb km) := by
  intro w h e
  cases e
  simp_all [-BitVec.reduceAppend, decode, decV1b, decLeaf, Instr.wf]
theorem vshf vd va n km : Statement (.vshf vd va n km) := by
  intro w h e
  cases e
  simp_all [-BitVec.reduceAppend, decode, decV1b, decLeaf, Instr.wf]
theorem vrcp vd va km : Statement (.vrcp vd va km) := by
  intro w h e
  cases e
  simp_all [-BitVec.reduceAppend, decode, decV1c, decLeaf, Instr.wf]
theorem vrsq vd va km : Statement (.vrsq vd va km) := by
  intro w h e
  cases e
  simp_all [-BitVec.reduceAppend, decode, decV1c, decLeaf, Instr.wf]
theorem vex2 vd va km : Statement (.vex2 vd va km) := by
  intro w h e
  cases e
  simp_all [-BitVec.reduceAppend, decode, decV1c, decLeaf, Instr.wf]
theorem vlg2 vd va km : Statement (.vlg2 vd va km) := by
  intro w h e
  cases e
  simp_all [-BitVec.reduceAppend, decode, decV1c, decLeaf, Instr.wf]
theorem kand kd ka kb : Statement (.kand kd ka kb) := by
  intro w h e
  cases e
  simp_all [-BitVec.reduceAppend, decode, decV1f, decLeaf, Instr.wf]
theorem kor kd ka kb : Statement (.kor kd ka kb) := by
  intro w h e
  cases e
  simp_all [-BitVec.reduceAppend, decode, decV1f, decLeaf, Instr.wf]
theorem kxor kd ka kb : Statement (.kxor kd ka kb) := by
  intro w h e
  cases e
  simp_all [-BitVec.reduceAppend, decode, decV1f, decLeaf, Instr.wf]
theorem knot kd ka : Statement (.knot kd ka) := by
  intro w h e
  cases e
  simp_all [-BitVec.reduceAppend, decode, decV1f, decLeaf, Instr.wf]
theorem kmovMaskToMask kd ka : Statement (.kmovMaskToMask kd ka) := by
  intro w h e
  cases e
  simp_all [-BitVec.reduceAppend, decode, decV1f, decLeaf, Instr.wf]
theorem kmovScalarToMask kd ra : Statement (.kmovScalarToMask kd ra) := by
  intro w h e
  cases e
  simp_all [-BitVec.reduceAppend, decode, decV1f, decLeaf, Instr.wf]
theorem kmovMaskToScalar rd ka : Statement (.kmovMaskToScalar rd ka) := by
  intro w h e
  cases e
  simp_all [-BitVec.reduceAppend, decode, decV1f, decLeaf, Instr.wf]
theorem kpop rd ka : Statement (.kpop rd ka) := by
  intro w h e
  cases e
  simp_all [-BitVec.reduceAppend, decode, decV1f, decLeaf, Instr.wf]
theorem kff rd ka : Statement (.kff rd ka) := by
  intro w h e
  cases e
  simp_all [-BitVec.reduceAppend, decode, decV1f, decLeaf, Instr.wf]
theorem vld vt ra km sp off : Statement (.vld vt ra km sp off) := by
  intro w h e
  cases e
  simp_all [-BitVec.reduceAppend, decode, decVld, decLeaf, Instr.wf]
theorem vlds vt ra ix km sp off : Statement (.vlds vt ra ix km sp off) := by
  intro w h e
  cases e
  simp_all [-BitVec.reduceAppend, decode, decVld, decLeaf, Instr.wf]
theorem vgth vt ra ix km sp off : Statement (.vgth vt ra ix km sp off) := by
  intro w h e
  cases e
  simp_all [-BitVec.reduceAppend, decode, decVld, decLeaf, Instr.wf]
theorem vst vt ra km sp off : Statement (.vst vt ra km sp off) := by
  intro w h e
  cases e
  simp_all [-BitVec.reduceAppend, decode, decVst, decLeaf, Instr.wf]
theorem vsts vt ra ix km sp off : Statement (.vsts vt ra ix km sp off) := by
  intro w h e
  cases e
  simp_all [-BitVec.reduceAppend, decode, decVst, decLeaf, Instr.wf]
theorem vsct vt ra ix km sp off : Statement (.vsct vt ra ix km sp off) := by
  intro w h e
  cases e
  simp_all [-BitVec.reduceAppend, decode, decVst, decLeaf, Instr.wf]
theorem mxp qa qc n rs chain : Statement (.mxp qa qc n rs chain) := by
  intro w h e
  cases e
  by_cases hc : chain = 1#1 <;> simp_all [-BitVec.reduceAppend, decode, decT20, decLeaf, Instr.wf]
theorem dec qa n rs toBank wf : Statement (.dec qa n rs toBank wf) := by
  intro w h e
  cases e
  simp_all [-BitVec.reduceAppend, decode, decT20, decLeaf, Instr.wf]
theorem phld qa n swap : Statement (.phld qa n swap) := by
  intro w h e
  cases e
  simp_all [-BitVec.reduceAppend, decode, decT20, decLeaf, Instr.wf]
theorem phsw settle : Statement (.phsw settle) := by
  intro w h e
  cases e
  simp_all [-BitVec.reduceAppend, decode, decT20, decLeaf, Instr.wf]
theorem phrd qc rs : Statement (.phrd qc rs) := by
  intro w h e
  cases e
  simp_all [-BitVec.reduceAppend, decode, decT20, decLeaf, Instr.wf]
theorem phwr qa n rs : Statement (.phwr qa n rs) := by
  intro w h e
  cases e
  simp_all [-BitVec.reduceAppend, decode, decT20, decLeaf, Instr.wf]
theorem unf qa qc n rs adv : Statement (.unf qa qc n rs adv) := by
  intro w h e
  cases e
  simp_all [-BitVec.reduceAppend, decode, decT20, decLeaf, Instr.wf]
theorem accrd qc rs clr tg : Statement (.accrd qc rs clr tg) := by
  intro w h e
  cases e
  simp_all [-BitVec.reduceAppend, decode, decT20, decLeaf, Instr.wf]
  intro a b c
  simp_all
theorem accclr rs cntOnly : Statement (.accclr rs cntOnly) := by
  intro w h e
  cases e
  simp_all [-BitVec.reduceAppend, decode, decT20, decLeaf, Instr.wf]
theorem accpro rs rescale : Statement (.accpro rs rescale) := by
  intro w h e
  cases e
  simp_all [-BitVec.reduceAppend, decode, decT20, decLeaf, Instr.wf]
theorem accexp qc rs clr tg : Statement (.accexp qc rs clr tg) := by
  intro w h e
  cases e
  simp_all [-BitVec.reduceAppend, decode, decT20, decLeaf, Instr.wf]
theorem cntrd rs : Statement (.cntrd rs) := by
  intro w h e
  cases e
  simp_all [-BitVec.reduceAppend, decode, decT20, decLeaf, Instr.wf]
theorem probe full : Statement (.probe full) := by
  intro w h e
  cases e
  simp_all [-BitVec.reduceAppend, decode, decT20, decLeaf, Instr.wf]
theorem qcfg qa rs : Statement (.qcfg qa rs) := by
  intro w h e
  cases e
  simp_all [-BitVec.reduceAppend, decode, decT21, decLeaf, Instr.wf]
theorem qadvP qa n : Statement (.qadvP qa n) := by
  intro w h e
  cases e
  simp_all [-BitVec.reduceAppend, decode, decT21, decLeaf, Instr.wf]
theorem qadvC qa n : Statement (.qadvC qa n) := by
  intro w h e
  cases e
  simp_all [-BitVec.reduceAppend, decode, decT21, decLeaf, Instr.wf]
theorem qstat qa rs : Statement (.qstat qa rs) := by
  intro w h e
  cases e
  simp_all [-BitVec.reduceAppend, decode, decT21, decLeaf, Instr.wf]
theorem qwait qa n : Statement (.qwait qa n) := by
  intro w h e
  cases e
  simp_all [-BitVec.reduceAppend, decode, decT21, decLeaf, Instr.wf]
theorem cpy ch rd ra rb att bn : Statement (.cpy ch rd ra rb att bn) := by
  intro w h e
  cases e
  by_cases ha : att = 1#1 <;> simp_all [-BitVec.reduceAppend, decode, decCpy, decLeaf, Instr.wf]
theorem cpyStep ch ra : Statement (.cpyStep ch ra) := by
  intro w h e
  cases e
  simp_all [-BitVec.reduceAppend, decode, decCpy, decLeaf, Instr.wf]
theorem cpyWm ch ra : Statement (.cpyWm ch ra) := by
  intro w h e
  cases e
  simp_all [-BitVec.reduceAppend, decode, decCpy, decLeaf, Instr.wf]
theorem cpySum ch rd : Statement (.cpySum ch rd) := by
  intro w h e
  cases e
  simp_all [-BitVec.reduceAppend, decode, decCpy, decLeaf, Instr.wf]
theorem cpyStop ch : Statement (.cpyStop ch) := by
  intro w h e
  cases e
  simp_all [-BitVec.reduceAppend, decode, decCpy, decLeaf, Instr.wf]
theorem sendReq rd ra rb k att bn : Statement (.sendReq rd ra rb k att bn) := by
  intro w h e
  cases e
  by_cases ha : att = 1#1 <;> simp_all [-BitVec.reduceAppend, decode, decSend, decLeaf, Instr.wf]
theorem sendRpy rd ra rb k att bn : Statement (.sendRpy rd ra rb k att bn) := by
  intro w h e
  cases e
  by_cases ha : att = 1#1 <;> simp_all [-BitVec.reduceAppend, decode, decSend, decLeaf, Instr.wf]
theorem migr ra : Statement (.migr ra) := by
  intro w h e
  cases e
  simp_all [-BitVec.reduceAppend, decode, decTask, decLeaf, Instr.wf]
theorem fork rd ra rb att bn : Statement (.fork rd ra rb att bn) := by
  intro w h e
  cases e
  by_cases ha : att = 1#1 <;> simp_all [-BitVec.reduceAppend, decode, decTask, decLeaf, Instr.wf]
theorem join ra : Statement (.join ra) := by
  intro w h e
  cases e
  simp_all [-BitVec.reduceAppend, decode, decTask, decLeaf, Instr.wf]
theorem tend : Statement (.tend) := by
  intro w h e
  cases e
  simp_all [-BitVec.reduceAppend, decode, decTask, decLeaf, Instr.wf]
theorem yield : Statement (.yield) := by
  intro w h e
  cases e
  simp_all [-BitVec.reduceAppend, decode, decTask, decLeaf, Instr.wf]
theorem spawn rd ra rb : Statement (.spawn rd ra rb) := by
  intro w h e
  cases e
  simp_all [-BitVec.reduceAppend, decode, decTask, decLeaf, Instr.wf]
theorem srr rd sr : Statement (.srr rd sr) := by
  intro w h e
  cases e
  simp_all [-BitVec.reduceAppend, decode, decSysReg, decLeaf, Instr.wf]
theorem srw ra sr : Statement (.srw ra sr) := by
  intro w h e
  cases e
  simp_all [-BitVec.reduceAppend, decode, decSysReg, decLeaf, Instr.wf]
theorem trap n : Statement (.trap n) := by
  intro w h e
  cases e
  simp_all [-BitVec.reduceAppend, decode, decSys, decLeaf, Instr.wf]
theorem eret : Statement (.eret) := by
  intro w h e
  cases e
  simp_all [-BitVec.reduceAppend, decode, decSys, decLeaf, Instr.wf]
theorem bkpt : Statement (.bkpt) := by
  intro w h e
  cases e
  simp_all [-BitVec.reduceAppend, decode, decSys, decLeaf, Instr.wf]
theorem time rd : Statement (.time rd) := by
  intro w h e
  cases e
  simp_all [-BitVec.reduceAppend, decode, decSys, decLeaf, Instr.wf]
theorem idle : Statement (.idle) := by
  intro w h e
  cases e
  simp_all [-BitVec.reduceAppend, decode, decSys, decLeaf, Instr.wf]
theorem limmA payload : Statement (.limmA payload) := by
  intro w h e
  cases e
  simp_all [-BitVec.reduceAppend, decode, decHint, decLeaf, Instr.wf]
theorem limmB payload : Statement (.limmB payload) := by
  intro w h e
  cases e
  simp_all [-BitVec.reduceAppend, decode, decHint, decLeaf, Instr.wf]
theorem round mode : Statement (.round mode) := by
  intro w h e
  cases e
  simp_all [-BitVec.reduceAppend, decode, decHint, decLeaf, Instr.wf]
theorem sat code : Statement (.sat code) := by
  intro w h e
  cases e
  simp_all [-BitVec.reduceAppend, decode, decHint, decLeaf, Instr.wf]
theorem scope code : Statement (.scope code) := by
  intro w h e
  cases e
  simp_all [-BitVec.reduceAppend, decode, decHint, decLeaf, Instr.wf]
theorem prio : Statement (.prio) := by
  intro w h e
  cases e
  simp_all [-BitVec.reduceAppend, decode, decHint, decLeaf, Instr.wf]
theorem cache policy : Statement (.cache policy) := by
  intro w h e
  cases e
  simp_all [-BitVec.reduceAppend, decode, decHint, decLeaf, Instr.wf]
theorem waitn count : Statement (.waitn count) := by
  intro w h e
  cases e
  simp_all [-BitVec.reduceAppend, decode, decHint, decLeaf, Instr.wf]
theorem gangBarrierComplete x0 x1 : Statement (.gangBarrierComplete x0 x1) := by intro _ _ h; cases h
theorem gangTimeout x0 x1 : Statement (.gangTimeout x0 x1) := by intro _ _ h; cases h
theorem mxpSlotComplete x0 x1 : Statement (.mxpSlotComplete x0 x1) := by intro _ _ h; cases h
theorem decBlockComplete x0 x1 : Statement (.decBlockComplete x0 x1) := by intro _ _ h; cases h
theorem omuSettleEnd x0 : Statement (.omuSettleEnd x0) := by intro _ _ h; cases h
theorem pilot x0 x1 : Statement (.pilot x0 x1) := by intro _ _ h; cases h
theorem unfoldSlot x0 : Statement (.unfoldSlot x0) := by intro _ _ h; cases h
theorem forwardedReply x0 x1 x2 : Statement (.forwardedReply x0 x1 x2) := by intro _ _ h; cases h
theorem bankOpApply x0 : Statement (.bankOpApply x0) := by intro _ _ h; cases h
theorem sealedCommit x0 x1 : Statement (.sealedCommit x0 x1) := by intro _ _ h; cases h
theorem waitaWake x0 x1 : Statement (.waitaWake x0 x1) := by intro _ _ h; cases h
theorem waitCompletion x0 x1 : Statement (.waitCompletion x0 x1) := by intro _ _ h; cases h
theorem idleEnd x0 x1 : Statement (.idleEnd x0 x1) := by intro _ _ h; cases h
theorem boundaryEvent x0 x1 : Statement (.boundaryEvent x0 x1) := by intro _ _ h; cases h
theorem watchdogExpiry x0 x1 : Statement (.watchdogExpiry x0 x1) := by intro _ _ h; cases h
theorem energyCharge x0 x1 : Statement (.energyCharge x0 x1) := by intro _ _ h; cases h
theorem slotFill x0 x1 : Statement (.slotFill x0 x1) := by intro _ _ h; cases h
theorem gangStart x0 : Statement (.gangStart x0) := by intro _ _ h; cases h
theorem messageInjection x0 x1 : Statement (.messageInjection x0 x1) := by intro _ _ h; cases h
theorem messageArrival x0 : Statement (.messageArrival x0) := by intro _ _ h; cases h
theorem migrantArrival x0 : Statement (.migrantArrival x0) := by intro _ _ h; cases h
theorem migrantAcceptance x0 x1 : Statement (.migrantAcceptance x0 x1) := by intro _ _ h; cases h
theorem messageRefusal x0 : Statement (.messageRefusal x0) := by intro _ _ h; cases h
theorem copyDescriptor x0 x1 : Statement (.copyDescriptor x0 x1) := by intro _ _ h; cases h
theorem copyDescriptorComplete x0 x1 : Statement (.copyDescriptorComplete x0 x1) := by intro _ _ h; cases h
theorem queueRecordFetch x0 : Statement (.queueRecordFetch x0) := by intro _ _ h; cases h
theorem graphNodeFetch x0 : Statement (.graphNodeFetch x0) := by intro _ _ h; cases h
theorem nodeComplete x0 x1 : Statement (.nodeComplete x0 x1) := by intro _ _ h; cases h
theorem forkNode x0 x1 : Statement (.forkNode x0 x1) := by intro _ _ h; cases h
theorem copyNode x0 x1 : Statement (.copyNode x0 x1) := by intro _ _ h; cases h
theorem signalNode x0 x1 : Statement (.signalNode x0 x1) := by intro _ _ h; cases h
theorem graphNode x0 x1 : Statement (.graphNode x0 x1) := by intro _ _ h; cases h
theorem dispense x0 : Statement (.dispense x0) := by intro _ _ h; cases h
theorem preemption x0 : Statement (.preemption x0) := by intro _ _ h; cases h
theorem rotationTick x0 : Statement (.rotationTick x0) := by intro _ _ h; cases h
theorem swapRelease x0 : Statement (.swapRelease x0) := by intro _ _ h; cases h
theorem operatingPointChange x0 : Statement (.operatingPointChange x0) := by intro _ _ h; cases h
theorem pointRaise x0 : Statement (.pointRaise x0) := by intro _ _ h; cases h
theorem quadrantPowerSample x0 x1 : Statement (.quadrantPowerSample x0 x1) := by intro _ _ h; cases h
theorem modulePowerSample x0 : Statement (.modulePowerSample x0) := by intro _ _ h; cases h
theorem droopAlarm x0 x1 : Statement (.droopAlarm x0 x1) := by intro _ _ h; cases h
theorem stretchEnd x0 : Statement (.stretchEnd x0) := by intro _ _ h; cases h
theorem throttleEnd x0 : Statement (.throttleEnd x0) := by intro _ _ h; cases h
theorem sensorSample x0 x1 x2 : Statement (.sensorSample x0 x1 x2) := by intro _ _ h; cases h
theorem refreshRowDue x0 x1 x2 : Statement (.refreshRowDue x0 x1 x2) := by intro _ _ h; cases h
theorem placementHalving : Statement (.placementHalving) := by intro _ _ h; cases h
theorem pageExchangeStart x0 x1 : Statement (.pageExchangeStart x0 x1) := by intro _ _ h; cases h
theorem pageExchangeCommit x0 : Statement (.pageExchangeCommit x0) := by intro _ _ h; cases h
theorem scoutAccess x0 x1 x2 : Statement (.scoutAccess x0 x1 x2) := by intro _ _ h; cases h
theorem correctableError x0 x1 x2 : Statement (.correctableError x0 x1 x2) := by intro _ _ h; cases h
theorem uncorrectableError x0 : Statement (.uncorrectableError x0) := by intro _ _ h; cases h
theorem selfTestComplete x0 x1 x2 : Statement (.selfTestComplete x0 x1 x2) := by intro _ _ h; cases h
theorem bankLoss x0 x1 : Statement (.bankLoss x0 x1) := by intro _ _ h; cases h
theorem cxlRemoval : Statement (.cxlRemoval) := by intro _ _ h; cases h
theorem cxlInsertion : Statement (.cxlInsertion) := by intro _ _ h; cases h
theorem lineLoss x0 x1 : Statement (.lineLoss x0 x1) := by intro _ _ h; cases h
theorem lightRecovery x0 x1 : Statement (.lightRecovery x0 x1) := by intro _ _ h; cases h
theorem sourceRestored x0 : Statement (.sourceRestored x0) := by intro _ _ h; cases h
theorem storeFlit x0 x1 x2 : Statement (.storeFlit x0 x1 x2) := by intro _ _ h; cases h
theorem tagFlit x0 x1 x2 : Statement (.tagFlit x0 x1 x2) := by intro _ _ h; cases h
theorem ack x0 x1 x2 x3 : Statement (.ack x0 x1 x2 x3) := by intro _ _ h; cases h
theorem nak x0 x1 x2 x3 : Statement (.nak x0 x1 x2 x3) := by intro _ _ h; cases h
theorem rrf x0 x1 x2 : Statement (.rrf x0 x1 x2) := by intro _ _ h; cases h
theorem lanest x0 x1 x2 : Statement (.lanest x0 x1 x2) := by intro _ _ h; cases h
theorem applied x0 x1 x2 : Statement (.applied x0 x1 x2) := by intro _ _ h; cases h
theorem fail x0 x1 x2 x3 x4 : Statement (.fail x0 x1 x2 x3 x4) := by intro _ _ h; cases h
theorem resync x0 x1 x2 : Statement (.resync x0 x1 x2) := by intro _ _ h; cases h
theorem gone x0 x1 : Statement (.gone x0 x1) := by intro _ _ h; cases h
theorem hello x0 x1 : Statement (.hello x0 x1) := by intro _ _ h; cases h
theorem keyx x0 x1 x2 x3 : Statement (.keyx x0 x1 x2 x3) := by intro _ _ h; cases h
theorem pathReestablishment x0 x1 : Statement (.pathReestablishment x0 x1) := by intro _ _ h; cases h
theorem nakRepeat x0 x1 : Statement (.nakRepeat x0 x1) := by intro _ _ h; cases h
theorem ackTimer x0 x1 : Statement (.ackTimer x0 x1) := by intro _ _ h; cases h
theorem groupClose x0 x1 : Statement (.groupClose x0 x1) := by intro _ _ h; cases h
theorem tagTimeout x0 x1 : Statement (.tagTimeout x0 x1) := by intro _ _ h; cases h
theorem storeTimeout x0 x1 : Statement (.storeTimeout x0 x1) := by intro _ _ h; cases h
theorem laneRetrain x0 x1 x2 : Statement (.laneRetrain x0 x1 x2) := by intro _ _ h; cases h
theorem retrainComplete x0 x1 x2 : Statement (.retrainComplete x0 x1 x2) := by intro _ _ h; cases h
theorem laneWeightStep x0 x1 : Statement (.laneWeightStep x0 x1) := by intro _ _ h; cases h
theorem deviceGone x0 : Statement (.deviceGone x0) := by intro _ _ h; cases h
theorem moduleInsertion x0 : Statement (.moduleInsertion x0) := by intro _ _ h; cases h
theorem latchRelease : Statement (.latchRelease) := by intro _ _ h; cases h
theorem coolantOvertemp : Statement (.coolantOvertemp) := by intro _ _ h; cases h
theorem leak : Statement (.leak) := by intro _ _ h; cases h
theorem coldReset x0 x1 x2 x3 : Statement (.coldReset x0 x1 x2 x3) := by intro _ _ h; cases h
theorem resetCold x0 x1 x2 x3 : Statement (.resetCold x0 x1 x2 x3) := by intro _ _ h; cases h
theorem partitionReset x0 : Statement (.partitionReset x0) := by intro _ _ h; cases h
theorem checkpointStart : Statement (.checkpointStart) := by intro _ _ h; cases h
theorem checkpointRestore : Statement (.checkpointRestore) := by intro _ _ h; cases h
theorem checkpointComplete x0 : Statement (.checkpointComplete x0) := by intro _ _ h; cases h
theorem ckstatClear x0 : Statement (.ckstatClear x0) := by intro _ _ h; cases h
theorem mcqdropClear : Statement (.mcqdropClear) := by intro _ _ h; cases h
theorem mcqConfigWrite x0 x1 : Statement (.mcqConfigWrite x0 x1) := by intro _ _ h; cases h
theorem cxlen x0 : Statement (.cxlen x0) := by intro _ _ h; cases h
theorem kill x0 x1 : Statement (.kill x0 x1) := by intro _ _ h; cases h
theorem halt x0 x1 : Statement (.halt x0 x1) := by intro _ _ h; cases h
theorem release x0 x1 : Statement (.release x0 x1) := by intro _ _ h; cases h
theorem step x0 x1 : Statement (.step x0 x1) := by intro _ _ h; cases h
theorem debugSave x0 x1 : Statement (.debugSave x0 x1) := by intro _ _ h; cases h
theorem debugRestore x0 x1 : Statement (.debugRestore x0 x1) := by intro _ _ h; cases h
theorem resume x0 x1 : Statement (.resume x0 x1) := by intro _ _ h; cases h
theorem peqdropClear x0 : Statement (.peqdropClear x0) := by intro _ _ h; cases h
theorem tail x0 x1 : Statement (.tail x0 x1) := by intro _ _ h; cases h
theorem chead x0 x1 : Statement (.chead x0 x1) := by intro _ _ h; cases h
theorem qerrClear x0 x1 : Statement (.qerrClear x0 x1) := by intro _ _ h; cases h
theorem queueConfigWrite x0 x1 x2 : Statement (.queueConfigWrite x0 x1 x2) := by intro _ _ h; cases h
theorem registerWrite x0 x1 x2 : Statement (.registerWrite x0 x1 x2) := by intro _ _ h; cases h
theorem hostRead x0 x1 : Statement (.hostRead x0 x1) := by intro _ _ h; cases h
theorem hostWrite x0 x1 : Statement (.hostWrite x0 x1) := by intro _ _ h; cases h
theorem msixUnmask x0 x1 : Statement (.msixUnmask x0 x1) := by intro _ _ h; cases h
theorem illegalWord x0 x1 : Statement (.illegalWord x0 x1) := by intro _ _ h; cases h
theorem fetchFault x0 : Statement (.fetchFault x0) := by intro _ _ h; cases h
theorem probeComplete x0 x1 x2 : Statement (.probeComplete x0 x1 x2) := by intro _ _ h; cases h
theorem gatherComplete x0 x1 : Statement (.gatherComplete x0 x1) := by intro _ _ h; cases h
theorem laneResync x0 x1 : Statement (.laneResync x0 x1) := by intro _ _ h; cases h

end Sys2Proof.Laws.RoundTrip

end
end

