-- ==== Sys2Proof/Tests/Slice0.lean ====
section
/-! SUPPORT. Tests of the model on small states: the words of the spec's encoding tables, what the encoding refuses, and one step of
each family. Every expected value stands in the spec, or follows from its rule by hand. -/

namespace Sys2Proof.Tests

open Sys2Proof.Machine

section
set_option Elab.async false

/-! Words (02_encoding_assembler.md and the encoding tables of chapters 3 to 8). -/

def reads (w : BitVec 32) (i : Instr) : Bool := match decode w with | .ok j => j == i | .error _ => false
def refuses (w : BitVec 32) (c : BitVec 8) : Bool := match decode w with | .ok _ => false | .error d => d == c

theorem test_decode_scalar :
    (reads 0x0448C000 (.add 1 2 3) && reads 0x0448CA00 (.csel 1 2 3) && reads 0x048C4700 (.sext 2 3 1) && reads 0x05D20800 (.bfx 7 4 8) &&
     reads 0x0848C100 (.div 1 2 3) && reads 0x1043FFFC (.addi 1 0 0x3FFFC) && reads 0x288C0005 (.shli 2 3 5) &&
     reads 0x288B8000 (.lih 2 2 0x8000) && reads 0x12000838 (.addi 8 0 0x838) && reads 0x05518CC0 (.lea 5 4 6 3)) = true := by decide +kernel

theorem test_decode_control :
    (reads 0x304C3FFD (.bNe 3 0 0x3FFD) && reads 0x3108C002 (.bLtn 2 3 2) && reads 0x38000002 (.jal 2) && reads 0x3FD00000 (.jalr 15 4 0) &&
     reads 0x3C3C0000 (.jr 15 0) && reads 0x400C3FFD (.loop 3 0x3FFD) && reads 0xFC400C00 (.limmB 0xC00) && reads 0xFC000052 (.limmA 0x52) &&
     reads 0xFD000004 (.scope 4)) = true := by decide +kernel

theorem test_decode_memory :
    (reads 0x450B0000 (.ld 4 2 3 0 0 0) && reads 0x444B4002 (.ld 1 2 3 1 0 2) && reads 0x44D21003 (.ld 3 4 2 0 1 3) &&
     reads 0x490B8001 (.st 4 2 3 2 0 1) && reads 0x4892_2002 (.st 2 4 2 0 2 2) && reads 0x4C48CC00 (.amoAdd 1 2 3 0 1) &&
     reads 0x4C48FE40 (.cas 1 2 3 3 1) && reads 0x5048E800 (.mopSac 1 2 3 0) && reads 0x5008CC00 (.mopRedAdd 2 3 1) &&
     reads 0x5048F000 (.gth 1 2 3) && reads 0x54000200 .commit && reads 0x54000000 .fence && reads 0x54000040 .fenceG &&
     reads 0x54000080 .fenceB && reads 0x559D4240 (.waita 6 7 5) && reads 0x54480280 (.waitany 1 2) && reads 0x544002C0 (.refl 1) &&
     reads 0x58080002 (.pf 2 2) && reads 0x58480000 (.cfl 2 0) && reads 0x58880000 (.cinv 2 0)) = true := by decide +kernel

theorem test_decode_vector :
    (reads 0x64200023 (.vbc 1 0 0 3) && reads 0x60400923 (.vfma 2 0 1 1 3) && reads 0x64250030 (.vext 1 5 0) &&
     reads 0x68411817 (.vqnt 2 1 3 7) && reads 0x68821820 (.vdq 4 2 3 0) && reads 0x6CA40000 (.vredAdd 5 4 0) &&
     reads 0x74240040 (.vld 1 2 0 1 0) && reads 0x748C0041 (.vld 4 6 0 1 1)) = true := by decide +kernel

theorem test_decode_matrix :
    (reads 0x80A45001 (.mxp 1 2 4 5 1) && reads 0x81816100 (.dec 3 1 6 0 0) && reads 0x81010201 (.phld 2 1 1) && reads 0x80000301 (.phsw 1) &&
     reads 0x80C87601 (.unf 1 4 8 7 1) && reads 0x80508713 (.accrd 5 8 1 3) && reads 0x80009B00 (.cntrd 9) && reads 0x84802000 (.qcfg 1 2) &&
     reads 0x84810200 (.qadvC 1 1) && reads 0x84803300 (.qstat 1 3) && reads 0x84840400 (.qwait 1 4)) = true := by decide +kernel

theorem test_decode_system :
    (reads 0xA03AB009 (.cpy 0 7 5 6 1 1) && reads 0xA1020010 (.cpyStep 2 4) && reads 0xA1020020 (.cpyWm 2 4) && reads 0xA0500030 (.cpySum 0 10) &&
     reads 0xA1000040 (.cpyStop 2) && reads 0xB01A2828 (.sendReq 3 4 5 2 1 0) && reads 0xB09A2828 (.sendRpy 3 4 5 2 1 0) &&
     reads 0xB4010000 (.migr 2) && reads 0xB409181A (.fork 1 2 3 1 2) && reads 0xB4008020 (.join 1) && reads 0xB4000030 .tend &&
     reads 0xB4000040 .yield && reads 0xB4091850 (.spawn 1 2 3) && reads 0xC1400840 (.srr 5 0x21) && reads 0xC00C0CC1 (.srw 3 0x33) &&
     reads 0xC40000C0 (.trap 3) && reads 0xC4000001 .eret && reads 0xC4000002 .bkpt && reads 0xC5400003 (.time 5) &&
     reads 0xC4000004 .idle) = true := by decide +kernel

/-- R45: the first check that fails gives the cause. -/
theorem test_decode_refused :
    (refuses 0x00000000 1 && refuses 0x88000000 1 && refuses 0x0448FFC1 2 && refuses 0x0448C001 3 && refuses 0x60190000 4) = true := by
  decide +kernel

/-! Ill-formed terms: one for each check of WellFormed.lean. -/

theorem test_wf_refuses :
    ((Instr.sext 1 2 3).wf || (Instr.zext 1 2 3).wf || (Instr.jalr 0 1 0).wf || (Instr.ld 1 2 3 0 3 0).wf || (Instr.ld 1 2 3 1 1 0).wf ||
     (Instr.st 1 2 3 0 3 0).wf || (Instr.st 1 2 3 2 2 0).wf || (Instr.mxp 1 2 0 3 0).wf || (Instr.dec 1 1 2 0 5).wf ||
     (Instr.accrd 1 2 0 2).wf || (Instr.accexp 1 2 0 3).wf || (Instr.cpy 0 1 2 3 0 1).wf || (Instr.sendReq 1 2 3 9 0 0).wf ||
     (Instr.sendReq 1 2 3 1 0 1).wf || (Instr.sendRpy 1 2 3 9 0 0).wf || (Instr.fork 1 2 3 0 1).wf || (Instr.round 5).wf || (Instr.scope 5).wf ||
     (Instr.waitn 0).wf || (Instr.sensorSample 0 0 []).wf || (Instr.hostWrite 0 []).wf) = false := by decide +kernel

theorem test_wf_refuses_vector :
    ((Instr.vadd 25 0 0 0).wf || (Instr.vabs 0 25 0).wf || (Instr.vfma 0 0 25 0 0).wf || (Instr.vcmpEq 1 25 0 0).wf || (Instr.vsel 25 0 0 0 0).wf ||
     (Instr.vmov 25 0 0).wf || (Instr.vidx 25 0).wf || (Instr.vbc 0 0 0 0).wf || (Instr.vbc 0 0 0 13).wf || (Instr.vext 0 25 0).wf ||
     (Instr.vcvt 0 0 0 13).wf || (Instr.vqnt 0 0 0 6).wf || (Instr.vqnt 0 0 0 11).wf || (Instr.vdq 0 0 25 0).wf || (Instr.vpack 25 0 0 0).wf ||
     (Instr.vunpkL 0 25 0).wf || (Instr.vredAdd 0 25 0).wf || (Instr.vscanAdd 25 0 0).wf || (Instr.vperm 0 0 25 0).wf || (Instr.vshf 25 0 0 0).wf ||
     (Instr.vrcp 25 0 0).wf || (Instr.vld 16 0 0 0 0).wf || (Instr.vld 0 0 0 3 0).wf || (Instr.vsct 16 0 0 0 0 0).wf) = false := by decide +kernel

/-- The check value of CRC-32C, over the bytes of "123456789". -/
theorem test_crc32c : ~~~(crcBytes 0xFFFFFFFF 0x393837363534333231 9) = 0xE3069283#32 := by decide +kernel

/-! A task on slot 0 of tile 0, in a space of two pages of near memory: page 0 code, page 1 data. -/

def pages : FMap Byte :=
  let m0 := wrN [] 0 8 0x100000001
  let m1 := wrN m0 0x100000000 8 0x100008001
  let m2 := wrN m1 0x100008000 8 0x100010001
  let m3 := wrN m2 0x100010000 8 0x100020009
  wrN m3 0x100010008 8 0x1000300C7

def task : Slot := { phase := .ready, pc := 0x100, g := [(1, 5), (2, 0x10008), (3, 7)], tvec := 0x400, taskid := 1 }
def base : State := { State.reset with mem := pages, slots := [(0, task)] }

/-- The task with other contents, and the answer of one instruction. -/
def with' (f : Slot → Slot) : State := base.modMe f
def after (i : Instr) (s : State) : State := match exec i s with | .next t => t | _ => s

/-- The word that withFetchWord places is the one that the next step fetches and decodes. -/
theorem test_withFetchWord :
    (match (State.reset.withFetchWord 32 0x0448C000).fetch 0 with | .ok (_, w) => reads w (.add 1 2 3) | _ => false) = true := by decide +kernel

/-! Scalar and control (chapter 3). -/

theorem test_add : (after (.add 4 1 3) base).me.gr 4 = 12 := by decide +kernel
theorem test_sub_wraps : (after (.sub 4 1 3) base).me.gr 4 = 0xFFFFFFFFFFFFFFFE := by decide +kernel
theorem test_g0_discards : (after (.add 0 1 3) base).me.gr 0 = 0 := by decide +kernel
theorem test_div_by_zero : (after (.div 4 1 0) base).me.gr 4 = 0xFFFFFFFFFFFFFFFF ∧ wbit (after (.div 4 1 0) base).me.flags 1 = true := by
  decide +kernel
theorem test_clz : (after (.clz 4 1) base).me.gr 4 = 61 ∧ (after (.clz 4 0) base).me.gr 4 = 64 := by decide +kernel
theorem test_sext : (after (.sext 4 5 0) (with' (fun l => l.gw 5 0x80))).me.gr 4 = 0xFFFFFFFFFFFFFF80 := by decide +kernel
theorem test_addi_negative : (after (.addi 1 0 0x3FFFC) base).me.gr 1 = 0xFFFFFFFFFFFFFFFC := by decide +kernel

/-- 02_encoding_assembler.md: the expansion of `li` gives g2 = 0x000C_0000_0148_0020. -/
theorem test_limm : (after (.addi 2 0 0x20) (with' (fun l => { l with hints := [(1, 0xC00), (0, 0x52)], runStart := 0xF8 }))).me.gr 2 =
    0x000C000001480020 := by decide +kernel

theorem test_branch : (after (.bNe 3 0 0x3FFD) base).me.pc = 0xF4 ∧ (after (.bEq 3 0 0x3FFD) base).me.pc = 0x104 := by decide +kernel
theorem test_jalr_old_source : (after (.jalr 4 4 0) (with' (fun l => l.gw 4 0x200))).me.pc = 0x200 ∧
    (after (.jalr 4 4 0) (with' (fun l => l.gw 4 0x200))).me.gr 4 = 0x104 := by decide +kernel
theorem test_jr_misaligned : (after (.jr 1 0) base).me.ecause = 0x09 ∧ (after (.jr 1 0) base).me.eval = 5 ∧
    (after (.jr 1 0) base).me.pc = 0x400 := by decide +kernel
theorem test_loop_ends : (after (.loop 4 0x3FFD) (with' (fun l => l.gw 4 1))).me.pc = 0x104 ∧ (after (.loop 1 0x3FFD) base).me.pc = 0xF4 := by
  decide +kernel

/-! Memory (chapter 4). -/

theorem test_store_is_private : (after (.st 1 2 3 0 0 0) base).byte 0x100030008 = 0 ∧
    fget none (after (.st 1 2 3 0 0 0) base).me.seg.version 0x10008 = some 5 := by decide +kernel
theorem test_commit_publishes : (after .commit (after (.st 1 2 3 0 0 0) base)).byte 0x100030008 = 5 := by decide +kernel
theorem test_load_own_store : (after (.ld 4 2 3 0 0 0) (after (.st 1 2 3 0 0 0) base)).me.gr 4 = 5 := by decide +kernel
theorem test_load_misaligned : (after (.ld 4 1 3 0 0 0) base).me.ecause = 0x20 := by decide +kernel
theorem test_load_unmapped : (after (.ld 4 5 3 0 0 0) (with' (fun l => l.gw 5 0x20000))).me.ecause = 0x21 := by decide +kernel
theorem test_store_no_permission : (after (.st 1 0 3 0 0 0) base).me.ecause = 0x22 := by decide +kernel
theorem test_amo : (after (.amoAdd 4 2 1 0 1) base).rd 0x100030008 8 = 5 ∧ (after (.amoAdd 4 2 1 0 1) base).me.gr 4 = 0 := by decide +kernel
theorem test_buffer_store : (after (.st 3 1 0 0 1 0) base).me.tbw = true ∧ fget 0 ((after (.st 3 1 0 0 1 0) base).tile 0).ab 5 = 7 := by
  decide +kernel
theorem test_waitany_none : (after (.waitany 4 0) base).me.gr 4 = 0x8000000000000000 := by decide +kernel

/-! Vectors (chapters 5 and 6). -/

theorem test_vector_add : ((after (.vadd 2 0 1 0) (after (.vbc 1 3 0 1) (after (.vbc 0 1 0 1) base))).me.vr 2).word 31 = 12 := by
  decide +kernel
theorem test_vector_void : (after (.vadd 2 0 1 0) base).me.ecause = 0x08 := by decide +kernel
/-- 1.0 + 2^-24 is a tie, and rounds to the even 1.0 with NX (R119). -/
theorem test_float_tie : (roundTo 3 0 .default 0 (.fin false (2 ^ 24 + 1) (-24) false)).bits = 0x3F800000 ∧
    (roundTo 3 0 .default 0 (.fin false (2 ^ 24 + 1) (-24) false)).flags.getLsbD 4 = true := by decide +kernel

/-! Rings, gangs, tasks and the system (chapters 7, 8 and 12). -/

theorem test_qcfg_free : ((after (.qcfg 1 4) (with' (fun l => l.gw 4 0x1002000))).me.ring 1).free = 2 := by decide +kernel
theorem test_gang_alone : (after (.phsw 0) base).me.ecause = 0x62 := by decide +kernel
theorem test_trap : (after (.trap 3) base).me.ecause = 0xE3 ∧ (after (.trap 3) base).me.epc = 0x100 ∧ (after (.trap 3) base).me.pl = 1 := by
  decide +kernel
theorem test_eret : (after .eret (after (.trap 3) base)).me.pc = 0x100 ∧ (after .eret (after (.trap 3) base)).me.pl = 0 := by decide +kernel
theorem test_eret_unprivileged : (after .eret base).me.ecause = 0x01 ∧ (after .eret base).me.eval = 0xC4000001 := by decide +kernel
theorem test_srw_privileged : (after (.srw 3 0x33) base).me.ecause = 0x01 ∧ (after (.srw 3 0x33) base).me.eval = 0xC00C0CC1 := by decide +kernel
theorem test_srw_rngs_zero : (after (.srw 0 0x22) base).me.rngs = 1 := by decide +kernel
theorem test_tend : (after .tend base).slot 0 = {} := by decide +kernel
theorem test_send_bad_destination : (after (.sendReq 4 1 0 0 0 0) (with' (fun l => l.gw 4 0x10000))).me.ecause = 0x82 := by decide +kernel

end

end Sys2Proof.Tests
end

