-- ==== Sys2Proof/Tests/Witness.lean ====
section
/-! SUPPORT. For each statement with hypotheses, concrete states and operands that meet them, clause by clause; where a clause has a
range, at its ends. -/

namespace Sys2Proof.Tests

open Sys2Proof.Machine

section
set_option Elab.async false

def okIs {ε α : Type} (x : Except ε α) (p : α → Bool) : Bool := match x with | .ok a => p a | .error _ => false
def errIs {ε α : Type} (x : Except ε α) (p : ε → Bool) : Bool := match x with | .ok _ => false | .error c => p c

/-- The task at the last word of the address space, and with a barrier handler that cannot start. -/
def atEnd : State := with' (fun l => { l with pc := 0xFFFFFFFFFFFFC })
def deaf : State := with' (fun l => { l with tvec := 0 })

theorem wit_goesOn : base.goesOn ∧ ¬atEnd.goesOn := by unfold State.goesOn; decide +kernel

/-! Reset, memory, encoding, the step. -/

theorem wit_StepKeepsSafe : ∃ s t, s.Safe ∧ Machine.step s = .next t :=
  ⟨{ State.reset with agenda := [.mcqdropClear] }, _, ⟨rfl, rfl⟩, rfl⟩

theorem wit_MemoryReadAfterWrite : base.Safe ∧ State.reset.Safe ∧ 0 < 256 ^ 0 ∧ 0xFFFF < 256 ^ 2 := by unfold State.Safe; decide +kernel

theorem wit_DecodeOfEncode : (Instr.add 1 2 3).wf = true ∧ encode (.add 1 2 3) = some 0x0448C000 ∧ encode (.add 15 15 15) = some 0x07FFC000 := by
  decide +kernel

theorem wit_EncodeOfDecode : reads 0x0448C000 (.add 1 2 3) = true ∧ fld 0x88000000#32 26 6 = 0x22#6 ∧ (Instr.cxlRemoval).isEvent = true := by
  decide +kernel

/-- A machine whose next instruction is the word `w`. -/
def placed (w : Nat) : State := State.reset.withFetchWord 32 w

theorem wit_StepRunsInstruction : (placed 0x0448C000).issues ∧
    okIs ((placed 0x0448C000).fetch (placed 0x0448C000).cur) (fun x => reads x.2 (.add 1 2 3) && !(hintMisuse (.add 1 2 3) x.1.me.hints)) = true := by
  unfold State.issues; decide +kernel

theorem wit_StepOtherwise :
    (placed 0).issues ∧ okIs ((placed 0).fetch (placed 0).cur) (fun x => refuses x.2 1) = true ∧
    ((placed 0).modMe (fun l => { l with pc := 0x20000 })).issues ∧
    errIs (((placed 0).modMe (fun l => { l with pc := 0x20000 })).fetch 0) (fun c => c == 0x21) = true ∧
    ((placed 0x3C040000).modMe (fun l => { l with hints := [(0, 1)] })).issues ∧
    okIs (((placed 0x3C040000).modMe (fun l => { l with hints := [(0, 1)] })).fetch 0)
      (fun x => reads x.2 (.jr 1 0) && hintMisuse (.jr 1 0) x.1.me.hints) = true ∧
    isColdReset (.coldReset { genuine := true, version := 1, cxlPort1 := false, nearLow := 0, qb := [], ckBase := 0, parts := [] } [] [] 0) = true ∧ isColdReset .cxlRemoval = false ∧
    base.lineBits (base.physTile (homeOf 0)) { base.slot 0 with seg := {} } false ((base.slot 0).pc.toNat / 32) = none ∧
    okIs (base.translate (base.slot 0).part (base.slot 0).asid.toNat (base.slot 0).pc.toNat true)
      (fun x => x.2.ex && !x.2.priv && !(base.poisoned x.2.pa 4) && !(base.deepGone x.2.pa)) = true := by
  unfold State.issues; decide +kernel

/-! Scalar and control (chapter 3). -/

theorem wit_ScalarResults : scalarResult (.add 4 1 3) base.me = some (4, 12) ∧ scalarResult (.bfi 0 1 15) base.me = some (0, 0) ∧
    base.me.hint 0 = none ∧ base.me.hint 1 = none ∧ immediateResult (.addi 4 1 0x3FFFF) base.me 0xFFFFFFFFFFFFFFFF = some (4, 0x3FFFF, 4) := by
  decide +kernel

theorem wit_CountingResults : base.me.gr 0 = 0 ∧ base.me.gr 1 ≠ 0 := by decide +kernel

theorem wit_Branches :
    LegalTarget (base.me.pc.toNat + 4 * (0x3FFD#14).toInt) ∧ ¬LegalTarget (base.me.pc.toNat + 4 * (0x2000#14).toInt) ∧
    LegalTarget (base.me.pc.toNat + 4 * (0x3FC0#14).toInt) ∧ base.me.gr 3 ≠ base.me.gr 0 ∧ atEnd.me.gr 3 ≠ atEnd.me.gr 0 := by
  unfold LegalTarget; decide +kernel

theorem wit_branchOf : branchOf (.bNe 3 0 0x3FFD) base.me = some (base.me.gr 3 ≠ base.me.gr 0, 0x3FFD) := rfl

theorem wit_Jumps :
    jumpOf (.jal 2) base.me = some (0x108, 15) ∧ LegalTarget 0x108 ∧ jumpOf (.jr 1 0) base.me = some (5, 0) ∧ ¬LegalTarget 5 ∧
    jumpOf (.jalr 1 0 0x3FFFC) base.me = some (-4, 1) ∧ ¬LegalTarget (-4) ∧ LegalTarget 0 ∧ LegalTarget 0xFFFFFFFFFFFFC ∧
    ¬LegalTarget 0x10000000000000 := by
  unfold LegalTarget; decide +kernel

theorem wit_Loop :
    base.me.gr 0 = 0 ∧ (with' (fun l => l.gw 4 1)).me.gr 4 = 1 ∧ base.me.gr 1 ≠ 0 ∧ base.me.gr 1 ≠ 1 ∧
    LegalTarget (base.me.pc.toNat + 4 * (0x3FFD#14).toInt) ∧ ¬LegalTarget (base.me.pc.toNat + 4 * (0x2000#14).toInt) ∧ atEnd.me.gr 0 = 0 := by
  unfold LegalTarget; decide +kernel

theorem wit_Sequencing :
    hintOf .prio = some (5, 0) ∧ base.me.hasHint 5 = false ∧ (with' (fun l => { l with hints := [(5, 0)] })).me.hasHint 5 = true ∧
    atEnd.me.hasHint 5 = false ∧ alwaysSequential (.add 1 2 3) = true := by decide +kernel

/-! Traps and system registers. -/

def doomed : State := with' (fun l => { l with seg := { l.seg with start := 0xF0, doom := some 0x10000 } })

theorem wit_TrapEntry : CanTrap (base.slot 0) 0x100 ∧ ¬CanTrap (deaf.slot 0) 0x100 := by unfold CanTrap LegalTarget; decide +kernel

theorem wit_PreciseTraps :
    (doomed.slot 0).doomed = true ∧ CanTrap (doomed.slot 0) (doomed.slot 0).seg.start ∧ (doomed.slot 0).seg.doom = some 0x10000 ∧
    (let s := with' (fun l => { l with seg := { l.seg with doomSig := true } })
     (s.slot 0).doomed = true ∧ CanTrap (s.slot 0) (s.slot 0).seg.start ∧ (s.slot 0).seg.doom = none) ∧
    base.alone ∧ CanTrap base.me base.me.unitStart ∧ (0x21#8 ≠ 0x2D) ∧ base.me.gang = false := by
  unfold CanTrap LegalTarget State.alone; decide +kernel

/-- The task with a version of one byte, and a granule of it queued at a bank. -/
def storing : State := with' (fun l => { l with seg := { l.seg with version := [(0x10008, some 5)], writes := [(0x800, true)] } })

theorem wit_Commits :
    base.clean ∧ storing.clean ∧ doomed.me.committed = false ∧ doomed.me.doomed = true ∧
    (let s := with' (fun l => { l with seg := { l.seg with sealedCommit := true } })
     s.me.committed = false ∧ s.me.doomed = false ∧ s.me.seg.sealedCommit = true) ∧
    (let s : State := storing.modDev (fun d => { d with ckBusy := true })
     s.me.committed = false ∧ s.me.doomed = false ∧ s.commitBlocked s.me 0 = true) := by
  unfold State.clean; decide +kernel

theorem wit_CommitsPublish :
    (∀ a b, fget none storing.me.seg.version a = some b → a / 32 = 0x800) ∧ storing.me.seg.version ≠ [] ∧
    fwf none storing.me.seg.version = true ∧
    okIs (storing.walk 0 0 (0x800 * 32)) (fun x => x.ty != 1 && !(storing.deepGone x.pa) && !(storing.inTable (x.pa / 32)) &&
      decide (x.at' + 8 ≤ x.pa)) = true ∧ storing.vaInTable storing.me 0x800 = false ∧ (∀ a, storing.inRxdir a = false) := by
  refine ⟨?_, by decide +kernel, by decide +kernel, by decide +kernel, by decide +kernel, fun a => ?_⟩
  · intro a b h
    rw [show storing.me.seg.version = [(0x10008, some 5)] from by decide +kernel] at h
    simp only [fget] at h
    split at h
    · subst a; decide
    · cases h
  · rfl

def level (p : Nat) : State := with' (fun l => { l with status := BitVec.ofNat 64 p })

theorem wit_SystemInstructions :
    base.me.stepping = false ∧ wbit (base.part 0).dbgctl 0 = false ∧ base.me.gang = false ∧ base.me.phase = .ready ∧ base.me.hasWork = false ∧
    base.midSwap 0 = false ∧ (level 1).me.pl ≠ 0 ∧ LegalTarget (level 1).me.epc.toNat ∧ base.me.pl = 0 ∧
    ¬LegalTarget ((level 1).modMe (fun l => { l with epc := 2 })).me.epc.toNat ∧
    wbit ((base.modPart 0 (fun p => { p with dbgctl := 1 })).part 0).dbgctl 0 = true ∧
    ({ task with phase := .waiting .idle } : Slot).phase = .waiting .idle := by
  unfold LegalTarget; decide +kernel

theorem wit_SystemRegisters :
    (0x000, 0, some 0) ∈ sysTable ∧ (0x045, 2, none) ∈ sysTable ∧ 0 ≤ base.me.pl ∧ 2 ≤ (level 2).me.pl ∧
    (0x033, 0, some 2) ∈ sysTable ∧ (level 2).Safe ∧ (¬∃ r w, ((0x046#12).toNat, r, w) ∈ sysTable ∧ r ≤ base.me.pl) := by
  refine ⟨by decide, by decide, by decide, by decide +kernel, by decide, by unfold State.Safe; decide +kernel, ?_⟩
  rintro ⟨r, w, h, _⟩
  revert h
  simp [sysTable]

theorem wit_SystemRegistersWrite : (0x033, 0, some 2) ∈ sysTable ∧ ¬∃ r w, ((0x033#12).toNat, r, some w) ∈ sysTable ∧ w ≤ base.me.pl := by
  refine ⟨by decide, ?_⟩
  rintro ⟨r, w, h, hw⟩
  have e : base.me.pl = 0 := by decide +kernel
  rw [e] at hw
  revert h
  simp [sysTable]
  omega

/-! Memory (chapter 4). -/

theorem wit_AccessChecks :
    (1 ≤ (0x0100000000000000#64 >>> 56).toNat ∧ (0x0100000000000000#64 >>> 56).toNat ≤ 0x7F) ∧
    (1 ≤ (0x7F00000000000000#64 >>> 56).toNat ∧ (0x7F00000000000000#64 >>> 56).toNat ≤ 0x7F) ∧
    ¬(1 ≤ (0x8000000000000000#64 >>> 56).toNat ∧ (0x8000000000000000#64 >>> 56).toNat ≤ 0x7F) ∧
    (0x40000#64 >>> 18) &&& 0x3FFFFFFFFF#64 ≠ 0 ∧ (0x3FFF8#64 >>> 18) &&& 0x3FFFFFFFFF#64 = 0 ∧
    0x40000 < (0x3FFFC#64 &&& 0x3FFFF#64).toNat + 8 ∧ (0x3FFF8#64 &&& 0x3FFFF#64).toNat + 8 ≤ 0x40000 ∧
    (base.lstall 0).dead = false ∧ ((base.modLStall 0 (fun l => { l with dead := true })).lstall 0).dead = true ∧
    2 ^ 52 ≤ 0x10000000000000 ∧ 0x10009 < 2 ^ 52 ∧ 0x10009 % 8 ≠ 0 ∧ 0x10008 % 8 = 0 ∧
    base.hitBits none base.me .load 0x20000 = none ∧ base.hitBits (some 0) base.me .load 0x10008 = none ∧
    errIs (base.translate 0 0 0x20000 true) (fun c => c == 0x21) = true ∧ okIs (base.translate 0 0 0x10008 true) (fun x => x.2.ty == 0) = true ∧
    (let s := after (.ld 4 2 3 0 0 0) base
     (s.hitBits (some 0) s.me .load 0x10008).isSome = true ∧ okIs (s.walk 0 0 0x10008) (fun _ => true) = true) := by
  decide +kernel

theorem wit_BufferLoadsStores :
    (1#2 ≠ 0) ∧ errIs (base.checkBuffer 0 1 0x40000 4) (fun c => c == 0x21) = true ∧
    base.checkBuffer 0 1 (accessEa base.me 1 3 0) 1 = .ok (0, 8) ∧ base.bufHeld 0 = false ∧ base.markedIn 0 1 8 1 = none ∧
    base.checkBuffer 0 2 (accessEa base.me 0 0 3) 8 = .ok (0, 0) ∧ base.cut = none ∧ ({ base with cut := some 1 } : State).cut = some 1 ∧
    ((with' (fun l => { l with late := some (0, 1, 8, 5) })).slot 0).late = some (0, 1, 8, 5) ∧ base.midSwap 0 = false :=
  ⟨by decide, by decide +kernel, rfl, by decide +kernel, by decide +kernel, rfl, rfl, rfl, by decide +kernel, by decide +kernel⟩

theorem wit_GlobalAccess :
    base.me.sent = false ∧ base.me.load = none ∧ AccessFrom 0 base base ∧ AccessFrom 1 base (base.commitSlot base.cur).openHere ∧
    errIs (base.checkMine .load 0x10009 8) (fun c => c == 0x20) = true ∧
    okIs (base.checkMine .load (accessEa base.me 2 0 3).toNat 8) (fun p => !(base.isDeep p.2.pa) && !p.2.pvt) = true ∧
    base.opPending base.me (homeOf base.cur) (fun g => g == 0x800) = false ∧ (0#2).getLsbD 1 = false ∧ (2#2).getLsbD 1 = true ∧
    base.me.doomed = false ∧ errIs (base.checkMine .store 0 8) (fun c => c == 0x22) = true ∧
    okIs (base.checkMine .store 0x10008 8) (fun _ => true) = true := by
  refine ⟨by decide +kernel, by decide +kernel, rfl, ⟨?_, rfl⟩, by decide +kernel, by decide +kernel, by decide +kernel, by decide, by decide,
    by decide +kernel, by decide +kernel, by decide +kernel⟩
  unfold State.clean; decide +kernel

theorem wit_quiet : base.quiet := ⟨rfl, fun _ => rfl, rfl⟩

/-- A dirty line of the data page, in the cache of the task's own stall. -/
def dirtied : State := { base with dirty := [(0x100030000 / 32, some { holder := 0 })] }

theorem wit_CacheOperations :
    dirtied.me.hint 4 = none ∧ (dirtied.peek dirtied.me 0x10000).map (fun x => x.pa) = some 0x100030000 ∧
    fget none dirtied.dirty (0x100030000 / 32) = some { holder := 0 } ∧ dirtied.stallAt dirtied.cur = 0 := by decide +kernel

/-- What the checks and the waits of an atomic see at the data page. -/
theorem wit_Atomics :
    base.clean ∧ errIs ((base.commitSlot 0).checkMine .atomic 0x1000A 4) (fun c => c == 0x20) = true ∧
    okIs ((base.commitSlot 0).checkMine .atomic 0x10008 8) (fun p =>
      !(p.1.writeWaits p.2.pa) && !(p.1.opQueued p.2.pa) && !((base.commitSlot 0).deepGone p.2.pa) &&
      !((base.commitSlot 0).inRxdir (p.2.pa / 16 * 16)) && !((base.commitSlot 0).inTable (p.2.pa / 32)) && !(p.1.inTable (p.2.pa / 32)) &&
      decide (p.2.at' + 8 ≤ p.2.pa)) = true := by unfold State.clean; decide +kernel

theorem wit_atomicOf : (atomicOf (.amoAdd 4 2 1 0 1) base.me).map (fun x => (x.1, x.2.1, x.2.2.2.2 3)) = some (4, 2, some 8) := by decide +kernel

theorem wit_BankOperations :
    redOf (.mopRedAdd 2 1 1) = some (2, 1, 1, 0) ∧ valueOpOf (.mopSac 4 2 1 0) = some (4, 2, 1, 0, 9) ∧
    okIs (base.checkMine .bankop 0x10008 8) (fun p => decide ((fget [] base.bankops (base.unitOf p.2.pa)).length < 32)) = true ∧
    okIs (base.checkMine .bankop 0x10008 4) (fun _ => true) = true ∧ base.me.sent = false ∧
    (let s := with' (fun l => { l with sent := true, reply := some 5 })
     s.me.sent = true ∧ s.me.reply = some 5) := by decide +kernel

/-- A gather of one dword from the data page, its descriptor at the start of AB, its destination at 64. -/
def gathering : State :=
  (with' (fun l => (l.gw 5 0x40))).modTile 0 (fun t => { t with
    ab := wrN (wrN (wrN [] 0 8 0x10000) 8 8 0x10100) 16 16 (1 + 2 ^ 32 + 3 * 2 ^ 64) })

/-- The same task while its engine gathers. -/
def engaged : State := after (.gth 4 0 5) gathering

theorem wit_Gathers :
    errIs (base.gatherPlan 0 64) (fun e => e.1 == 0x25) = true ∧
    okIs (gathering.gatherPlan 0 0x40) (fun p => p.1.count == 1 && p.2.1 == 0 && p.2.2 == 64 && p.1.elog == 3) = true ∧
    gathering.me.pidx.toNat < 1 ∧ gathering.gathers (gathering.stallAt gathering.cur) < 4 ∧
    4 ≤ ({ gathering with slots := (List.range 5).map (fun i => (8 * i, if i = 0 then gathering.me else engaged.me)) } : State).gathers
      (gathering.stallAt gathering.cur) ∧
    1 ≤ (gathering.modMe (fun l => { l with pidx := 1 })).me.pidx.toNat := by decide +kernel

theorem wit_GatherComplete :
    (match (engaged.slot 0).phase with
     | .waiting (.gather g) => decide (engaged.midSwap 0 = false ∧ engaged.cut = none ∧ g.desc.count = 1 ∧ (engaged.slot 0).pidx = 0) &&
         (match ({ engaged with cur := 0 } : State).gatherRun g 0 1 with | .ok _ => true | .error _ => false) &&
         okIs (({ engaged with cur := 0 } : State).gatherRead g.desc.ibase (2 ^ (g.desc.iw + 1))) (fun p => decide (p.2 < g.desc.tlen) &&
           okIs (p.1.gatherRead (g.desc.tbase + BitVec.ofNat 64 (p.2 * 2 ^ g.desc.elog)) (2 ^ g.desc.elog)) (fun _ => true)) &&
         (match ({ engaged with cur := 0, cut := some 0 } : State).gatherRun g 0 0 with | .ok _ => true | .error _ => false)
     | _ => false) = true := by decide +kernel

theorem wit_Synchronisation :
    base.clean ∧ (base.commitSlot 0).opPending (base.commitSlot 0).me 0 (fun _ => true) = false ∧ base.me.scopeHint ≠ some 4 ∧
    (with' (fun l => { l with hints := [(4, 4)] })).me.scopeHint = some 4 ∧
    (let s := { base with bankops := [(7, [{ task := 1 }])] }
     s.clean ∧ (s.commitSlot 0).opPending (s.commitSlot 0).me 0 (fun _ => true) = true) ∧
    (let u := (base.commitSlot 0).openHere
     okIs (u.checkMine .wait 0x10008 8) (fun p => !(p.1.deepGone p.2.pa) && !(p.1.orphaned p.1.me.part p.2) && !p.2.pvt) = true ∧
     0 ≤ (BitVec.ofNat 64 (u.rd 0x100030008 8) - base.me.gr 0).toInt ∧ (BitVec.ofNat 64 (u.rd 0x100030008 8) - base.me.gr 1).toInt < 0) ∧
    (base.me.gr 0).setWidth 8 = 0#8 ∧ (base.me.gr 1).setWidth 8 ≠ 0#8 ∧
    ((base.me.gr 1).getLsbD 0 = true ∧ ((base.commitSlot 0).openHere.me.br 0).setWidth 16 = 0#16) ∧
    (let s := with' (fun l => { l with b := [(0, 1), (2, 1)] })
     ∀ j : Fin 8, ¬((s.me.gr 1).getLsbD j = true ∧ ((s.commitSlot 0).openHere.me.br j).setWidth 16 = 0#16)) ∧
    (base.reflRec base.me.taskid).outstanding = 0 ∧
    (({ base with refl := [(1, { outstanding := 1 })] } : State).reflRec 1).outstanding ≠ 0 := by unfold State.clean; decide +kernel

/-! Number formats and vectors (chapters 5 and 6). -/

theorem wit_RoundNearest :
    floatFormat 3 = some (23, -149, 0x7F7FFFFF, 31) ∧ (1 ≤ codeMag 23 0x7F7FFFFF * 2 ^ 0) ∧ (3 ≤ codeMag 23 0x7F7FFFFF * 2 ^ 1) ∧
    floatFormat 9 = some (1, -1, 7, 3) ∧ codeMag 1 7 = 12 := by decide +kernel

theorem wit_RoundInteger :
    1 ∈ [1, 2, 6, 8, 10] ∧ 3#3 ∈ [0#3, 1#3, 2#3, 3#3] ∧ intMin 1 * 2 ^ 1 ≤ (5 : Int) ∧ (5 : Int) ≤ intMax 1 * 2 ^ 1 ∧
    intMin 8 * 2 ^ 0 ≤ (-128 : Int) ∧ (-128 : Int) ≤ intMax 8 * 2 ^ 0 := by decide +kernel

/-- Registers of one lane value each, and a mask k1 of one lane. -/
def fill (tag : BitVec 4) (x : Nat) : VReg := { tag := tag, lanes := BitVec.ofNat 1024 x }
def vec : State := with' (fun l => { l with
  v := [(0, fill 1 5), (1, fill 1 7), (2, fill 3 0x3F800000), (4, fill 4 0x3C00), (16, fill 1 1)]
  k := [(1, 1)], status := 0x20 })

theorem wit_VectorWrites :
    (vecOpOf (.vadd 5 0 1 0) vec.me).isSome = true ∧ (Instr.vadd 5 0 1 0).wf = true ∧
    (∃ op, vecOpOf (.vadd 5 0 1 0) vec.me = some op ∧ op.accepted ∧ op.writable (vec.me.vr op.vd.toNat)) ∧
    (∃ op, vecOpOf (.vadd 5 0 9 0) vec.me = some op ∧ ∃ x ∈ op.srcs, x.tag = 0) ∧
    (∃ op, vecOpOf (.vadd 5 0 2 0) vec.me = some op ∧ (∀ x ∈ op.srcs, x.tag ≠ 0) ∧ op.ok = false) ∧
    (∃ op, vecOpOf (.vadd 2 0 1 1) vec.me = some op ∧ op.accepted ∧ ¬op.writable (vec.me.vr op.vd.toNat)) := by
  refine ⟨by decide +kernel, by decide +kernel, ⟨_, rfl, ?_⟩, ⟨_, rfl, ?_⟩, ⟨_, rfl, ?_⟩, ⟨_, rfl, ?_⟩⟩ <;>
    (try unfold VecOp.accepted VecOp.writable) <;> decide +kernel

theorem wit_VectorBits :
    (vecBitOf (.vand 5 0 1 0) vec.me).isSome = true ∧ (vecBitOf (.vscanXor 5 0 1) vec.me).isSome = true ∧
    (∃ op, vecOpOf (.vscanXor 5 0 1) vec.me = some op ∧ op.accepted ∧ op.writable (vec.me.vr op.vd.toNat)) ∧
    (∃ op, vecOpOf (.vshl 5 0 1 0) vec.me = some op ∧ op.accepted ∧ op.writable (vec.me.vr op.vd.toNat)) := by
  refine ⟨by decide +kernel, by decide +kernel, ⟨_, rfl, ?_⟩, ⟨_, rfl, ?_⟩⟩ <;> (unfold VecOp.accepted VecOp.writable; decide +kernel)

theorem wit_VectorIntegers :
    (vecIntOf (.vmul 5 0 1 0) vec.me).map (fun f => f 0) = some 35 ∧ intTag 1 = true ∧ intTag 8 = true ∧
    (∃ op, vecOpOf (.vmul 5 0 1 0) vec.me = some op ∧ intTag op.tag = true ∧ op.accepted ∧ op.writable (vec.me.vr op.vd.toNat)) ∧
    vec.me.satHint ≠ some false ∧ (vec.modMe (fun l => { l with hints := [(3, 0)] })).me.satHint = some false ∧
    intHigh 1 < 2 ^ 31 ∧ (2 ^ 31 - 1 : Int) ≤ intHigh 1 := by
  refine ⟨by decide +kernel, by decide, by decide, ⟨_, rfl, ?_⟩, by decide +kernel, by decide +kernel, by decide +kernel, by decide +kernel⟩
  unfold VecOp.accepted VecOp.writable; decide +kernel

theorem wit_MaskRegisters :
    compareOf (.vcmpEq 2 0 1 1) = some (0, 2, 0, 1, 1) ∧ arithmeticTag (vec.me.vr 0).tag = true ∧ (vec.me.vr 1).tag = (vec.me.vr 0).tag ∧
    (vec.me.vr 9).tag = 0 ∧ (vec.me.vr 2).tag ≠ (vec.me.vr 0).tag ∧ (vec.me.vr 2).tag ≠ 0 ∧ intTag (vec.me.vr 0).tag = true ∧
    (vec.me.kr 1).getLsbD 0 = true ∧ (vec.me.kr 1).getLsbD 31 = false ∧ (vec.me.vr 2).tag = 3 ∧
    0x7F800000 < ((fill 3 0x7FC00000).word 0).toNat % 2 ^ 31 ∧ maskOf (.kand 0 1 1) vec.me = some (0, 1) ∧
    maskOf (.knot 2 1) vec.me = some (2, 0xFFFFFFFE) ∧ (vec.me.vr (5#5).toNat).tag = 0 := by decide +kernel

theorem wit_Quantise :
    (Instr.vqnt 5 2 6 7).wf = true ∧ (Instr.vqnt 5 2 5 10).wf = true ∧ (Instr.vqnt 5 2 24 7).wf = true ∧
    ((vec.me.vr 2).tag = 3 ∨ (vec.me.vr 2).tag = 4 ∨ (vec.me.vr 2).tag = 5) ∧ (vec.me.vr 5).tag = 0 ∧ (vec.me.vr 6).tag = 0 ∧ (vec.me.vr 24).tag = 0 ∧
    (vec.me.vr 0).tag ≠ 0 ∧ ¬((vec.me.vr 0).tag = 3 ∨ (vec.me.vr 0).tag = 4 ∨ (vec.me.vr 0).tag = 5) := by decide +kernel

/-- A load and a store of the one unmasked lane, in AB at 128 and in the global space. -/
def lanes (x : Word) : State := vec.modMe (fun l => l.gw 6 x)

theorem wit_VectorLoads :
    (lanes 0x80).me.load = none ∧
    (∃ m, laneOpOf (.vld 7 6 1 1 0) (lanes 0x80).me = some (true, m) ∧ m.ready (lanes 0x80).me ∧ m.sp ≠ 0 ∧
      (∀ j : Fin 32, m.on (lanes 0x80).me j → j.val = 0) ∧ m.on (lanes 0x80).me 0 ∧ (lanes 0x80).checkBuffer 0 1 (m.addr 0) 4 = .ok (0, 0x80) ∧
      (lanes 0x80).bufHeld 0 = false ∧ (lanes 0x80).markedIn 0 1 0x80 4 = none) ∧
    (∃ m, laneOpOf (.vld 7 6 1 0 0) (lanes 0x10080).me = some (true, m) ∧ m.ready (lanes 0x10080).me ∧ m.sp = 0 ∧ m.on (lanes 0x10080).me 0 ∧
      (∀ j : Fin 32, m.on (lanes 0x10080).me j → j.val = 0) ∧
      okIs ((lanes 0x10080).checkMine .load (m.addr 0).toNat 4) (fun p => !((lanes 0x10080).isDeep p.2.pa) && !p.2.pvt) = true ∧
      (lanes 0x10080).opPending (lanes 0x10080).me 0 (fun _ => true) = false) ∧
    (∃ m, laneOpOf (.vld 7 6 1 0 0) (lanes 0x20000).me = some (true, m) ∧ m.long = false ∧
      errIs ((lanes 0x20000).checkMine .load (m.addr 0).toNat 4) (fun c => c == 0x21) = true) := by
  refine ⟨by decide +kernel, ⟨_, rfl, ?_⟩, ⟨_, rfl, ?_⟩, ⟨_, rfl, ?_⟩⟩
  · refine ⟨⟨fun x h => by simp at h, by decide⟩, by decide, ?_, ?_, rfl, by decide +kernel, by decide +kernel⟩ <;>
      (unfold LaneOp.on; decide +kernel)
  · refine ⟨⟨fun x h => by simp at h, by decide⟩, rfl, ?_, ?_, by decide +kernel, by decide +kernel⟩ <;> (unfold LaneOp.on; decide +kernel)
  · decide +kernel

/-- VGTH and VSCT with indices in v0, whose lane 0 names the bytes 128 + 5; a stop point before lane 3. -/
theorem wit_VectorStops :
    (lanes 0x80).cut = none ∧ (lanes 0x80).me.stepping = false ∧ ({ lanes 0x80 with cut := some 3 } : State).cut = some 3 ∧
    (lanes 0x7B).me.pidx.toNat + 3 < 32 ∧
    (∃ m, laneOpOf (.vgth 7 6 0 1 1 0) (lanes 0x7B).me = some (true, m) ∧ m.ready (lanes 0x7B).me ∧ m.long = true ∧ m.sp ≠ 0 ∧
      (∀ j : Fin 32, m.on (lanes 0x7B).me j → j.val = 0) ∧ okIs ((lanes 0x7B).checkBuffer 0 1 (m.addr 0) 4) (fun p => p == (0, 0x80)) = true) ∧
    (∃ m, laneOpOf (.vsct 1 6 0 1 1 0) (lanes 0x7B).me = some (false, m) ∧ m.ready (lanes 0x7B).me ∧ m.long = true ∧ m.sp ≠ 0 ∧
      (∀ j : Fin 32, m.on (lanes 0x7B).me j → j.val = 0) ∧ okIs ((lanes 0x7B).checkBuffer 0 1 (m.addr 0) 4) (fun p => p == (0, 0x80)) = true) := by
  refine ⟨by decide +kernel, by decide +kernel, rfl, by decide +kernel, ⟨_, rfl, ⟨fun x h => ?_, by decide +kernel⟩, rfl, by decide, ?_, by decide +kernel⟩,
    ⟨_, rfl, ⟨fun x h => ?_, by decide +kernel⟩, rfl, by decide, ?_, by decide +kernel⟩⟩
  · cases h; exact .inl (by decide +kernel)
  · unfold LaneOp.on; decide +kernel
  · cases h; exact .inl (by decide +kernel)
  · unfold LaneOp.on; decide +kernel

theorem wit_VectorStores :
    (∃ m, laneOpOf (.vst 9 6 1 1 0) (lanes 0x80).me = some (false, m) ∧ m.ready (lanes 0x80).me ∧ ((lanes 0x80).me.vr m.vt.toNat).tag = 0 ∧
      ∀ y, m.index = some y → y.tag ≠ 0) ∧
    (∃ m, laneOpOf (.vst 1 6 1 1 0) (lanes 0x80).me = some (false, m) ∧ m.ready (lanes 0x80).me ∧ m.sp ≠ 0 ∧
      ((lanes 0x80).me.vr m.vt.toNat).tag ≠ 0 ∧ m.on (lanes 0x80).me 0 ∧ (lanes 0x80).checkBuffer 0 1 (m.addr 0) 4 = .ok (0, 0x80)) ∧
    (∃ m, laneOpOf (.vst 1 6 1 0 0) (lanes 0x10080).me = some (false, m) ∧ m.ready (lanes 0x10080).me ∧ m.sp = 0 ∧ m.on (lanes 0x10080).me 0 ∧
      okIs ((lanes 0x10080).checkMine .store (m.addr 0).toNat 4) (fun _ => true) = true) := by
  refine ⟨⟨_, rfl, ?_⟩, ⟨_, rfl, ?_⟩, ⟨_, rfl, ?_⟩⟩
  · exact ⟨⟨fun x h => by simp at h, by decide⟩, by decide +kernel, fun y h => by simp at h⟩
  · refine ⟨⟨fun x h => by simp at h, by decide⟩, by decide, by decide +kernel, ?_, rfl⟩
    unfold LaneOp.on; decide +kernel
  · refine ⟨⟨fun x h => by simp at h, by decide⟩, rfl, ?_, by decide +kernel⟩
    unfold LaneOp.on; decide +kernel

/-! Gangs, rings and accumulators (chapter 7). -/

/-- A gang on stall 0 whose members have arrived with `i` and operand `v`; each has ring 1 in AB and ring 2 in WB, half filled. The mesh has
light and an image. -/
def ringOf (buf slotsz : Nat) : Ring := { buf := buf, slotsz := slotsz, slots := 4, prod := 2, filled := 2, free := 2, v := true }
def member (i : Instr) (v : Word) : Slot :=
  (({ phase := .waiting .gang, pc := 0x100, tvec := 0x400, taskid := 1, status := 0x80, arrived := some (i, [], v) } : Slot).setRing 1
    (ringOf 0 5)).setRing 2 (ringOf 1 17)
def gang (i : Instr) (v : Word) : State :=
  { State.reset with
    mem := pages
    slots := (List.range 16).map (fun t => (t * 8, member i v))
    lstalls := [(0, { active := { valid := true } })]
    pstalls := [(0, { omustat := 0x180000 })] }
def passing (i : Instr) (v : Word) : State := (gang i v).modAll ((gang i v).members 0 1) (fun l => { l with performing := true })
def keys16 : List Nat := (List.range 16).map (fun t => t * 8)

theorem gathered (s : State) (i : Instr) (h : s.gangAt 0 1 = some (keys16, i))
    (c : ∀ k ∈ keys16, (s.slot k).doomed = false ∧ (s.slot k).stepping = false ∧ (s.slot k).tvec = 0x400 ∧ (s.slot k).pl = 0) :
    Gathered s 0 1 keys16 i := by
  refine ⟨h, fun k hk => ?_⟩
  obtain ⟨a, b, c, d⟩ := c k hk
  refine ⟨a, b, ?_, ?_, ?_⟩ <;> rw [c]
  · decide
  · unfold LegalTarget; decide
  · rw [d]; simp

/-- A lone member that has not arrived, and one whose barrier its neighbour breaks. -/
def unarrived : State := (gang (.phsw 0) 0).modMe (fun l => { l with phase := .ready, arrived := none })

theorem wit_GangArrival :
    gangOperand (.mxp 1 2 0 5 0) = some 5 ∧ unarrived.goesOn ∧ base.me.gang = false ∧ unarrived.me.gang = true ∧ unarrived.me.phase ≠ .free ∧
    (unarrived.slot 0).arrived = none ∧ (unarrived.slot 0).doomed = false ∧ CanTrap (unarrived.slot 0) 0x100 ∧
    (∀ j ∈ unarrived.gangKeys 0, (unarrived.slot j).arrived.isSome = true → (unarrived.slot j).doomed = false ∧
      CanTrap (unarrived.slot j) (unarrived.slot j).pc) ∧ 8 ∈ unarrived.gangKeys 0 := by
  unfold State.goesOn CanTrap LegalTarget; decide +kernel

theorem wit_GangBarriers :
    (Gathered (gang (.phsw 1) 0) 0 1 keys16 (.phsw 1) ∧ (gang (.phsw 1) 0).inPass keys16 = false ∧
      ((gang (.phsw 1) 0).pstall ((gang (.phsw 1) 0).physStall 0)).omuRetired = false ∧
      (∀ k ∈ keys16, ((gang (.phsw 1) 0).slot k).arrived = some (.phsw 1, [], 0) ∧ ((gang (.phsw 1) 0).slot k).pidx = 0)) ∧
    (Gathered (gang (.mxp 1 2 0 5 0) 0) 0 1 keys16 (.mxp 1 2 0 5 0) ∧ (gang (.mxp 1 2 0 5 0) 0).inPass keys16 = false ∧
      (gang (.mxp 1 2 0 5 0) 0).gangFinding 0 keys16 (.mxp 1 2 0 5 0) = some (0x68, 0)) ∧
    (Gathered (gang (.mxp 1 2 0 5 0) 0x1001) 0 1 keys16 (.mxp 1 2 0 5 0) ∧
      (gang (.mxp 1 2 0 5 0) 0x1001).gangFinding 0 keys16 (.mxp 1 2 0 5 0) = none ∧
      0 < bits ((gang (.mxp 1 2 0 5 0) 0x1001).lead keys16).2.toNat 11 0 ∧ 0 < bits ((gang (.mxp 1 2 0 5 0) 0x1001).lead keys16).2.toNat 18 12) := by
  refine ⟨⟨gathered _ _ (by decide +kernel) (by decide +kernel), by decide +kernel⟩,
    ⟨gathered _ _ (by decide +kernel) (by decide +kernel), by decide +kernel⟩, gathered _ _ (by decide +kernel) (by decide +kernel), by decide +kernel⟩

/-- Member 3 of the gang has not arrived, and the others wait beyond a GTO of 1 ns. -/
def late : State :=
  ((gang (.phsw 1) 0).modAll keys16 (fun l => { l with gto := 1, gangFor := 1, gmask := 0xFFF7 })).modSlot 24 (fun l =>
    { l with phase := .ready, arrived := none })

theorem wit_GangTimeout :
    late.midSwap 0 = false ∧ late.members 0 1 = keys16 ∧
    (∀ k ∈ keys16, (late.slot k).arrived.isSome = true → (late.slot k).doomed = false ∧ CanTrap (late.slot k) (late.slot k).pc ∧
      (late.slot k).gmask = 0xFFF7) ∧
    (late.slot 0).phase = .waiting .gang ∧ (late.slot 0).performing = false ∧ (late.slot 0).gto ≠ 0 ∧
    (late.slot 0).gto.toNat ≤ (late.slot 0).gangFor := by unfold CanTrap LegalTarget; decide +kernel

theorem wit_GangWork :
    (Gathered (passing (.mxp 1 2 0 5 0) 0x2001) 0 1 keys16 (.mxp 1 2 0 5 0) ∧ (passing (.mxp 1 2 0 5 0) 0x2001).inPass keys16 = true ∧
      (passing (.mxp 1 2 0 5 0) 0x2001).meshFree 0 = true ∧
      bits ((passing (.mxp 1 2 0 5 0) 0x2001).lead keys16).2.toNat 11 0 * bits ((passing (.mxp 1 2 0 5 0) 0x2001).lead keys16).2.toNat 18 12 = 2 ∧
      (∀ k ∈ keys16, 1 ≤ (((passing (.mxp 1 2 0 5 0) 0x2001).slot k).ring 1).filled) ∧
      (passing (.mxp 1 2 0 5 0) 0x2001).tiles = []) ∧
    (Gathered (passing (.probe 0) 0) 0 1 keys16 (.probe 0) ∧ (passing (.probe 0) 0).inPass keys16 = true ∧ (passing (.probe 0) 0).meshFree 0 = true) :=
  ⟨⟨gathered _ _ (by decide +kernel) (by decide +kernel), by decide +kernel⟩, gathered _ _ (by decide +kernel) (by decide +kernel), by decide +kernel⟩

/-- A valid image in ring 2, and a pass that chains it; PHLD of it. -/
def imaged (i : Instr) (v : Word) : State := (passing i v).modTile 0 (fun t => { t with wb := wrN [] 0 8 (1 + 0x3F800000 * 2 ^ 32) })

def im0 : Image := [(0, 1), (6, 0x80), (7, 0x3F)]

theorem im0_far (a n : Nat) (h : 8 ≤ a) : rdN im0 a n = 0 := by
  induction n generalizing a with
  | zero => rfl
  | succ n ih =>
    have e : fget (0 : Byte) im0 a = 0 := by
      simp only [im0, fget]
      repeat' split
      all_goals first | rfl | omega
    simp only [rdN]
    rw [e, ih (a + 1) (by omega)]
    rfl

theorem none_read (a n : Nat) : rdN [] a n = 0 := by
  induction n generalizing a with
  | zero => rfl
  | succ n ih =>
    simp only [rdN]
    rw [ih (a + 1)]
    rfl

theorem im0_zeros (a n : Nat) (h : 8 ≤ a) : wrN im0 a n 0 = im0 := by
  induction n generalizing a with
  | zero => rfl
  | succ n ih =>
    have e : fset (0 : Byte) a (BitVec.ofNat 8 0) im0 = im0 := by
      simp only [fset, im0, fdel]
      repeat' split
      all_goals first | rfl | omega | (exfalso; simp_all)
    simp only [wrN]
    rw [e]
    exact ih (a + 1) (by omega)

theorem sum_zeros (n : Nat) : (List.replicate n 0).sum = 0 := by
  induction n with
  | zero => rfl
  | succ n ih => rw [List.replicate_succ, List.sum_cons, ih]

theorem im0_sum : imageSum im0 = 0 := by
  have e : (List.range 4096).map (fun i => rdN im0 (64 + 4 * i) 4) = List.replicate (List.range 4096).length 0 :=
    List.map_eq_replicate_iff.mpr (fun i _ => im0_far _ _ (by omega))
  unfold imageSum
  simp only [e, sum_zeros, Nat.zero_mod]

/-- With no marked word in a typed buffer, no unit has one. -/
theorem unmarked (s : State) (h : ∀ k, (s.tile k).marked = []) (ls : Nat) (off : Nat → Nat) (first n : Nat) : s.unitsMarked ls off first n = none := by
  have e : s.markedUnit ls off first n = none := by
    unfold State.markedUnit
    rw [List.findSome?_eq_none_iff]
    intro i _
    unfold State.markedIn
    simp only [h]
    rfl
  unfold State.unitsMarked
  rw [e]
  rfl

/-- Where stall 0 holds the image in the first slot of its first tile, and nothing else, its units read as the image. -/
theorem units_read (s : State) (off : Nat → Nat) (ht : s.tiles = [(0, { wb := im0 })]) (h0 : off 0 = 0) : s.readUnits 0 off 0 257 [] = im0 := by
  have z (u : Nat) (hu : 0 < u) : s.bufRead (0 * 16 + u % 16) 2 (off (u % 16) + unitOffset u) 64 = 0 := by
    unfold State.bufRead State.tile
    rw [ht]
    by_cases m : u % 16 = 0
    · rw [m]
      exact im0_far _ _ (by unfold unitOffset; omega)
    · have g : fget {} [(0, ({ wb := im0 } : Tile))] (0 * 16 + u % 16) = {} := by
        simp only [fget]
        rw [if_neg (by omega)]
      rw [g]
      exact none_read _ _
  have rest : ∀ (l : List Nat), (∀ i ∈ l, 0 < i) → l.foldl (fun m i =>
      let u := 0 + i
      wrN m (64 * u) 64 (s.bufRead (0 * 16 + u % 16) 2 (off (u % 16) + unitOffset u) 64)) im0 = im0 := by
    intro l
    induction l with
    | nil => intro _; rfl
    | cons i l ih =>
      intro hl
      have hi := hl i (List.mem_cons_self ..)
      rw [List.foldl_cons]
      dsimp only
      rw [z (0 + i) (by omega), im0_zeros _ _ (by omega)]
      exact ih (fun j hj => hl j (List.mem_cons_of_mem _ hj))
  unfold State.readUnits
  rw [List.range_succ_eq_map, List.foldl_cons]
  have first : wrN [] (64 * (0 + 0)) 64 (s.bufRead (0 * 16 + (0 + 0) % 16) 2 (off ((0 + 0) % 16) + unitOffset (0 + 0)) 64) = im0 := by
    unfold State.bufRead State.tile
    rw [ht]
    show wrN [] 0 64 (rdN im0 (off 0 + 0) 64) = im0
    rw [h0]
    decide +kernel
  dsimp only
  rw [first]
  exact rest _ (by simp)

theorem modAll_tiles (f : Slot → Slot) (l : List Nat) : ∀ s : State, (s.modAll l f).tiles = s.tiles := by
  unfold State.modAll
  induction l with
  | nil => intro _; rfl
  | cons k l ih =>
    intro s
    rw [List.foldl_cons, ih]
    rfl

theorem imaged_tiles (i : Instr) (v : Word) : (imaged i v).tiles = [(0, { wb := im0 })] := by
  have e : wrN [] 0 8 (1 + 0x3F800000 * 2 ^ 32) = im0 := by decide +kernel
  have p : (passing i v).tiles = [] := by
    unfold passing
    rw [modAll_tiles]
    rfl
  unfold imaged State.modTile State.setTile State.tile
  rw [e]
  dsimp only
  rw [p]
  decide +kernel

theorem unmarked_all (s : State) (ht : s.tiles = [(0, { wb := im0 })]) (h : Nat) : (s.tile h).marked = [] := by
  unfold State.tile
  rw [ht]
  simp only [fget]
  split <;> rfl

theorem im0_fault : imageFault im0 = none := by
  unfold imageFault imageFaults
  rw [im0_sum]
  decide +kernel

theorem image_read (s : State) (keys : List Nat) (q : BitVec 3) (ht : s.tiles = [(0, { wb := im0 })]) (h0 : s.slotOffset keys q false 0 = 0) :
    s.ringImage 0 keys q = .ok im0 := by
  unfold State.ringImage imageUnits
  dsimp only
  rw [unmarked s (unmarked_all s ht), units_read s _ ht h0, im0_fault]

theorem wit_GangWorkChain :
    let s := imaged (.mxp 1 2 0 5 1) 0x2001
    Gathered s 0 1 keys16 (.mxp 1 2 0 5 1) ∧ s.inPass keys16 = true ∧ s.meshFree 0 = true ∧ (s.lead keys16).1.pidx.toNat = 0 ∧
    (s.lead keys16).1.chained ≠ some ((s.lead keys16).1.pc, 0) ∧ (∀ k ∈ keys16, 1 ≤ ((s.slot k).ring 2).filled) ∧
    s.ringImage 0 keys16 2 = .ok im0 := by
  refine ⟨gathered _ _ (by decide +kernel) (by decide +kernel), by decide +kernel, by decide +kernel, by decide +kernel, by decide +kernel, by decide +kernel, ?_⟩
  exact image_read _ _ _ (imaged_tiles _ _) (by decide +kernel)

theorem wit_GangWorkLoad :
    let s := imaged (.phld 2 0 1) 0
    Gathered s 0 1 keys16 (.phld 2 0 1) ∧ s.inPass keys16 = true ∧ (s.lead keys16).1.pidx.toNat = 0 ∧
    (∀ k ∈ keys16, Nat.max 1 ((s.lead keys16).1.count 0) ≤ ((s.slot k).ring 2).filled) ∧ s.cut = none ∧
    (∀ h, (s.tile h).marked = []) ∧
    imageFault (s.readUnits 0 (s.slotOffset keys16 2 false) 0 257 (s.stagedImage (s.lead keys16).1)) = none := by
  refine ⟨gathered _ _ (by decide +kernel) (by decide +kernel), by decide +kernel, by decide +kernel, by decide +kernel, by decide +kernel, ?_, ?_⟩
  · exact unmarked_all _ (imaged_tiles _ _)
  · rw [show (imaged (.phld 2 0 1) 0).stagedImage ((imaged (.phld 2 0 1) 0).lead keys16).1 = [] by decide +kernel,
      units_read _ _ (imaged_tiles _ _) (by decide +kernel), im0_fault]

/-! A block of zeros has a decomposition (R353), so that DEC's clause has a witness. -/

def zeroCol : Vec32 := List.replicate 64 0

theorem col_dot : dot32 zeroCol zeroCol = 0 := by decide +kernel

theorem pair_zero (bv : List Vec32 × List Vec32) (h : bv.1 = List.replicate 64 zeroCol) (p q : Nat) (hp : p < 64) (hq : q < 64) : jacobiPair bv p q = bv := by
  have e (j : Nat) (hj : j < 64) : colAt bv.1 j = zeroCol := by rw [h]; unfold colAt; rw [List.getD_eq_getElem?_getD, List.getElem?_replicate, if_pos hj]; rfl
  unfold jacobiPair jacobiAngle
  rw [e p hp, e q hq, col_dot]
  rfl

theorem sweep_zero (bv : List Vec32 × List Vec32) (h : bv.1 = List.replicate 64 zeroCol) : jacobiSweep bv = bv := by
  unfold jacobiSweep
  have inner (p : Nat) (hp : p < 64) : ∀ (l : List Nat), (∀ q ∈ l, q < 64) → l.foldl (fun y q => jacobiPair y p q) bv = bv := by
    intro l
    induction l with
    | nil => intro _; rfl
    | cons q l ih =>
      intro hl
      rw [List.foldl_cons, pair_zero bv h p q hp (hl q (List.mem_cons_self ..))]
      exact ih (fun r hr => hl r (List.mem_cons_of_mem _ hr))
  have outer : ∀ (l : List Nat), (∀ p ∈ l, p < 64) →
      l.foldl (fun x p => ((List.range 64).filter (fun q => decide (p < q))).foldl (fun y q => jacobiPair y p q) x) bv = bv := by
    intro l
    induction l with
    | nil => intro _; rfl
    | cons p l ih =>
      intro hl
      rw [List.foldl_cons, inner p (hl p (List.mem_cons_self ..)) _ (by simp; omega)]
      exact ih (fun r hr => hl r (List.mem_cons_of_mem _ hr))
  exact outer _ (by simp; omega)

theorem sweeps_zero (n : Nat) (bv : List Vec32 × List Vec32) (h : bv.1 = List.replicate 64 zeroCol) : jacobiSweeps n bv = bv := by
  cases n with
  | zero => rfl
  | succ n =>
    simp only [jacobiSweeps]
    rw [if_pos (sweep_zero bv h)]

theorem root_zero : f32Sqrt 0 = 0 := by decide +kernel

theorem norms_zero : (List.replicate 64 zeroCol).map (fun c => f32Sqrt (dot32 c c)) = List.replicate 64 0 := by
  rw [List.map_replicate, col_dot, root_zero]

theorem max_zero : f32Zero ((List.replicate 64 (0 : F32)).foldl (fun x y => if x < y then y else x) 0) = true := by decide +kernel

theorem smax_zero (b : List Vec32) (h : b = List.replicate 64 zeroCol) : f32Zero (jacobiSvd b).smax = true := by
  simp only [jacobiSvd]
  rw [sweeps_zero 12 (b, ident32) h]
  show f32Zero (longest b) = true
  rw [h, longest, norms_zero]
  exact max_zero

theorem zero_decomposes (b : List Vec32) (h : b = List.replicate 64 zeroCol) : ∃ im, decompose b = some im := by
  simp only [decompose, smax_zero b h, if_true]
  exact ⟨_, rfl⟩

theorem tile_weights (t : Nat) : State.reset.weights t 0 2 = State.reset.weights 0 0 2 := rfl

theorem zero_weights : (State.reset.weights 0 0 2).map weight32 = List.replicate 256 (some 0) := by decide +kernel

theorem zero_block : State.reset.weightBlock 0 (fun _ => 0) 2 = some (List.replicate 64 zeroCol) := by
  have e : (List.range 16).map (fun t => (State.reset.weights (0 * 16 + t) 0 2).map weight32) = List.replicate 16 (List.replicate 256 (some 0)) := by
    simp only [tile_weights, zero_weights]
    rfl
  have f : (List.replicate 16 (List.replicate 256 (some (0 : F32)))).flatten = List.replicate 4096 (some 0) := List.flatten_replicate_replicate
  unfold State.weightBlock
  rw [e, f]
  simp only [List.any_replicate, List.drop_replicate, List.take_replicate, List.map_replicate, Option.isNone_some, Option.getD_some]
  rfl

theorem wit_GangWorkDec :
    let s := passing (.dec 2 1 6 1 2) 0
    Gathered s 0 1 keys16 (.dec 2 1 6 1 2) ∧ s.inPass keys16 = true ∧ (s.lead keys16).1.count 1 ≤ 1 ∧ (s.lead keys16).1.pidx = 0 ∧
    (∀ k ∈ keys16, 1 ≤ ((s.slot k).ring 2).filled) ∧ s.tiles = [] ∧
    s.weightBlock 0 (fun _ => 0) 2 = some (List.replicate 64 zeroCol) ∧ ∃ im, decompose (List.replicate 64 zeroCol) = some im :=
  ⟨gathered _ _ (by decide +kernel) (by decide +kernel), by decide +kernel, by decide +kernel, by decide +kernel, by decide +kernel, by decide +kernel,
    zero_block, zero_decomposes _ rfl⟩

/-- Stall 3 settles, and stall 0's gang waits for a settle of its own. -/
theorem wit_OpticalUnit :
    (let s := (passing (.phsw 1) 0).modPStall 0 (fun p => { p with settling := true })
     (s.pstall 0).settling = true ∧ s.logStall 0 = 0 ∧ Gathered s 0 1 keys16 (.phsw 1) ∧ s.inPass keys16 = true) ∧
    (let s := gang (.phsw 1) 0
     wbit (s.pstall 0).omustat 20 = true ∧ s.meshFree 0 = true ∧ (s.lstall 0).active.valid = true ∧ wbit (s.pstall 127).omustat 20 = false ∧
     s.dev.sourceLost s.dev.source = false ∧ s.testing .omu 127 = false ∧ s.gangTasks 127 = [] ∧ (1#128 <<< 127).getLsbD 127 = true ∧
     s.dev.sourceLost (1 - s.dev.source) = false ∧ s.dev.lost0 = false ∧ (s.pstall 127).settling = false) ∧
    (let s (n : Word) : State := { gang (.phsw 1) 0 with time := n }
     (s 77).now < pilotAfter 1 ((s 77).pstall 1).pilotFrom ∧ pilotAfter 1 ((s 78).pstall 1).pilotFrom ≤ (s 78).now ∧ ((s 78).pstall 0).settling = false) ∧
    (let s := passing (.mxp 1 2 0 5 0) 0x2001
     s.gangTasks (s.logStall 0) = [1] ∧ Gathered s (s.logStall 0) 1 keys16 (.mxp 1 2 0 5 0) ∧ s.inPass keys16 = true ∧
       s.streams (s.logStall 0) keys16 1 0 0 = true ∧ (s.lead keys16).1.pidx.toNat = 0 ∧ (s.lead keys16).1.passFrom.toNat = 0 ∧
       (s.modPStall 0 (fun p => { p with settling := true })).streams (s.logStall 0) keys16 1 0 0 = false) ∧
    (let s : State := base.modDev (fun d => { d with lost0 := true, lost1 := true })
     s.dev.lost0 = true ∧ s.dev.lost1 = true) := by
  refine ⟨⟨by decide +kernel, by decide +kernel, gathered _ _ (by decide +kernel) (by decide +kernel), by decide +kernel⟩, by decide +kernel,
    by decide +kernel, ⟨by decide +kernel, ?_, by decide +kernel⟩, by decide +kernel⟩
  exact gathered _ _ (by decide +kernel) (by decide +kernel)

/-- The task with ring 1 in AB and ring 2 in WB, and words for a ring of two slots of 64 bytes at AB 0x1000. -/
def ringed : State := with' (fun l => (((l.setRing 1 (ringOf 0 5)).setRing 2 (ringOf 0 17)).gw 4 0x40001002000).gw 5 0x80)

theorem wit_RingInstructions :
    base.ringInUse 1 = false ∧ (base.me.gr 0).toNat = 0 ∧ RingConfigOk (ringed.me.gr 4).toNat ∧ ¬RingConfigOk (base.me.gr 1).toNat ∧
    RingConfigOk 0xFFF001001000 ∧ ringReason (base.me.ring 1) 0 = some 1 ∧ ringReason (ringed.me.ring 1) 1 = none ∧
    ringReason (ringed.me.ring 1) 5 = some 4 ∧ 1 ≤ (ringed.me.ring 1).free ∧ (ringed.me.ring 1).free < 3 ∧ 2 ≤ (ringed.me.ring 1).filled ∧
    (ringed.me.ring 1).filled < 3 ∧
    (ringed.modTile 0 (fun t => { t with unfold := some { task := 1, qa := 1, qc := 2 } })).ringInUse 1 = true := by
  unfold RingConfigOk; decide +kernel

/-- A map of 2 by 2 by 4 elements unfolded for windows of 1 by 1; the unit has the command. -/
def mapped : State := ringed.modTile 0 (fun t => { t with
  ab := wrN [] 0x80 32 (2 + 2 * 2 ^ 16 + 4 * 2 ^ 32 + 2 * 2 ^ 48 + 2 * 2 ^ 64 + 2 ^ 80 + 2 ^ 84 + 2 ^ 88 + 2 ^ 92) })
def unfolding : State := mapped.modTile 0 (fun t => { t with unfold := some { task := 1, qa := 1, qc := 2, left := 1, desc := 0x80 } })

theorem wit_Unfolding :
    errIs (base.checkBuffer 0 1 0x40000 32) (fun c => c == 0x21) = true ∧ base.checkBuffer 0 1 0x8100000000000000 32 = .ok (1, 0) ∧
    ringed.checkBuffer 0 1 (ringed.me.gr 5) 32 = .ok (0, 0x80) ∧ ringed.markedIn 0 1 0x80 32 = none ∧ (ringed.me.ring 1).v = true ∧
    (ringed.me.ring 1).buf = 0 ∧ (ringed.me.ring 2).v = true ∧ (ringed.me.ring 2).buf = 0 ∧
    (UDesc.ofNat (ringed.bufRead 0 1 0x80 32)).bad 17 = true ∧ (UDesc.ofNat (mapped.bufRead 0 1 0x80 32)).bad 17 = false ∧
    (mapped.tile 0).unfold = none ∧ (unfolding.tile 0).unfold.map (fun u => u.rings) = some none ∧ (mapped.me.ring 1).slotsz = 5 ∧
    unfolding.midSwap 0 = false ∧ unfolding.findSlot 1 0 = some 0 ∧
    (UDesc.ofNat (unfolding.bufRead 0 1 0x80 32)).next ≠ (UDesc.ofNat (unfolding.bufRead 0 1 0x80 32)).total ∧
    1 ≤ ((unfolding.slot 0).ring 2).filled ∧ 1 ≤ ((unfolding.slot 0).ring 1).free ∧ unfolding.midSwap (stallOf 0) = false ∧
    unfolding.tileDead 0 = false ∧ (unfolding.tile 0).marked = [] := by
  refine ⟨by decide +kernel, rfl, rfl, by decide +kernel⟩

theorem wit_AccumulatorOperands :
    (AccBad 0 false ∧ AccBad 0x1001 false ∧ AccBad 0x100010 false) ∧ (¬AccBad 0x1000 false ∧ ¬AccBad 0x100000 false) ∧
    (AccBad 0x20000001000 true ∧ ¬AccBad 0x1FF00001000 true) := by
  refine ⟨?_, ?_, ?_⟩ <;> (unfold AccBad; decide +kernel)

theorem wit_Accumulators :
    accHas 0x1000 0 ∧ accHas 0x1000 15 ∧ ¬accHas 0x1000 16 ∧
    (accReadOf (.accrd 1 5 1 3)).map (fun x => (x.1, x.2.1, x.2.2.2 16)) = some (1, 5, 256) ∧ (base.tile 0).marked = [] ∧
    ringReason (base.me.ring 1) 0 = some 1 ∧ ringReason (ringed.me.ring 1) 0 = none ∧ 256 ≤ 64 * (ringed.me.ring 1).slotsz ∧
    base.tileDead 0 = false ∧ 1 ≤ (ringed.me.ring 1).free ∧ base.bufHeld 0 = false ∧
    ((with' (fun l => l.setRing 1 { ringOf 0 5 with free := 0 })).me.ring 1).free = 0 ∧
    (ringed.modArcade 0 (fun a => { a with swap := some (0, 7, 0) })).bufHeld 0 = true ∧ bits 0x4000 63 14 ≠ 0 ∧ bits 0x3FFF 63 14 = 0 := by
  unfold accHas; decide +kernel

theorem wit_AccumulatorReading :
    let t : Tile := { blk := [(0, { e := 0 })] }
    (t.block 0 0).e ≠ 0x200 ∧ ((127 : Int) * 1).natAbs < 2 ^ 23 ∧ (t.entry 0 0).c.toNat < 15 ∧ (t.block 0 0).satcnt.toNat < 0xFFFF ∧
    -(2 ^ 23) ≤ (t.entry 0 0).n.toInt + 127 * 1 ∧ (t.entry 0 0).n.toInt + 127 * 1 < 2 ^ 23 := by decide +kernel

/-! Tasks, messages and copies (chapter 8). -/

theorem wit_TaskStart : (15 < 16) ∧ ([1, 2, 3, 4, 5, 6, 7, 8] : List Word).length ≤ 8 ∧ ({} : Message).migrant = none ∧
    ({ payload := [1] } : Message).payload.length ≤ 8 := by decide

/-- The task with a destination tile in g4, a page of near memory of stall 1 at virtual page 2, and full queues. -/
def sender : State := { with' (fun l => (l.gw 4 5).gw 5 0x400) with mem := wrN pages 0x100010010 8 0x10105000F }
def crowded : State := sender.modTile 0 (fun t => { t with sendReq := List.replicate 8 {}, sendRpy := List.replicate 8 {} })

theorem wit_Messages :
    sendOf (.sendReq 4 5 3 8 1 7) = some (0, 4, 5, 3, 8, some 7) ∧
    sender.clean ∧ ((sender.me.gr 4).toNat < 2048 ∧ sender.ownsArcade sender.me.part ((sender.me.gr 4).toNat / 128) = true) ∧
    ¬((sender.me.gr 2).toNat < 2048) ∧ sender.me.barriers 7 ≠ 0xFFFF := by
  refine ⟨rfl, ?_⟩; unfold State.clean; decide +kernel

theorem wit_MessageTargets : LegalTarget (sender.me.gr 5).toNat ∧ ¬LegalTarget (sender.me.gr 1).toNat := by
  unfold LegalTarget; decide +kernel

theorem wit_MessageQueues :
    ((sender.part 0).cfg.sqd ≤ (((crowded.commitSlot 0).tile 0).sendQ 0).length) ∧ crowded.clean ∧ crowded.me.msg = false ∧
    (crowded.modMe (fun l => { l with status := 0x100 })).me.msg = true ∧
    (((sender.commitSlot 0).tile 0).sendQ 1).length < (sender.part 0).cfg.sqd := by
  unfold State.clean; decide +kernel

theorem wit_Migr :
    sender.me.stepping = false ∧ errIs ((sender.commitSlot 0).translate 0 0 0x30000 false) (fun c => c == 0x21) = true ∧
    okIs ((sender.commitSlot 0).translate 0 0 0x20000 false) (fun p => p.2.ty != 1 && p.1.storage p.2.pa == .near && nearStall p.2.pa == 1 &&
      p.1.ownsArcade 0 0) = true ∧
    okIs ((sender.commitSlot 0).translate 0 0 0x10008 false) (fun p => p.2.ty != 1 && nearStall p.2.pa == p.1.stallAt 0) = true ∧
    sender.me.settledHere = false ∧ (sender.modMe (fun l => { l with status := 0x20 })).me.settledHere = true ∧
    ((sender.commitSlot 0).tile 0).sendReq.length < (sender.part 0).cfg.sqd ∧ (crowded.part 0).cfg.sqd ≤ ((crowded.commitSlot 0).tile 0).sendReq.length ∧
    (let s : State := { sender with mem := wrN sender.mem 0x100010018 8 0x4007 }
     okIs ((s.commitSlot 0).translate 0 0 0x30000 false) (fun p => p.2.ty == 1 && (p.1.windowEntry 0 0x30000).isNone) = true) := by decide +kernel

/-- A message and a migrant under way to tile 5, and their refusals. -/
def note : Message := { dest := 5, task := 1, payload := [9] }
def mover : Message := { dest := 5, task := 1, pc := 0x104, migrant := some {} }
def carrying : State := { base with net := [note] }
def moving : State := { (base.modMe (fun l => { l with phase := .waiting .migrate })) with net := [mover] }

theorem wit_MessageSteps :
    (((base.modTile 0 (fun t => { t with sendReq := [note] })).tile 0).sendQ 0 = [note]) ∧ base.midSwap 0 = false ∧ base.sentBefore note = false ∧
    carrying.arrives 0 false = some note ∧ note.barrier = none ∧ carrying.tileDead 5 = false ∧ (carrying.tile 5).mailbox = [] ∧
    (carrying.freeSlots 5).head? = some 40 ∧ (carrying.tile 5).mailbox.length < (carrying.tile 5).mqcap.toNat ∧ carrying.mailboxLost 5 = false ∧
    (let s := carrying.modTile 5 (fun t => { t with mailbox := [note] })
     s.arrives 0 false = some note ∧ (s.tile 5).mailbox ≠ [] ∧ (s.tile 5).mailbox.length < (s.tile 5).mqcap.toNat ∧ s.mailboxLost 5 = false) ∧
    (let s := carrying.modTile 5 (fun t => { t with mailbox := [note], mqcap := 1 })
     s.arrives 0 false = some note ∧ (s.tile 5).mailbox ≠ [] ∧ ¬(s.tile 5).mailbox.length < (s.tile 5).mqcap.toNat) ∧
    moving.arrives 0 true = some mover ∧ (moving.freeSlots 5).head? = some 40 ∧ (moving.slot mover.fromSlot).phase = .waiting .migrate ∧
    (moving.slot mover.fromSlot).taskid = mover.task ∧ ({ base with net := [mover] } : State).arrives 0 true = some mover ∧
    (base.slot mover.fromSlot).phase ≠ .waiting .migrate := by decide +kernel

theorem wit_MessageAnswers :
    (let s := base.modMe (fun l => { l with phase := .waiting .migrate, taskid := 0 })
     (s.slot 0).phase = .waiting .migrate ∧ (s.slot 0).taskid = 0 ∧ s.midSwap 0 = false) ∧
    (let s : State := { base with refusals := [note, { note with barrier := some 2 }] }
     s.refusals[0]? = some note ∧ s.midSwap (stallOf note.sender.toNat) = false ∧ s.findSlot 1 0 = some 0 ∧ (s.slot 0).pend.length < 8 ∧
     s.refusals[1]? = some { note with barrier := some 2 }) ∧
    (let s : State := { moving with net := [], refusals := [mover] }
     s.refusals[0]? = some mover ∧ mover.migrant.isSome = true ∧ (s.slot mover.fromSlot).phase = .waiting .migrate ∧
     (s.slot mover.fromSlot).taskid = mover.task ∧ (s.slot mover.fromSlot).stepping = false) ∧
    ({ task with b := [(0, 3)] } : Slot).barriers 0 ≠ 0 := by decide +kernel

/-- A fork record at 0x10040, with grain 1 and at most 1 worker, and a record of a queue at 0x10080. -/
def forker : State :=
  { with' (fun l => ((l.gw 4 0x10040).gw 5 0x10080).gw 6 1) with
    mem := wrN (wrN pages 0x100030040 64 (0x200 + 2 ^ 256 + 2 ^ 288)) 0x100030080 64 (0x200 * 2 ^ 64)
    queues := [(1, { cfg := 0x8000000000000000, qbase := 0x100040000 })] }

theorem wit_ForksAndJoins :
    forker.clean ∧ forker.me.phase = .ready ∧ (forker.me.gr 1).toNat % 64 ≠ 0 ∧ (forker.me.gr 4).toNat % 64 = 0 ∧
    errIs ((forker.commitSlot 0).readRecord 0x20000 64) (fun c => c == 0x21) = true ∧
    okIs ((forker.commitSlot 0).readRecord 0x10040 64) (fun p =>
      !(ForkRec.ofNat p.2).bad && (ForkRec.ofNat p.2).cont == 0 && !(forkAsked p.1.me p.2 1).gang && (forkAsked p.1.me p.2 1).lab == 0 &&
      (forkAsked p.1.me p.2 1).lwb == 0 && p.1.freeCellAt 0 == some 0 && p.1.units (forkAsked p.1.me p.2 1) 0 1 == [0] &&
      (p.1.freeSlots 0).head? == some 1) = true ∧
    okIs ((forker.commitSlot 0).readRecord 0x10000 64) (fun p => (ForkRec.ofNat p.2).bad) = true := by
  unfold State.clean; decide +kernel

theorem wit_Join :
    (base.commitSlot 0).cell 5 = none ∧ (base.commitSlot 0).cellHeld 5 = false ∧
    (let s := base.modArcade 0 (fun a => { a with swap := some (0, 7, 0) })
     (s.commitSlot 0).cellHeld 5 = true) ∧
    (let s := with' (fun l => l.gw 4 0x100010002)
     let t (n : Nat) := s.setCell 2 (some { creator := 1, total := 1, ended := n })
     (∀ n : Fin 2, (t n).clean ∧ ((t n).commitSlot 0).cell ((s.me.gr 4).toNat % 2 ^ 16) = some { creator := 1, total := 1, ended := n } ∧
       ((t n).commitSlot 0).cellHeld ((s.me.gr 4).toNat % 2 ^ 16) = false ∧ handleOf 2 1 1 = (t n).me.gr 4)) ∧
    (let s := (with' (fun l => l.gw 4 2)).setCell 2 (some { creator := 9, total := 1 })
     (s.commitSlot 0).cell ((s.me.gr 4).toNat % 2 ^ 16) = some { creator := 9, total := 1 } ∧ (9#64 ≠ s.me.taskid)) := by
  unfold State.clean; decide +kernel

theorem wit_Spawn :
    (forker.me.gr 1).toNat % 64 ≠ 0 ∧ (forker.me.gr 5).toNat % 64 = 0 ∧ errIs (forker.checkGlobal none forker.me .load 0x20000 64) (fun c => c == 0x21) = true ∧
    okIs (forker.checkGlobal none forker.me .load (forker.me.gr 5).toNat 64) (fun p =>
      decide (p.1.me.committed = false ∧ p.1.me.doomed = false ∧ p.1.me.seg.sealedCommit = false ∧ p.1.commitBlocked p.1.me 0 = false) &&
      okIs ((p.1.commitSlot 0).readRecord 0x10080 64) (fun r => !(decide (2 ≤ bits r.2 7 0 ∨ bits r.2 63 8 ≠ 0)) &&
        decide ((r.1.queue 1).part = 0 ∧ (r.1.queue 1).hostq = false ∧ (r.1.queue 1).en = true ∧
          ((r.1.queue 1).tail - (r.1.queue 1).head).toNat < (r.1.queue 1).qlen) &&
        !(r.1.writeWaits (r.1.queue 1).ring) && !(r.1.deepGone (r.1.queue 1).ring) && (r.1.queue 2).part == 0 && !(r.1.queue 2).en)) = true ∧
    (let q := { forker.queue 1 with tail := 16 }
     q.qlen ≤ (q.tail - q.head).toNat) ∧ 2 ≤ bits 0xFF 7 0 := by decide +kernel

theorem wit_TaskEnds :
    base.clean ∧ base.me.gang = false ∧ base.me.next = none ∧ base.me.origin = .nobody ∧ (∀ k : Fin 16, k.val ≠ 0 → (base.slot k).taskid ≠ 1) ∧ base.mailed 1 = false ∧
    (∀ p : Fin 16, (base.part p).saved = []) ∧ base.me.peerEnd = 0 ∧
    (let s := (with' (fun l => { l with origin := .cell 3 })).setCell 3 (some { creator := 9, total := 2 })
     s.clean ∧ s.me.origin = .cell 3 ∧ (s.commitSlot 0).cell 3 = some { creator := 9, total := 2 } ∧ (s.commitSlot 0).cellHeld 3 = false ∧
       (9#64 ≠ s.me.taskid) ∧ 0 + 1 < 2) ∧
    (let s : State := { with' (fun l => { l with origin := .queue 1 }) with queues := [(1, { ctail := 16 })] }
     s.clean ∧ s.me.origin = .queue 1 ∧ ((s.commitSlot 0).queue 1).qlen ≤ (((s.commitSlot 0).queue 1).ctail - ((s.commitSlot 0).queue 1).chead).toNat ∧
     ((s.commitSlot 0).queue 1).comps = []) := by
  unfold State.clean; decide +kernel

theorem wit_TaskStops :
    (base.tile 0).runq = [] ∧
    (let s : State := (base.modTile 0 (fun t => { t with runq := [{ kind := .saved 0 }] })).modPart 0 (fun p => { p with cfg := { p.cfg with salen := 1 } })
     (∃ r ∈ (s.tile 0).runq, s.me.pcls.toNat ≤ r.pcls.toNat) ∧ (s.pickAreas s.me.part s.me.gang).isSome = true ∧ s.me.gang = false) ∧
    (base.modPart 0 (fun p => { p with dbgctl := 2 })).endh 0 0x21 = true ∧
    (base.setCell 0 (some { total := 2 })).cell 0 = some { total := 2 } := by
  refine ⟨by decide +kernel, ⟨⟨{ kind := .saved 0 }, by decide +kernel, by decide +kernel⟩, by decide +kernel, by decide +kernel⟩,
    by decide +kernel, by decide +kernel⟩

/-- A command of the task on channel 2, and a full channel 3. -/
def copier : State := (with' (fun l => (l.gw 4 0x10040).gw 5 258)).modTile 0 (fun t => { t with
  chans := [(2, { cmds := [{ first := 0x10040, count := 1, task := 1, slot := some 0 }] }), (3, { cmds := List.replicate 4 { task := 9 } })] })

theorem wit_CopyIssue :
    copier.clean ∧ base.me.gr 0 = 0 ∧ 4096 < (0x1001#64).toNat ∧ (4096#64).toNat ≤ 4096 ∧ (copier.me.gr 1).toNat % 64 ≠ 0 ∧
    (copier.me.gr 4).toNat % 64 = 0 ∧ okIs ((copier.commitSlot 0).checkRun (copier.commitSlot 0).me 0x10040 64) (fun _ => true) = true ∧
    errIs ((copier.commitSlot 0).checkRun (copier.commitSlot 0).me 0x20000 64) (fun c => c == (0x21, 0x20000)) = true ∧ 4 ≤ (((copier.commitSlot 0).tile 0).chan 3).cmds.length ∧
    (((copier.commitSlot 0).tile 0).chan 0).cmds.length < 4 ∧ copier.me.barriers 1 ≠ 0xFFFF ∧ copier.me.rm ≠ 4 ∧
    copier.me.gr 5 = BitVec.ofNat 64 (256 + (2#3).toNat) ∧ copier.me.gr 1 ≠ 0 ∧ (copier.me.gr 1).toNat < 256 ∧ 264 ≤ (264#64).toNat ∧
    (∃ m ∈ ((copier.tile 0).chan 2).cmds, m.slot = some copier.cur) ∧ (∀ m ∈ ((copier.tile 0).chan 3).cmds, m.slot ≠ some copier.cur) ∧
    (∀ m ∈ ((copier.tile 0).chan 3).cmds, m.status = 0 ∧ m.task ≠ copier.me.taskid) ∧ copier.findSlot 1 0 = some 0 := by
  unfold State.clean; decide +kernel

def copierNoMem : State := { copier with mem := [] }

theorem copierNoMem_rd (a n : Nat) : copierNoMem.rd a n = 0 := by
  unfold State.rd
  show rdN [] a n = 0
  induction n generalizing a with
  | zero => rfl
  | succ n ih => simp [rdN, ih, fget]

theorem copierNoMem_walk (p a v : Nat) : ∃ c, copierNoMem.walk p a v = .error c := by
  unfold State.walk
  simp only [copierNoMem_rd]
  split
  · exact ⟨_, rfl⟩
  · exact ⟨0x21, by simp [bit, State.isLost, show copierNoMem.lost = [] from rfl]⟩

theorem copierNoMem_word (m : Command) (j : Nat) (h : m.begun = false) (n : m.reached = none) : copierNoMem.wordOf m j = none := by
  unfold State.wordOf
  rw [h, n]
  obtain ⟨c, e⟩ := copierNoMem_walk m.part.toNat m.asid.toNat (m.first.toNat + 64 * j)
  rw [e]
  cases j == m.idx <;> rfl

theorem wit_CopyStop :
    ((copierNoMem.tile 0).chan 2).cmds = [{ first := 0x10040, count := 1, task := 1, slot := some 0 }] ∧
    ∀ j, copierNoMem.wordOf { first := 0x10040, count := 1, task := 1, slot := some 0 } j = none :=
  ⟨by decide +kernel, fun _ => copierNoMem_word _ _ rfl rfl⟩

/-- A descriptor of 32 bytes from AB 0 to WB 0 at 0x10040, a bad one at 0x10080, and a command at its last byte with barrier 1. -/
def copying (first : Word) : State :=
  { (base.modTile 0 (fun t => { t with chans := [(2, { cmds := [{ first := first, count := 1, task := 1 }] })] })) with
    mem := wrN pages 0x100030040 64 (32 * 2 ^ 128 + 0x19 * 2 ^ 352) }
def moved : Command :=
  { first := 0x10040, count := 1, task := 1, moved := true, begun := true, image := BitVec.ofNat 512 (32 * 2 ^ 128 + 0x19 * 2 ^ 352),
    dims := [(32, 1, 1)], pos := 32, barrier := some 1 }

theorem wit_CopySteps :
    okIs ((copying 0x10040).commandRead { first := 0x10040, count := 1, task := 1 } 0 0x10040 64) (fun p =>
      let d := CopyDesc.ofNat p.2
      !(d.bad true false 0) && decide (d.ssp = 1 ∧ d.dsp = 2 ∧ d.nd = 1 ∧ d.sum = 0 ∧ d.inj = 0 ∧ d.waitStep = false ∧
        d.src.toNat + d.len0 ≤ 0x40000 ∧ d.dst.toNat + d.len0 ≤ 0x10000 ∧ (p.1.tile 0).marked = [] ∧ p.1.tileDead 0 = false ∧
        p.1.heldUp 0 (({ first := 0x10040, count := 1, task := 1 } : Command).access 0) = false)) = true ∧
    okIs ((copying 0x10080).commandRead { first := 0x10080, count := 1, task := 1 } 0 0x10080 64) (fun p => (CopyDesc.ofNat p.2).bad true false 0) = true ∧
    (copying 0x10040).midSwap 0 = false ∧
    (let s := base.modTile 0 (fun t => { t with chans := [(2, { cmds := [moved] })] })
     ((s.tile 0).chan 2).cmds = [moved] ∧ moved.status = 0 ∧ moved.moved = true ∧ moved.writes = [] ∧ dimBytes moved.dims ≤ moved.pos ∧
     moved.node = none ∧ moved.barrier = some 1 ∧ (CopyDesc.ofNat moved.image.toNat).sum = 0 ∧ (CopyDesc.ofNat moved.image.toNat).cword = 0 ∧
     moved.count ≤ moved.idx + 1 ∧ s.findSlot moved.task 0 = some 0) ∧
    ({ moved with count := 2 } : Command).idx + 1 < ({ moved with count := 2 } : Command).count := by decide +kernel

end

end Sys2Proof.Tests
end

