-- ==== Sys2Proof/Tests/Events.lean ====
section
/-! SUPPORT. The same for the statements about the steps of the device. -/

namespace Sys2Proof.Tests

open Sys2Proof.Machine

section
set_option Elab.async false

/-! Slots, queues and graphs. -/

def waits (w : Wait) : State := with' (fun l => { l with phase := .waiting w })

theorem wit_SlotEvents :
    base.midSwap 0 = false ∧ ((waits (.address 0x10008)).slot 0).phase = .waiting (.address 0x10008) ∧
    ((waits .completion).slot 0).phase = .waiting .completion ∧
    (let s (n : Word) : State := { waits .idle with time := n }
     ((s 0).slot 0).phase = .waiting .idle ∧ ((s 0).slot 0).idleAt + 10000 ≤ (s 10000).now ∧ (s 9999).now < ((s 9999).slot 0).idleAt + 10000) ∧
    ((with' (fun l => { l with wdog := 1 })).slot 0).phase = .ready ∧ ((with' (fun l => { l with wdog := 1 })).slot 0).wdog = 1 := by
  decide +kernel

theorem wit_Boundary :
    let l (k w : Bool) (p : Word) : Slot := { task with kill := k, wdogDue := w, status := p, pend := [(0x2A, 7)] }
    ((l false false 0).phase = .ready ∧ (l false false 0).hints = [] ∧ (l false false 0).late = none ∧ (l false false 0).gang = false ∧ (l false false 0).performing = false ∧
      (l false false 0).stops = [] ∧ (l false false 0).stepping = false ∧ (l false false 0).doomed = false ∧
      (l false false 0).seg.sealedCommit = false ∧ (l false false 0).committed = false ∧ (l false false 0).pl = 0 ∧
      CanTrap (l false false 0) 0x100 ∧ (l false false 0).pend = [(0x2A, 7)]) ∧
    ((l false true 0).wdogDue = true ∧ (l false true 0).pl = 0 ∧ CanTrap (l false true 0) 0x100) ∧
    ((l false true 1).wdogDue = true ∧ 1 ≤ (l false true 1).pl) ∧ (l true false 0).kill = true := by
  unfold CanTrap LegalTarget; decide +kernel

theorem wit_SlotFill :
    let r : Record := { kind := .task 0x400 [1, 2] }
    let s (m : List Message) : State := base.modTile 0 (fun t => { t with mailbox := m, runq := [r] })
    let u : State := base.setSlot 1 { next := some r }
    (∀ id y, (s [note]).cell id = some y → y.due = false) ∧ (∀ id y, u.cell id = some y → y.due = false) ∧
    ((u.slot 1).phase = .free ∧ (u.slot 1).held = false ∧ u.stallDeadOrMoving 0 = false ∧ (u.slot 1).next = some r ∧ r.gang = false) ∧
    (((s [note]).slot 1).phase = .free ∧ ((s [note]).slot 1).held = false ∧ (s [note]).stallDeadOrMoving 0 = false ∧ ((s [note]).slot 1).next = none ∧
      ((s [note]).tile 0).mailbox = [note] ∧ note.migrant = none ∧ note.payload.length ≤ 8) ∧
    (((s []).tile 0).mailbox = [] ∧ (s []).owesSlot 0 = false ∧ ((s []).tile 0).runq = [r] ∧ r.gang = false) ∧ r.Plain 0x400 [1, 2] := by
  have none_due (s : State) (h : s.cells = []) : ∀ id y, s.cell id = some y → y.due = false := by
    intro id y e
    unfold State.cell at e
    rw [h] at e
    cases e
  refine ⟨none_due _ rfl, none_due _ rfl, ?_, ?_, ?_, ?_⟩
  · decide +kernel
  · decide +kernel
  · decide +kernel
  · exact ⟨rfl, by decide, ⟨rfl, rfl⟩, rfl⟩

theorem wit_GangStart :
    let r : Record := { kind := .task 0x400 [1, 2], gang := true }
    let s : State := base.modTile 3 (fun t => { t with runq := [r] })
    let u : State := { State.reset.modLStall 0 (fun x => { x with reserved := some r }) with
      slots := (List.range 16).map (fun i => (8 * i, ({ held := true } : Slot))) }
    (s.stallDeadOrMoving 0 = false ∧ (s.lstall 0).reserved = none ∧ s.queuedGang 0 = some (3, 0, r) ∧
      (s.pstall (s.physStall 0)).omuRetired = false ∧ s.withheld 0 = false) ∧
    (u.stallDeadOrMoving 0 = false ∧ (u.lstall 0).reserved = some r ∧ (u.heldSlots 0).length = 16) ∧ r.Plain 0x400 [1, 2] := by
  refine ⟨?_, ?_, ⟨rfl, by decide, ⟨rfl, rfl⟩, rfl⟩⟩
  · decide +kernel
  · decide +kernel

/-- A commit that waited, of a segment that is doomed or not. -/
def sealedTask (d : Bool) : State :=
  with' (fun l => { l with phase := .waiting .completion, seg := { sealedCommit := true, doom := if d then some 0x400 else none } })

theorem wit_SealedCommit :
    (sealedTask false).findSlot 1 0 = some 0 ∧ ((sealedTask false).slot 0).seg.sealedCommit = true ∧
    (sealedTask false).commitBlocked ((sealedTask false).slot 0) 0 = false ∧ ((sealedTask false).slot 0).phase = .waiting .completion ∧
    ((sealedTask false).slot 0).doomed = false ∧ (sealedTask true).findSlot 1 0 = some 0 ∧ ((sealedTask true).slot 0).seg.sealedCommit = true ∧
    (sealedTask true).commitBlocked ((sealedTask true).slot 0) 0 = false ∧ ((sealedTask true).slot 0).doomed = true := by decide +kernel

/-- A load of a dword that waits for its reply. -/
def replying : State := with' (fun l => { l with
  phase := .waiting .load
  load := some { instr := .ld 4 2 3 0 0 0, at' := 0x100, start := 0x100, ea := 0x10008, size := 8, dest := 4, want := 1, addrs := [(0, 0x10008)] } })

theorem wit_ForwardedReply :
    replying.findSlot 1 0 = some 0 ∧ replying.midSwap (stallOf (homeOf 0)) = false ∧ (replying.slot 0).phase = .waiting .load ∧
    (replying.slot 0).arrived = none ∧ (replying.slot 0).kept = [] ∧ (replying.slot 0).stepping = false ∧
    (match (replying.slot 0).load with
     | some p => decide ((replying.slot 0).pc = p.start ∧ p.instr = .ld 4 2 3 0 0 0 ∧ p.size ≠ 0 ∧ p.want = 1 ∧ p.done = 0 ∧ p.image = 0 ∧
         p.log = []) && okIs (replying.reply (replying.slot 0) (fget 0 p.addrs 0).toNat p.size) (fun x => decide (x.1 < 2 ^ 64) && !x.2)
     | none => false) = true := by decide +kernel

/-- Queue 1, enabled, with the record `x` of its first place in memory. -/
def queued (x : Nat) : State :=
  { base with mem := wrN pages 0x100040000 64 x, queues := [(1, { cfg := 0x8000000000000000, qbase := 0x100040000, tail := 1 })] }

theorem wit_QueueRecord :
    (∀ x : Fin 3, let u := (queued x).queue 1
      u.en = true ∧ u.head ≠ u.tail ∧ (u.ctail - u.chead).toNat < u.qlen ∧ (queued x).poisoned u.ring 64 = false ∧
      (queued x).isLost u.ring = false ∧ bits ((queued x).rd u.ring 64) 7 0 = x.val ∧ bits ((queued x).rd u.ring 64) 63 8 = 0) ∧
    (queued 0).Safe ∧ (base.queue 1).en = false := by
  unfold State.Safe; decide +kernel

/-- A SIGNAL node at 0x10040, a node of kind `k` with an image `x`, and a machine with nodes and their bytes. -/
def nodeAt (st : NodeState) (x : Nat) : Node := { va := 0x10040, state := st, image := BitVec.ofNat 512 x }
def signal : Nat := 2 + 0x10008 * 2 ^ 192
def graphing (ns : List Node) : State :=
  { (base.modPart 0 (fun p => { p with cfg := { p.cfg with arcades := 1 } })) with mem := wrN pages 0x100030040 64 signal, nodes := ns }

theorem wit_NodeFetch :
    let n : Node := { va := 0x10040 }
    let s := graphing [n]
    s.nodes.find? (fun n => n.part == 0 && n.state == .fetching) = some n ∧
    (s.nodes.filter (fun u => u.part == 0 && u.inFlight)).length < 65536 ∧ s.commandWaits n.access (n.va + 56).toNat = false ∧
    okIs (s.commandRead n.access 0 n.va 64) (fun p =>
      let m : Node := { n with image := BitVec.ofNat 512 p.2 }
      !m.broken && m.nsucc == 0 && m.ndeps == 0) = true ∧
    (∀ w ∈ s.nodes, w.va = n.va → w = n) ∧ n.deps = 0 ∧ n.bad = false := by decide +kernel

theorem wit_NodeComplete : ∀ d : Fin 2,
    let n : Node := { nodeAt .running signal with succs := [0x10080] }
    let u : Node := { va := 0x10080, state := .waiting, deps := 1 + (d.val : Int) }
    let s := graphing [n, u]
    ((s.nodes.filter (fun n => n.is 0 0x10040)).findSome? s.nodeResult).map Prod.snd = some n ∧
    s.commandWaits n.access (n.va + 56).toNat = false ∧ u ∈ s.nodes ∧ u.gid = n.gid ∧ u.va ≠ n.va ∧
    (∀ w ∈ s.nodes, w.gid = u.gid → w.va = u.va → w = u) ∧ n.succs.count u.va = 1 ∧ u.bad = false ∧ 1 ≤ u.deps := by decide +kernel

theorem wit_ForkNode :
    let n := nodeAt .ready (2 ^ 320 + 2 ^ 352 + 0x400 * 2 ^ 192)
    let s := graphing [n]
    (match s.nextFork 0 0x10040 with
     | some (m, t) => m.same n && s.placeTile m.part.toNat (.node m) == some 0 && (t.forkWorkers (s.nodeFork m) 0 0).isSome
     | none => false) = true := by decide +kernel

theorem wit_OtherNodes :
    (let n := nodeAt .ready (1 + 2 ^ 48 + 0x10080 * 2 ^ 192)
     let s := graphing [n]
     s.readyNode 0 0x10040 1 = some n ∧ s.copyTile 0 = some 0 ∧ ((s.tile 0).chan 7).cmds.length < 4 ∧ s.midSwap 0 = false) ∧
    (let n := nodeAt .ready signal
     let s := graphing [n]
     s.readyNode 0 0x10040 2 = some n ∧ n.entry ≠ 0 ∧ s.commandWaits n.access n.entry.toNat = false ∧
     okIs (s.putWord n.access 0 n.entry n.arg.toNat) (fun _ => true) = true) ∧
    (let n := nodeAt .ready (3 + 0x10080 * 2 ^ 256)
     (graphing [n]).readyNode 0 0x10040 3 = some n) := by
  refine ⟨?_, ?_, ?_⟩
  · decide +kernel
  · decide +kernel
  · decide +kernel

/-- A record of class 3 at the dispenser since TIME 0, and one save area. -/
def waitingRecord : Record := { kind := .task 0x400 [1], pcls := 3 }
def dispensing : State :=
  { (base.modPart 0 (fun p => { p with waiting := [waitingRecord], cfg := { p.cfg with arcades := 1, salen := 1 } })) with time := 200000 }

theorem wit_Dispense :
    (dispensing.nextWork 0).map Prod.fst = some (.record waitingRecord) ∧ dispensing.placeTile 0 (.record waitingRecord) = some 0 ∧
    dispensing.Safe := by
  unfold State.Safe; decide +kernel

theorem wit_Preemption :
    waitingRecord.gang = false ∧ waitingRecord.since + (dispensing.part 0).cfg.prewait ≤ dispensing.now ∧ (dispensing.slot 0).gang = false ∧
    dispensing.lstalls = [] ∧
    (match dispensing.nextWork 0 with
     | some (.record _, t) => t.victim 0 3 ((t.slots.map (fun e => e.1)).filter (fun k => dispensing.ownsArcade 0 (k / 8 / 128) &&
         !(dispensing.stallClosed (stallOf (k / 8))) && (dispensing.leaseRoom [k / 8] waitingRecord.lab waitingRecord.lwb).isSome)) == some 0
     | _ => false) = true := by decide +kernel


/-! Heat, power and memory. -/

/-- No task, at TIME `n`. -/
def idleAt (n : Word) : State := { State.reset with time := n }

theorem wit_RotationTick :
    (idleAt 0).now < (idleAt 0).tickDue 0 ∧
    (let s := ((idleAt 1000000000).modPStall 0 (fun p => { p with temp := 80 })).modPStall 1 (fun p => { p with temp := 10 })
     s.tickDue 0 ≤ s.now ∧ (s.arcade 0).swap = none ∧ (s.rotation 0).isSome = true ∧
       (match s.rotation 0 with | some (h, c) => s.swapBarred h c | none => true) = false) ∧
    (idleAt 1000000000).tickDue 0 ≤ (idleAt 1000000000).now ∧ (idleAt 1000000000).rotation 0 = none := by decide +kernel

theorem wit_SwapRelease :
    let s := State.reset.modArcade 0 (fun a => { a with swap := some (0, 7, 0) })
    (s.arcade 0).swap = some (0, 7, 0) ∧ 0 / 8 = 0 ∧ 7 / 8 = 0 ∧ 0 ≠ 7 ∧ (s.arcade 0).map.length = 8 ∧ (∀ x ∈ (s.arcade 0).map, x < 8) ∧
    (∀ k, k / 128 = 0 ∨ k / 128 = 7 → (s.slot k).hints = [] ∧ (s.slot k).performing = false ∧ (s.slot k).late = none ∧
      ∀ g, (s.slot k).phase ≠ .waiting (.gather g)) ∧
    (∀ x ∈ s.held, ∀ id cause ends key, x.who ≠ .credit id cause ends key) :=
  ⟨by decide +kernel, by decide, by decide, by decide, by decide +kernel, by decide +kernel, fun _ _ => ⟨rfl, rfl, rfl, by intro g h; cases h⟩,
    fun x h => by cases h⟩

theorem wit_Points :
    (let s := State.reset; s.quadDemand 0 - 0 = (s.quad 0).point.toNat) ∧
    (let s := with' (fun l => { l with demand := some 5 })
     s.quadDemand 0 - 0 ≠ (s.quad 0).point.toNat ∧ (s.quad 0).droop = .normal) ∧
    (idleAt 99999).now < ((idleAt 99999).quad 0).thermalAt + 100000 ∧ ((idleAt 100000).quad 0).thermalAt + 100000 ≤ (idleAt 100000).now := by
  decide +kernel

theorem wit_Samples :
    (let s := State.reset
     (s.quad 0).overBudget = false ∧ sampleSum 1100 (s.quad 0).watts ≤ 10 * s.dev.qb.getD 0 110 ∧
       10 * s.dev.qb.getD 0 110 < sampleSum 1101 (s.quad 0).watts ∧
       [620, 650, 680, 720, 760, 800, 850, 900].getD (s.quad 0).point.toNat 0 ≤ (570#16).toNat + 2 * (0x19#8).toNat ∧
       (569#16).toNat + 2 * (0x19#8).toNat < [620, 650, 680, 720, 760, 800, 850, 900].getD (s.quad 0).point.toNat 0 ∧
       sampleSum 18000 s.dev.watts ≤ 18000 ∧ 18000 < sampleSum 18001 s.dev.watts ∧ s.dev.moduleOver = false) ∧
    ((State.reset.modQuad 0 (fun q => { q with droop := .stretch })).quad 0).droop = .stretch ∧
    ((State.reset.modQuad 0 (fun q => { q with droop := .throttle })).quad 0).droop = .throttle := by decide +kernel

/-- Two writes of DRTH 50 ns apart: each governs from 100 ns after it, the first of them meanwhile. -/
theorem wit_Droop :
    let u : Quad := { drth := 0, drths := [(150, 0), (100, 7)] }
    u.governs 99 0x19 ∧ u.governs 100 7 ∧ u.governs 149 7 ∧ u.governs 150 0 :=
  ⟨.inr ⟨by decide, rfl⟩, .inl ⟨[(150, 0)], (100, 7), [], rfl, by decide, by decide, rfl⟩,
    .inl ⟨[(150, 0)], (100, 7), [], rfl, by decide, by decide, rfl⟩, .inl ⟨[], (150, 0), [(100, 7)], rfl, by decide, by decide, rfl⟩⟩

theorem wit_Sensors :
    (∀ b ∈ [95#8, 0#8], b.toNat ≤ 95) ∧ (99#8).toNat < 100 ∧ (State.reset.pstall 5).hot = false ∧ (∀ k, (State.reset.pstall k).temp.toNat < 115) ∧
    (State.reset.quad 0).thermal = false ∧ 100 ≤ (100#8).toNat ∧ 115 ≤ (115#8).toNat :=
  ⟨by decide, by decide, rfl, fun _ => by show (0#8).toNat < 115; decide, rfl, by decide, by decide⟩

theorem wit_EnergyCharge :
    let l : Slot := { task with units := 4, quota := 100 }
    let s : State := { base with slots := [(0, l)] }
    (0, s.slot 0) ∈ s.slots ∧ (s.slot 0).phase ≠ .free ∧ (s.slot 0).units ≠ 0 ∧ (s.slot 0).quota ≠ 0xFFFFFFFFFFFF ∧ (s.slot 0).carry = (0, 1) ∧
    (99#48).toNat * (s.slot 0).units / s.unitsIn 0 < (s.slot 0).quota.toNat ∧
    (s.slot 0).quota.toNat ≤ (100#48).toNat * (s.slot 0).units / s.unitsIn 0 ∧ (s.slot 0).quota ≠ 0 := by decide +kernel

/-- One operation at unit 3, on the word at 0x10008; the task waits for its value or not. -/
def banking (op : Nat) (w : Bool) : State :=
  { with' (fun l => if w then { l with phase := .waiting (.bankValue 4 0x100) } else l) with
    bankops := [(3, [{ op := op, size := 4, va := 0x10008, pa := 0x100030008, b := 9, task := 1, slot := 0, wants := w }])] }

theorem banking_inRxdir (op : Nat) (w : Bool) (a : Nat) : (banking op w).inRxdir a = false := by
  have h : ∀ p ∈ (banking op w).parts, (p.cfg.rxlen != 0) = false := by
    have h0 : ∀ p ∈ State.reset.parts, (p.cfg.rxlen != 0) = false := by decide +kernel
    cases w <;> exact h0
  simp only [State.inRxdir, List.any_eq_false, Bool.and_eq_true, not_and, Bool.not_eq_true]
  intro p hp
  simp [h p hp]

theorem wit_BankOpApply : ∀ x : Fin 3,
    let op := [0, 8, 9].getD x 0
    let s := banking op (op != 0)
    (match fget [] s.bankops 3 with
     | [o] => decide (o.op = op ∧ o.wants = (op != 0) ∧ s.writeWaits o.pa = false ∧ (s.slot o.slot).taskid = o.task ∧
         (op ≠ 0 → (s.slot o.slot).phase = .waiting (.bankValue 4 0x100) ∧ (s.slot o.slot).stepping = false)) && okIs (s.walk o.part.toNat o.asid.toNat o.va.toNat) (fun x =>
         decide (s.deepGone x.pa = false ∧ s.isLost x.pa = false ∧ s.poisoned x.pa o.size = false ∧ s.inTable (x.pa / 32) = false ∧
           s.inTable ((x.pa + o.size - 1) / 32) = false ∧ x.at' + 8 ≤ x.pa))
     | _ => false) = true := by decide +kernel

theorem wit_Placement : (idleAt 255999).now < (idleAt 255999).dev.halved + 256000 ∧ (idleAt 256000).dev.halved + 256000 ≤ (idleAt 256000).now ∧
    fwf {} (idleAt 256000).place = true := by decide +kernel

/-- A page of LPDDR (virtual page 3) with the count of a page to move, and one of HBM4 (virtual page 2) with none. -/
def warm : State :=
  { base with
    mem := wrN (wrN pages 0x100010010 8 0x80000000C7) 0x100010018 8 0x300000000C7
    rmap := [(0x800000, [(0, 0, 2, 0x100010010)]), (0x3000000, [(0, 0, 3, 0x100010018)])]
    place := [(0x3000000, { count := 32 })] }

theorem warm_moves : (warm.moves 0x3000000).filter (fun p => warm.movable 0x3000000 p.kind) = [hbmPool] := by decide +kernel

theorem warm_victim :
    (((List.range 16).map (fun i => hbmPool.first + ((warm.quad 0).scan + i) % hbmPool.size)).filter (fun f =>
      warm.movable f (warm.storage (0x3000000 * 0x10000)) && f != 0x3000000 && !(warm.exchanging f))) = [0x800000] := by decide +kernel

theorem wit_ExchangeStart :
    (warm.quad 0).exch = none ∧ warm.dev.ckBusy = false ∧ warm.exchanging 0x3000000 = false ∧ warm.isLost (0x3000000 * 0x10000) = false ∧
    warm.deepGone (0x3000000 * 0x10000) = false ∧
    ∃ g, ((warm.moves 0x3000000).filter (fun p => warm.movable 0x3000000 p.kind)).findSome? (warm.destination 0 0x3000000) = some g := by
  refine ⟨by decide +kernel, by decide +kernel, by decide +kernel, by decide +kernel, by decide +kernel, ?_⟩
  rw [warm_moves]
  have h : ∃ g, warm.destination 0 0x3000000 hbmPool = some g := by
    unfold State.destination
    generalize Config.freeFrame warm.steps hbmPool.first = o
    have n : (if 2 * warm.countOf 0x800000 < warm.countOf 0x3000000 then some 0x800000 else (none : Option Nat)) = some 0x800000 := by
      decide +kernel
    cases o with
    | none => simp only [warm_victim, List.foldl]; exact ⟨_, n⟩
    | some f =>
      simp only [warm_victim, List.foldl]
      split
      · exact ⟨_, rfl⟩
      · exact ⟨_, n⟩
  obtain ⟨g, e⟩ := h
  exact ⟨g, by simp [e]⟩

/-- An exchange of the data page with the next frame. -/
def swapping (leaf : Nat) : State :=
  base.modQuad 0 (fun q => { q with exch := some { a := 0x10003, b := 0x10004, leaves := [(0x100010008, leaf)] } })

theorem wit_ExchangeCommit :
    (swapping 0x100030007).nothingWaits ∧
    (∀ l : Bool, let s := swapping (if l then 0x100030007 else 1)
      ∃ e, (s.quad 0).exch = some e ∧ s.leavesStand e = l ∧ e.a ≠ e.b ∧ e.a < 2 ^ 32 ∧ e.b < 2 ^ 32 ∧
        ((s.leavesOf e.a ++ s.leavesOf e.b).map (fun x => x.1)) = [0x100010008] ∧
        ∀ x ∈ s.leavesOf e.a ++ s.leavesOf e.b, x.1 % 8 = 0 ∧ x.1 / 0x10000 ≠ e.a ∧ x.1 / 0x10000 ≠ e.b ∧ bits (s.rd x.1 8) 47 16 = e.a) ∧
    (swapping 0x100030007).Safe ∧ (swapping 1).dev.ckBusy = false ∧ ((swapping 1).modDev (fun d => { d with ckBusy := true })).dev.ckBusy = true := by
  refine ⟨by unfold State.nothingWaits; decide +kernel, ?_, by unfold State.Safe; decide +kernel, by decide +kernel, rfl⟩
  intro l
  cases l <;> exact ⟨_, rfl, by decide +kernel⟩

/-- Accesses of a task at PL 0 missed at blocks 0x1FE and 0x1FF, the superblocks before the data page. -/
def missing (n : Nat) : State := { base with misses := [(0, [{ block := 0x1FF, length := n }])] }

theorem wit_Scouts :
    (base.partOfArcade 0 = 0) ∧ base.scoutFor 0 0 0 0x10008 = none ∧ (missing 1).scoutFor 0 0 0 0x10008 = none ∧
    (missing 2).scoutFor 0 0 0 0x10008 = some 0 ∧ (missing 2).scoutFor 0 0 0 0x101FF = some 0 ∧ (missing 2).scoutFor 0 0 0 0x10200 = none ∧
    (let r : MissRun := { block := 0x1FF, length := 2 }
     r ∈ fget [] (missing 2).misses 0 ∧ r.part = 0 ∧ r.asid = 0 ∧ 2 ≤ r.length ∧ r.block < 0x101FF / 128 ∧ 0x101FF / 128 ≤ r.block + 4) ∧
    (∀ r ∈ fget [] base.misses 0, r.block ≠ 0x1FF) := by decide +kernel

theorem wit_ScoutsIdle :
    (∀ h, ∀ c ∈ (base.tile h).chans, ∀ m, c.2.cmds.head? = some m → m.begun = false) ∧
    (∀ k g, (base.slot k).phase ≠ .waiting (.gather g)) := by
  refine ⟨fun h c hc => ?_, fun k g => ?_⟩
  · cases hc
  · rw [show base.slot k = if 0 = k then task else {} from rfl]
    split <;> (intro h; cases h)

theorem wit_ScoutAccess :
    errIs (base.translate (base.partOfArcade 0) 0 0x20000 false) (fun _ => true) = true ∧
    okIs (base.translate (base.partOfArcade 0) 0 0x10008 false) (fun x => x.2.rdok && !x.2.priv && !(base.deepGone x.2.pa) &&
      !(base.poisoned (x.2.pa / 32 * 32) 32) && ({ base with poison := [(x.2.pa / 32, true)] } : State).poisoned (x.2.pa / 32 * 32) 32) = true := by decide +kernel

theorem wit_noSlots (s : State) (h : s.slots = []) (k : Nat) : (s.slot k).late = none ∧ ∀ g, (s.slot k).phase ≠ .waiting (.gather g) := by
  unfold State.slot
  rw [h]
  exact ⟨rfl, fun g e => by cases e⟩

theorem wit_Errors :
    let p : Storage := .memory 0x100030000
    let s : State := { idleAt 1000000000 with dev := { lastCe := [(p, 7, 1)], tests := [(.bank, 3, 0x60, 0), (.tile, 4, 0x61, 0)] } }
    (State.reset.dev.lastCe.find? (fun e => e.1 == p && e.2.1 == 7) = none) ∧ s.dev.lastCe.find? (fun e => e.1 == p && e.2.1 == 7) = some (p, 7, 1) ∧
    s.now < 1 + 1000000000 ∧ (s.unitAt p).isSome = true ∧ (s.unitAt (.buffer 5 1 0)).isSome = true ∧ s.slots = [] ∧ s.storage 0x100030000 = .near ∧ s.storage 0x8000000000 = .hbm ∧
    s.dev.tests.find? (fun t => t.1 == .bank && t.2.1 == 3) = some (.bank, 3, 0x60, 0) ∧ s.unitSwapping .bank 3 = false ∧ s.errorCount .bank 3 < 3 ∧
    s.dev.tests.find? (fun t => t.1 == .tile && t.2.1 == 4) = some (.tile, 4, 0x61, 0) ∧ s.unitSwapping .tile 4 = false ∧
    ({ s.dev with cxlLink := true } : Device).cxlLink = true ∧ ({ s.dev with cxlPort1 := true } : Device).cxlPort1 = true := by decide +kernel

end

end Sys2Proof.Tests
end

