-- ==== Sys2Proof/Tests/Outside.lean ====
section
/-! SUPPORT. The same for the statements about the fabric, the host and the module. -/

namespace Sys2Proof.Tests

open Sys2Proof.Machine

section
set_option Elab.async false

/-! The fabric. -/

/-- A store flit from device 9 to the device `d`, its first with ESEQ 0. -/
def flitTo (d : BitVec 18) : Flit :=
  { seq := 0, cls := 0, sealedStore := false, dst := d, tpart := 0, src := 9, spart := 0, off := 0, lfmt := 0, mask := 0xFFFFFFFF, data := 7, eseq := 0 }

/-- A bundle whose channel 0 holds `c`. -/
def hop (c : HopChan) : State := State.reset.modBundle 0 (fun b => b.modChan 0 (fun _ => c))

/-- The head of a control flit with a good CRC, and a state to which it has come before. -/
def head : CtlHead := { src := 9, cid := 4, good := true }
def heardIt (s : State) : State := s.modDev (fun d => { d with heard := [(9, 4, 0)] })

theorem wit_Hops :
    (let e (n : BitVec 16) : HopSent := { seq := n, item := .store (flitTo 9) }
     let s := hop { replay := [e 1, e 2, e 3] }
     s.ctlStale head = false ∧ s.tx = [] ∧ ((s.bundle 0).chan 0).queue = [] ∧ ((s.bundle 0).chan 0).replay = [e 1] ++ [e 2] ++ [e 3] ∧ (e 2).seq = 2 ∧
       ∀ y ∈ [e 1], y.seq ≠ 2) ∧
    (heardIt State.reset).ctlStale head = true ∧ State.reset.ctlStale { head with good := false } = true ∧
    (((hop {}).bundle 0).chan 0).nakWait = false ∧ (((hop { nakWait := true }).bundle 0).chan 0).nakWait = true ∧
    (((hop {}).bundle 0).chan 0).unacked = 0 ∧ (((hop { unacked := 1 }).bundle 0).chan 0).unacked ≠ 0 := by decide +kernel

theorem wit_Forwarded :
    (let f := flitTo 5
     readFlit (storeWord f) = some (.store f) ∧ f.src ≠ State.reset.dev.devno ∧ f.dst ≠ State.reset.dev.devno ∧
       (((hop {}).bundle 0).chan 0).nakWait = false ∧ (((hop {}).bundle 0).chan 0).early = [] ∧ f.seq = (((hop {}).bundle 0).chan 0).rxNext ∧
       (((hop {}).bundle 0).chan 0).unacked ≠ 255) ∧
    (let s := hop { nakWait := true, rxNext := 1 }
     0x8000 ≤ ((flitTo 5).seq - ((s.bundle 0).chan 0).rxNext).toNat ∧ ((s.bundle 0).chan 0).nakWait = true) ∧
    crcGood (storeWord (flitTo 5) ^^^ 1) = false ∧ wireClass (storeWord (flitTo 5) ^^^ 1) = 0 := by decide +kernel

/-- A receive region of one page in LPDDR, its directory in HBM4, and a path from device 9. -/
def receiving : State :=
  { (State.reset.modPart 0 (fun p => { p with cfg := { p.cfg with rxbase := 0x030000000000, rxlen := 1, rxdir := 0x008000000000 } })) with
    rx := [{ src := 9, cls := 0 }] }

theorem wit_StoreFlit :
    let f := flitTo 0
    let lf := f.lfmt.toNat
    let c := (receiving.bundle 0).chan 0
    let base := (receiving.part 0).cfg.rxbase.toNat + f.off.toNat
    let entry := (receiving.part 0).cfg.rxdir.toNat + 16 * (f.off.toNat / 0x10000)
    readFlit (storeWord f) = some (.store f) ∧
    f.src ≠ receiving.dev.devno ∧ f.dst = receiving.dev.devno ∧ c.early = [] ∧ f.seq = c.rxNext ∧ c.unacked ≠ 255 ∧ fget false receiving.gone 9 = false ∧
    receiving.dev.ckBusy = false ∧ receiving.rxPath 9 0 = some { src := 9, cls := 0 } ∧ f.sealedStore = false ∧
    f.src.toNat / 256 = receiving.dev.devno.toNat / 256 ∧ lf ≤ 6 ∧ f.off.toNat + spanBytes lf ≤ (receiving.part 0).cfg.rxlen * 0x10000 ∧
    receiving.dev.cxlGone = false ∧ entry + 16 ≤ base ∧ base % 32 = 0 ∧ f.mask.getLsbD 0 = true ∧ ({ f with mask := 0 } : Flit).mask.getLsbD 0 = false ∧
    0 < spanBytes lf / localBytes lf ∧ fget false receiving.dev.senders entry = false := by
  decide +kernel

theorem wit_TagFlit :
    let g (n : BitVec 8) : TagFlit := { seq := 0, cls := 0, dst := 0, tpart := 0, src := 9, spart := 0, n := n, tag := 5, eseq := 0 }
    readFlit (tagWord (g 1)) = some (.tag (g 1)) ∧
    (g 1).src ≠ receiving.dev.devno ∧ (g 1).dst = receiving.dev.devno ∧ (g 1).seq = ((receiving.bundle 0).chan 0).rxNext ∧ (g 1).n ≠ 0 ∧
    (g 1).n.toNat ≤ 8 ∧ (g 8).n.toNat ≤ 8 ∧ receiving.rxPath 9 0 = some { src := 9, cls := 0 } := by decide +kernel

/-- A bundle whose lane `i` is `l`. -/
def laned (i : Nat) (l : Lane) : State := State.reset.modBundle 0 (fun b => b.modLane i (fun _ => l))

theorem wit_Lanes :
    ((State.reset.bundle 0).lane 8).dark = false ∧ ((State.reset.bundle 0).lane 8).retired = false ∧ ((State.reset.bundle 0).lane 0).dark = false ∧
    ((State.reset.bundle 0).lane 0).retired = false ∧ (((laned 3 { retraining := true }).bundle 0).lane 3).retraining = true ∧
    (((laned 3 { retraining := true }).bundle 0).lane 8).retraining = false ∧ (((laned 7 { weight := 7 }).bundle 0).lane 7).retraining = false ∧
    (((laned 7 { weight := 7 }).bundle 0).lane 7).retired = false ∧ (((laned 7 { weight := 7 }).bundle 0).lane 7).weight.toNat < 8 ∧
    16 < (laned 3 { errs := List.replicate 17 0 }).laneErrors 0 3 ∧ State.reset.laneErrors 0 3 ≤ 16 ∧ (((laned 3 { dark := true }).bundle 0).lane 3).dark = true ∧
    State.reset.dev.sourceLost State.reset.dev.source = false := by decide +kernel

theorem wit_noneRetired (n : Nat) : (((laned 3 { retraining := true }).bundle 0).lane n).retired = false := by
  have e : ((laned 3 { retraining := true }).bundle 0).lanes = [(3, { retraining := true })] := by decide +kernel
  unfold Bundle.lane
  rw [e]
  by_cases h : 3 = n
  · subst h; decide +kernel
  · have d : (laneDefault n).retired = false := by unfold laneDefault; split <;> rfl
    simp only [fget]
    split <;> simp_all

/-- A store of the task that has left for device 9 and is not settled. -/
def outgoing (n : Word) : State :=
  { base with time := n, tx := [{ dst := 9, cls := 0, ready := true, mine := some 1, next := 1, stores := [{ task := 1, flit := { flitTo 9 with src := 0 }, sent := true }] }] }

theorem wit_Settled :
    (head.src ≠ (outgoing 0).dev.devno) ∧ ((outgoing 0).txPath 9 0).map (fun x => x.stores.map (fun w => (w.sent, w.flit.eseq.toNat, w.sentAt))) = some [(true, 0, 0)] ∧
    (outgoing 0).ctlStale head = false ∧ (heardIt (outgoing 0)).ctlStale head = true ∧
    0 + 5000000 ≤ (outgoing 5000000).now ∧ (outgoing 0).now < 0 + 5000000 ∧ (0xA0#8) ≠ 0 := by decide +kernel

theorem wit_Paths :
    (receiving.rxPath 9 0 = some { src := 9, cls := 0 } ∧ 0 < (1#32).toNat ∧ receiving.ctlStale head = false) ∧
    (let f := { flitTo 0 with sealedStore := true }
     let s : State := { receiving with rx := [{ src := 9, cls := 0, held := [f] }] }
     (s.rxPath 9 0).map (fun p => p.held) = some [f] ∧ f.sealedStore = true ∧ f.eseq.toNat = 0 ∧ s.dev.ckBusy = false) ∧
    (let x (n : Nat) (r : Bool) : TxPath := { dst := 9, cls := 0, group := (0, n), ready := r, mine := if r then some 1 else none }
     let s (n : Nat) (r : Bool) : State := { base with tx := [x n r] }
     (s 0 false).txPath 9 0 = some (x 0 false) ∧ (s 1 false).txPath 9 0 = some (x 1 false) ∧ (x 1 false).group.2 ≠ 0 ∧ (x 0 false).ready = false ∧
       (∀ w ∈ (x 0 false).stores, w.sent = false) ∧ fget false (s 0 false).gone 9 = false ∧ (s 0 true).txPath 9 0 = some (x 0 true) ∧
       (x 0 true).mine.isSome = true ∧ (x 0 true).peer = none ∧ (x 0 true).stores = [] ∧ (s 0 true).ctlStale head = false) ∧
    (let w : WStore := { task := 1, flit := { flitTo 9 with src := 0, sealedStore := true }, sent := true }
     let x : TxPath := { dst := 9, cls := 0, ready := true, mine := some 1, peer := some 2, next := 1, stores := [w], group := (0, 1), port := some 3 }
     let s : State := { base with tx := [x] }
     s.txPath 9 0 = some x ∧ w.sent = true ∧ x.group = (w.flit.eseq.toNat, 1) ∧ s.pathPort x = some 3 ∧ ((s.bundle 3).chan 0).queue = [] ∧
       ((s.bundle 3).chan 0).replay.length < 4096) ∧
    base.txPath 9 0 = none ∧ fget false ({ base with gone := [(9, true)] } : State).gone 9 = true ∧
    ({ base with gone := [(9, true)] } : State).ctlStale head = false ∧ base.dev.ckBusy = false := by decide +kernel

/-! The module, the debugger and the host. -/

def goodRecord : ConfigRec :=
  { genuine := true, version := 1, cxlPort1 := false, nearLow := 0, qb := [60, 160, 110, 110], ckBase := 0x020000000000,
    parts := (List.range 16).map PartRec.initial }

theorem wit_ColdReset : recordOk goodRecord 0 = true ∧ recordOk goodRecord 1 = true ∧ recordOk goodRecord 2 = false ∧ State.reset.dev.held = false := by
  decide +kernel

theorem wit_PartitionReset : base.Safe ∧ (State.reset.cells = []) ∧ ∀ k, (State.reset.slot k).gang = false :=
  ⟨by unfold State.Safe; decide +kernel, rfl, fun _ => by simp only [State.slot, State.reset, fget]; rfl⟩

theorem wit_Checkpoint :
    ({ base.dev with ckBusy := true } : Device).ckBusy = true ∧ base.dev.ckBusy = false ∧ base.Safe ∧ 0x0200_0000_0000 ≤ base.dev.ckBase ∧
    State.reset.pristine = true ∧ (State.reset.modPart 3 (fun p => { p with serial := 2 })).pristine = false := by
  unfold State.Safe; decide +kernel

/-- The task halted in its slot; and saved in an area. -/
def halted : State := (with' (fun l => { l with phase := .halted })).modPart 0 (fun p => { p with cfg := { p.cfg with dbgen := true, salen := 1 } })
def archived : State := { (State.reset.modPart 0 (fun p => { p with
  cfg := { p.cfg with dbgen := true }
  saved := [{ area := 0x100050000, ctx := { task with phase := .halted }, home := 0 }] })) with mem := pages }

theorem wit_Requests :
    base.Safe ∧ base.liveHere 0 1 = true ∧ base.liveHere 0 2 = false ∧ base.liveHere 1 1 = false ∧ (halted.part 0).cfg.dbgen = true ∧
    halted.liveHere 0 1 = true ∧ (base.part 0).cfg.dbgen = false := by unfold State.Safe; decide +kernel

theorem wit_HaltedAlone : HaltedAlone halted 1 0 := ⟨by decide +kernel, by decide +kernel, by decide +kernel, by decide +kernel⟩

theorem wit_Debugger :
    halted.Safe ∧ (halted.part 0).dbgBusy = false ∧ BitVec.ofNat 64 (0 * 2 ^ 60 + (1#60).toNat) = 1 ∧ (halted.slot 0).load = none ∧
    (halted.slot 0).arrived = none ∧ halted.freeAreas 0 = [0] ∧ (halted.slot 0).part = 0 ∧
    archived.Safe ∧ (archived.part 0).dbgBusy = false ∧ (archived.part 0).cfg.dbgen = true ∧
    (match (archived.part 0).saved with
     | [x] => decide (x.ctx.taskid = 1 ∧ x.queued = false ∧ x.ctx.phase = .halted ∧ archived.stopCause x ≠ 0x85)
     | _ => false) = true ∧
    ((halted.modPart 0 (fun p => { p with dbgBusy := true })).part 0).dbgBusy = true := by
  unfold State.Safe; decide +kernel

theorem wit_Registers :
    wbit State.reset.dev.mcqLen 63 = false ∧ wbit (5#64) 63 = false ∧ wbit (1#64) 0 = true ∧ wbit (0#64) 0 = false ∧
    ({ State.reset.dev with cxlLink := true } : Device).cxlIn = false ∧ (State.reset.queue 2).hostq = false ∧ (State.reset.queue 2).en = false ∧
    (let u : Queue := { cfg := 0x1000000 }
     u.hostq = true ∧ ((16#32) - u.tail).toNat < 2 ^ 31 ∧ ((16#32) - u.head).toNat ≤ u.qlen ∧ 2 ^ 31 ≤ ((0x80000000#32) - u.tail).toNat ∧
       u.qlen < ((17#32) - u.head).toNat ∧ u.comps = []) ∧ ((4 : Nat) ≠ 8 ∧ (0x54#26).toNat % 8 ≠ 0) := by decide +kernel

theorem wit_HostMemory :
    (∀ i, i < 2 → base.writeWaits ((0x10003001F + i) / 32 * 32) = false ∧ base.storage ((0x10003001F + i) / 32 * 32) ≠ .hole ∧
      base.deepGone (0x10003001F + i) = false ∧ base.inTable ((0x10003001F + i) / 32) = false ∧
      base.storage (max 0x10003001F ((0x10003001F + i) / 32 * 32)) ≠ .hole ∧ base.deepGone (max 0x10003001F ((0x10003001F + i) / 32 * 32)) = false) ∧
    fget none base.dirty (0x10003001F / 32) = none := by
  refine ⟨?_, by decide +kernel⟩
  have h : ∀ i : Fin 2, base.writeWaits ((0x10003001F + i.val) / 32 * 32) = false ∧ base.storage ((0x10003001F + i.val) / 32 * 32) ≠ .hole ∧
      base.deepGone (0x10003001F + i.val) = false ∧ base.inTable ((0x10003001F + i.val) / 32) = false ∧
      base.storage (max 0x10003001F ((0x10003001F + i.val) / 32 * 32)) ≠ .hole ∧ base.deepGone (max 0x10003001F ((0x10003001F + i.val) / 32 * 32)) = false := by
    decide +kernel
  exact fun i hi => h ⟨i, hi⟩

theorem wit_MsixUnmask :
    ∀ b : Bool, let m : Msix := { pending := [(7, true)], masked := b }
    let s : State := { State.reset with msix := [(0, m)], dev := { portDown := 0 } }
    s.port 0 = m ∧ m.enabled = true ∧ s.dev.portDown.getLsbD 0 = false := by decide +kernel

end

end Sys2Proof.Tests
end

