-- ==== Sys2Proof/Tests/Clauses.lean ====
section
/-! SUPPORT. The same for the clauses of statements that speak of one case each: checks that fail, engines that stop, values of formats,
barriers of a gang, messages and workers with a barrier. -/

namespace Sys2Proof.Tests

open Sys2Proof.Machine

section
set_option Elab.async false

/-! The step (O8). -/

/-- The word at the pc lies in a line of the tile's L1. -/
def lined : State := match (placed 0x0448C000).fetch (placed 0x0448C000).cur with | .ok (u, _) => u | .error _ => placed 0

theorem wit_FetchHit :
    let s := lined
    let hit := s.lineBits (s.physTile (homeOf s.cur)) { s.me with seg := {} } false (s.me.pc.toNat / 32)
    hit.isSome = true ∧ (match hit with
      | some b => (s.lineXlat s.me.part s.me.asid.toNat s.me.pc.toNat b).any (fun x =>
          x.ex && !x.priv && !(s.poisoned x.pa 4) && !(s.deepGone x.pa))
      | none => false) = true := by decide +kernel

theorem wit_Admits :
    (State.reset.modDev (fun d => { d with held := true })).admits .cxlRemoval = false ∧ isColdReset .cxlRemoval = false ∧
    State.reset.dev.held = false ∧ State.reset.dev.portDown = 3 ∧ isBarAccess .checkpointStart = true ∧
    (State.reset.modDev (fun d => { d with held := false, portDown := 0 })).admits .cxlRemoval = true := by decide +kernel

theorem wit_GangDue :
    let s := (gang (.phsw 1) 0).modDev (fun d => { d with held := false })
    s.agenda = [] ∧ s.dev.held = false ∧ s.gangDue s.cur = true := by decide +kernel

/-! GTH (O27). -/

/-- The gathering task with the descriptor `x`, indices at 0x10100. -/
def gatherOf (x : Nat) : State := gathering.modTile 0 (fun t => { t with ab := wrN [] 0 32 x })
def descOf (count tlen elog : Nat) : Nat := 0x10000 + 0x10100 * 2 ^ 64 + count * 2 ^ 128 + tlen * 2 ^ 160 + elog * 2 ^ 192

theorem wit_GatherOperands :
    errIs (gathering.checkBuffer 0 1 0x40000 32) (fun c => c == 0x21) = true ∧
    (gatherOf (descOf 1 1 3)).checkBuffer 0 1 ((gatherOf (descOf 1 1 3)).me.gr 0) 32 = .ok (0, 0) ∧ (gatherOf (descOf 1 1 3)).markedIn 0 1 0 32 = none ∧
    (∀ x ∈ [descOf 1 1 1, descOf 1 1 10, descOf 0 1 3, descOf 1 1 3 + 3 * 2 ^ 196, descOf 1 1 3 + 2 ^ 198],
      let y := (gatherOf x).bufRead 0 1 0 32
      bits y 195 192 < 2 ∨ 9 < bits y 195 192 ∨ bits y 197 196 = 3 ∨ bits y 159 128 = 0 ∨ bits y 255 198 ≠ 0) ∧
    (let y := (gatherOf (descOf 1 1 3)).bufRead 0 1 0 32
     ¬(bits y 195 192 < 2 ∨ 9 < bits y 195 192 ∨ bits y 197 196 = 3 ∨ bits y 159 128 = 0 ∨ bits y 255 198 ≠ 0) ∧
     bits 0x3FFF8 17 0 + bits y 159 128 * 2 ^ bits y 195 192 ≤ 0x40000 ∧ ¬bits 0x3FFFC 17 0 + bits y 159 128 * 2 ^ bits y 195 192 ≤ 0x40000 ∧
     bits 0x3FFF4 17 0 % 2 ^ bits y 195 192 ≠ 0 ∧ bits 0x3FFF8 17 0 % 2 ^ bits y 195 192 = 0) ∧
    (bits 0x8000000000000000 63 56 = 128 + 0 % 128) ∧ ¬(bits 0x8100000000000000 63 56 = 0 ∨ bits 0x8100000000000000 63 56 = 128 + 0 % 128) ∧
    ((gathering.lstall 0).dead = false) := by
  refine ⟨by decide +kernel, rfl, ?_⟩
  decide +kernel

/-- The engine at work for a descriptor. -/
def engagedOf (x : Nat) : State := after (.gth 4 0 5) (gatherOf x)

/-- What an engine's read at its first element gives: the index, and then the element. -/
def gatherTries (s : State) (p : Except (BitVec 8) (State × Nat) → (GatherRun → Nat → State → Except (BitVec 8) (State × Nat)) → Bool) : Bool :=
  match (s.slot 0).phase with
  | .waiting (.gather g) => p (s.gatherRead g.desc.ibase (2 ^ (g.desc.iw + 1))) (fun g ix u =>
      u.gatherRead (g.desc.tbase + BitVec.ofNat 64 (ix * 2 ^ g.desc.elog)) (2 ^ g.desc.elog))
  | _ => false

theorem wit_GatherTraps :
    (let s := engagedOf (descOf 1 1 3)
     (s.slot 0).pidx.toNat + 1 = 1 ∧ s.cut = none ∧ (s.slot 0).stepping = false ∧ (s.slot 0).gang = false ∧ (s.slot 0).doomed = false ∧
       CanTrap (s.slot 0) (s.slot 0).unitStart) ∧
    gatherTries (engagedOf (descOf 1 1 3 + 0x100000 * 2 ^ 64)) (fun x _ => errIs x (fun c => c == 0x21)) = true ∧
    gatherTries (engagedOf (descOf 1 0 3)) (fun x _ => okIs x (fun p => p.2 == 0)) = true ∧
    gatherTries (engagedOf (descOf 1 1 3 + 0x100000)) (fun x _ => okIs x (fun p => decide (p.2 < 1) && p.1.cur == 0 &&
      decide (p.1.slot 0 = (engagedOf (descOf 1 1 3 + 0x100000)).slot 0) &&
      errIs (p.1.gatherRead (0x110000 : Word) 8) (fun c => c == 0x21))) = true := by
  refine ⟨by unfold CanTrap LegalTarget; decide +kernel, by decide +kernel, by decide +kernel, by decide +kernel⟩

theorem wit_GatherStops :
    (let s := engagedOf (descOf 2 1 3)
     match (s.slot 0).phase with
     | .waiting (.gather g) => g.desc.count == 2 && okIs (({ s with cut := some 1 } : State).gatherRun g 0 1) (fun v => !(v.slot 0).stepping) &&
        okIs ((s.modSlot 0 (fun l => { l with stepping := true })).gatherRun g 0 1) (fun v => (v.slot 0).stepping)
     | _ => false) = true := by decide +kernel

/-! Vectors (O31, O34, O35, O37). -/

theorem wit_Codes :
    floatFormat 3 = some (23, -149, 0x7F7FFFFF, 31) ∧ 0xFF7FFFFF % 2 ^ 31 ≤ 0x7F7FFFFF ∧ 0xFF800000 % 2 ^ 31 = 0x7F7FFFFF + 1 ∧ (3 ≠ 7) ∧
    0x7F7FFFFF < 0x7F800001 % 2 ^ 31 ∧ 0x7F800001 % 2 ^ 31 ≠ 0x7F7FFFFF + 1 ∧ (floatFormat 7).map (fun x => x.2.2) = some (0x7E, 7) ∧
    0x7E < 0xFF % 2 ^ 7 ∧ intTag 1 = true ∧ (fill 10 5).tag = 10 := by decide +kernel

/-- Registers of one element each: the infinities, 1, −0 and +0 of F32, 1 of H16 and of B16, and a scale of E8. -/
def floats : State := with' (fun l => { l with
  v := [(0, fill 3 0x7F800000), (1, fill 3 0xFF800000), (2, fill 3 0x3F800000), (3, fill 3 0x80000000), (4, fill 4 0x3C00), (5, fill 5 0x3F80),
        (6, fill 12 0x7F), (7, fill 3 0x7FC00000)]
  k := [(1, 1)] })

theorem wit_VectorValues :
    (∃ op, vecOpOf (.vadd 8 0 1 0) floats.me = some op ∧ (vecValueOf (.vadd 8 0 1 0) floats.me).isSome = true ∧ (Instr.vadd 8 0 1 0).wf = true ∧
      op.accepted ∧ op.writable (floats.me.vr op.vd.toNat) ∧ 0 < 1024 / tagWidth op.tag ∧ op.mask.getLsbD (0 * tagWidth op.tag / 32) = true ∧
      elementwise (.vadd 8 0 1 0) = true ∧ ∀ x ∈ op.srcs, (x.value 0).isNan = false) ∧
    (∃ op, vecOpOf (.vredAdd 8 2 1) floats.me = some op ∧ (vecValueOf (.vredAdd 8 2 1) floats.me).isSome = true ∧ op.accepted ∧
      op.writable (floats.me.vr op.vd.toNat)) ∧
    (∃ op, vecOpOf (.vcvt 8 2 0 4) floats.me = some op ∧ (vecValueOf (.vcvt 8 2 0 4) floats.me).isSome = true ∧ op.accepted ∧
      op.writable (floats.me.vr op.vd.toNat)) ∧
    floats.me.rmode ≠ 4 := by
  refine ⟨⟨_, rfl, by decide +kernel, by decide +kernel, ?_⟩, ⟨_, rfl, by decide +kernel, ?_⟩, ⟨_, rfl, by decide +kernel, ?_⟩, by decide +kernel⟩ <;>
    (unfold VecOp.accepted VecOp.writable; decide +kernel)

/-- The sum of infinities of both signs is NaN, whatever its sources' other elements. -/
theorem wit_VectorInvalid (r : Machine.Num) (h : IsSum false (.inf false) (.inf true) r) : r.isNan = true := by
  unfold IsSum at h
  simpa using h

theorem wit_infinities : ((floats.me.vr 0).value 0, (floats.me.vr 1).value 0) = (.inf false, .inf true) := by decide +kernel

theorem wit_Compare :
    (∀ t ∈ [2, 4, 5], arithmeticTag (floats.me.vr t).tag = true) ∧ compareOf (.vcmpEq 2 3 2 1) = some (0, 2, 3, 2, 1) ∧
    (floats.me.vr 3).tag = (floats.me.vr 2).tag ∧ (2#3 ≠ 0) ∧ (floats.me.kr 1).getLsbD 0 = true := by decide +kernel

theorem wit_QuantiseOperands :
    (∀ t ∈ [2, 4, 5], (floats.me.vr t).tag = 3 ∨ (floats.me.vr t).tag = 4 ∨ (floats.me.vr t).tag = 5) ∧ (floats.me.vr 6).tag = 12 ∧
    (floats.me.vr 9).tag = 0 ∧ ((with' (fun l => { l with v := [(9, fill 7 0x38)] })).me.vr 9).tag = 7 ∧ (Instr.vqnt 9 2 6 7).wf = true ∧
    (Instr.vqnt 9 2 24 7).wf = true := by decide +kernel

theorem wit_StoppedStore :
    (lanes 0x7B).bufHeld 0 = false ∧ ({ lanes 0x7B with cut := some 3 } : State).bufHeld 0 = false ∧ ((lanes 0x7B).me.vr 1).tag ≠ 0 ∧
    okIs (({ lanes 0x7B with cut := some 3 } : State).checkBuffer 0 1 0x80 4) (fun p => p == (0, 0x80)) = true := by decide +kernel

/-! Gangs (O39, O40, O43, O44). -/

theorem wit_GangFinding :
    let s := gang (.mxp 1 2 0 5 0) 0x1001
    keys16.head? = some 0 ∧ (∀ k ∈ keys16, k / 8 / 16 = 0) ∧ (∀ k ∈ keys16, (s.slot k).arrived = some (.mxp 1 2 0 5 0, [], 0x1001) ∧ (s.slot k).pidx = 0) ∧
    (s.pstall (s.physStall 0)).omuRetired = false ∧
    ((s.modPStall 0 (fun p => { p with omuRetired := true })).pstall 0).omuRetired = true := by decide +kernel

theorem arrivedAlike_of (s : State) (j k : Nat) (i : Instr) (v w : Word) (hj : (s.slot j).arrived = some (i, [], v)) (hk : (s.slot k).arrived = some (i, [], w))
    (h : (s.slot j).pidx = (s.slot k).pidx) : s.arrivedAlike j k := ⟨i, [], [], v, w, hj, hk, fun _ => Iff.rfl, h⟩

/-- The last member differs in PIDX, and in a bit of its operand that must agree. -/
theorem wit_GangDiffers :
    (let s := (gang (.mxp 1 2 0 5 0) 0x1001).modSlot 120 (fun l => { l with pidx := 1 })
     keys16 = (List.range 15).map (fun t => t * 8) ++ 120 :: [] ∧ (∀ j ∈ (List.range 15).map (fun t => t * 8), s.arrivedAlike 0 j) ∧
       ¬s.arrivedAlike 0 120) ∧
    (let s := (gang (.mxp 1 2 0 5 0) 0x1001).modSlot 120 (fun l => { l with arrived := some (.mxp 1 2 0 5 0, [], 0x1002) })
     (∀ j ∈ keys16, s.arrivedAlike 0 j) ∧ uniformBits (.mxp 1 2 0 5 0) (s.arrival 120).2 ≠ uniformBits (.mxp 1 2 0 5 0) (s.arrival 0).2 ∧
       ∀ j ∈ (List.range 15).map (fun t => t * 8), uniformBits (.mxp 1 2 0 5 0) (s.arrival j).2 = uniformBits (.mxp 1 2 0 5 0) (s.arrival 0).2) := by
  refine ⟨⟨by decide, fun j hj => ?_, ?_⟩, fun j hj => ?_, by decide +kernel, by decide +kernel⟩
  · have h : ∀ j ∈ (List.range 15).map (fun t => t * 8),
        (((gang (.mxp 1 2 0 5 0) 0x1001).modSlot 120 (fun l => { l with pidx := 1 })).slot j).arrived = some (.mxp 1 2 0 5 0, [], 0x1001) ∧
        (((gang (.mxp 1 2 0 5 0) 0x1001).modSlot 120 (fun l => { l with pidx := 1 })).slot j).pidx = 0 := by decide +kernel
    exact arrivedAlike_of _ _ _ _ _ _ (h 0 (by decide)).1 (h j hj).1 ((h 0 (by decide)).2.trans (h j hj).2.symm)
  · rintro ⟨i, hs, us, v, w, -, -, -, h⟩
    exact absurd h (by decide +kernel)
  · have h : ∀ j ∈ keys16,
        (((gang (.mxp 1 2 0 5 0) 0x1001).modSlot 120 (fun l => { l with arrived := some (.mxp 1 2 0 5 0, [], 0x1002) })).slot j).arrived =
          some (.mxp 1 2 0 5 0, [], if j = 120 then 0x1002 else 0x1001) ∧
        (((gang (.mxp 1 2 0 5 0) 0x1001).modSlot 120 (fun l => { l with arrived := some (.mxp 1 2 0 5 0, [], 0x1002) })).slot j).pidx = 0 := by
      decide +kernel
    exact arrivedAlike_of _ _ _ _ _ _ (h 0 (by decide)).1 (h j hj).1 ((h 0 (by decide)).2.trans (h j hj).2.symm)

/-- A row whose scale, or whose image, is NaN, and one of finite factors. -/
theorem wit_Readings :
    let p (im : Image) : PassSlot := { ls := 0, fmt := 0, gain := 0, offs := [], image := im, ebc := 8 }
    (State.reset.bufRead 0 1 (0 + actBytes 0 + 0) 1 ≠ 0xFF) ∧ rdN (p im0).image 2 1 ≠ 0xFF ∧ rdN (p [(2, 0xFF)]).image 2 1 = 0xFF ∧
    ((State.reset.modTile 0 (fun t => { t with ab := [(actBytes 0, 0xFF)] })).bufRead 0 1 (0 + actBytes 0 + 0) 1 = 0xFF) ∧
    (∀ x ∈ State.reset.rowInputs (p im0) 0, x.isNan = false) := by decide +kernel

theorem wit_GangWorkUnits :
    (let s := passing (.phrd 2 5) 0x202
     Gathered s 0 1 keys16 (.phrd 2 5) ∧ s.inPass keys16 = true ∧ (∀ k ∈ keys16, 1 ≤ ((s.slot k).ring 2).free) ∧
     bits (s.lead keys16).2.toNat 8 0 + bits (s.lead keys16).2.toNat 17 9 ≤ 257) ∧
    (∀ b : Bool, let v : Word := if b then 0x100020200 else 0x20200
     let s := passing (.phwr 2 0 5) v
     Gathered s 0 1 keys16 (.phwr 2 0 5) ∧ s.inPass keys16 = true ∧ bit (s.lead keys16).2.toNat 32 = b ∧
     (∀ k ∈ keys16, Nat.max 1 ((s.lead keys16).1.count 0) ≤ ((s.slot k).ring 2).filled) ∧ s.tiles = []) := by
  refine ⟨⟨gathered _ _ (by decide +kernel) (by decide +kernel), by decide +kernel⟩, fun b => ?_⟩
  cases b <;> exact ⟨gathered _ _ (by decide +kernel) (by decide +kernel), by decide +kernel⟩

/-- Units of a stall that holds nothing read as nothing. -/
theorem units_none (s : State) (off : Nat → Nat) (ht : s.tiles = []) : s.readUnits 0 off 0 257 [] = [] := by
  have z (a n : Nat) : wrN [] a n 0 = [] := by
    induction n generalizing a with
    | zero => rfl
    | succ n ih => exact ih (a + 1)
  have r (h o n : Nat) : s.bufRead h 2 o n = 0 := by
    unfold State.bufRead State.tile
    rw [ht]
    exact none_read _ _
  have go : ∀ l : List Nat, l.foldl (fun m i =>
      let u := 0 + i
      wrN m (64 * u) 64 (s.bufRead (0 * 16 + u % 16) 2 (off (u % 16) + unitOffset u) 64)) [] = [] := by
    intro l
    induction l with
    | nil => rfl
    | cons i l ih => simpa only [List.foldl_cons, r, z] using ih
  exact go _

theorem none_sum : imageSum [] = 0 := by
  have e : (List.range 4096).map (fun i => rdN [] (64 + 4 * i) 4) = List.replicate (List.range 4096).length 0 :=
    List.map_eq_replicate_iff.mpr (fun i _ => none_read _ _)
  unfold imageSum
  simp only [e, sum_zeros, Nat.zero_mod]

/-- PHWR of the image in ring 2, and of a slot of zeros, whose header is no valid one. -/
theorem wit_GangWorkWrites :
    (let s := imaged (.phwr 2 0 5) 0x100020200
     let x := s.readUnits 0 (s.slotOffset keys16 2 false) 0 257 []
     Gathered s 0 1 keys16 (.phwr 2 0 5) ∧ (∀ h, (s.tile h).marked = []) ∧ imageFault (wrN x 8 4 (imageSum x)) = none) ∧
    (let s := passing (.phwr 2 0 5) 0x100020200
     let x := s.readUnits 0 (s.slotOffset keys16 2 false) 0 257 []
     (imageFault (wrN x 8 4 (imageSum x))).isSome = true) := by
  refine ⟨⟨gathered _ _ (by decide +kernel) (by decide +kernel), unmarked_all _ (imaged_tiles _ _), ?_⟩, ?_⟩
  · rw [units_read _ _ (imaged_tiles _ _) (by decide +kernel), im0_sum, im0_zeros _ _ (by decide), im0_fault]
  · have p : (passing (.phwr 2 0 5) 0x100020200).tiles = [] := by
      unfold passing
      rw [modAll_tiles]
      rfl
    dsimp only
    rw [units_none _ _ p, none_sum]
    unfold imageFault imageFaults
    decide +kernel

theorem wit_GangWorkDecStripes :
    let s := passing (.dec 2 0 6 0 2) 0
    Gathered s 0 1 keys16 (.dec 2 0 6 0 2) ∧ s.inPass keys16 = true ∧ (s.lead keys16).1.count 0 ≤ 1 ∧ (s.lead keys16).1.pidx = 0 ∧ s.held = [] ∧
    (∀ k ∈ keys16, 1 ≤ ((s.slot k).ring 2).filled ∧ bits (s.arrival k).2.toNat 63 56 = 0) ∧ s.tiles = [] :=
  ⟨gathered _ _ (by decide +kernel) (by decide +kernel), by decide +kernel⟩

/-- The unit at the end of its map, its source ring empty. -/
theorem wit_UnfoldWaits :
    let s := (ringed.modMe (fun l => l.setRing 2 { ringOf 0 17 with filled := 0, free := 4 })).modTile 0 (fun t => { t with
      unfold := some { task := 1, qa := 1, qc := 2, left := 1, desc := 0x80, adv := true } })
    (s.tile 0).unfold.map (fun u => (u.rings, u.adv)) = some (none, true) ∧ s.findSlot 1 0 = some 0 ∧
    (UDesc.ofNat (s.bufRead 0 1 0x80 32)).next = (UDesc.ofNat (s.bufRead 0 1 0x80 32)).total ∧ ((s.slot 0).ring 2).filled = 0 := by
  decide +kernel

theorem wit_UnfoldAccess :
    (match (unfolding.tile 0).unfold with
     | some u => !(unfolding.heldUp (stallOf 0) (u.access 0)) && u.rings.isNone
     | none => false) = true := by decide +kernel

theorem wit_Contributions :
    let rows : List (List Int × Option Int) := [([5, 0, 0, 0], some 0), ([5, 0, 0, 0], none)]
    let x : Tile := { blk := [(0, { e := 0 })] }
    4094 + rows.length ≤ 4096 ∧ (0 < 4) ∧ (1 < rows.length) ∧ (rows.getD 1 ([], none)).2 = none ∧
    (rows.getD 0 ([], none)).2 = some (x.block 0 0).e.toInt ∧ (x.block 0 0).e ≠ 0x200 ∧
    ((rows.getD 0 ([], none)).1.getD (4 * 0 + 0) 0 * 1).natAbs < 2 ^ 23 ∧ (x.entry 0 0).c.toNat < 15 := by decide +kernel

/-! Tasks, messages and copies (O47, O48, O49, O50). -/

/-- A message with barrier 2 of the task under way to tile 5. -/
def tied : State := { (base.modPart 0 (fun p => { p with serial := 2 })) with net := [{ note with barrier := some 2 }] }

theorem wit_TiedMessage :
    tied.arrives 0 false = some { note with barrier := some 2 } ∧ tied.tileDead 5 = false ∧ tied.findSlot 1 0 = some 0 ∧ (tied.newTask 0).2 ≠ 1 ∧
    (tied.tile 5).mailbox = [] ∧ (tied.freeSlots 5).head? = some 40 ∧
    (let s (n : BitVec 16) := tied.modTile 5 (fun t => { t with mailbox := [note], mqcap := n })
     (s 2).arrives 0 false = some { note with barrier := some 2 } ∧ ((s 2).tile 5).mailbox ≠ [] ∧
       ((s 2).tile 5).mailbox.length < ((s 2).tile 5).mqcap.toNat ∧ (s 2).mailboxLost 5 = false ∧
       (s 1).arrives 0 false = some { note with barrier := some 2 } ∧ ¬((s 1).tile 5).mailbox.length < ((s 1).tile 5).mqcap.toNat) := by
  decide +kernel

/-- The forking task with record `x`, for 5 iterations. -/
def forks (x : Nat) : State := { with' (fun l => (l.gw 4 0x10040).gw 6 5) with mem := wrN pages 0x100030040 64 x }
def workers (maxw lab lwb gang : Nat) : Nat :=
  0x200 + 7 * 2 ^ 64 + 2 ^ 256 + maxw * 2 ^ 288 + lab * 2 ^ 304 + lwb * 2 ^ 312 + gang * 2 ^ 320

/-- The workers that a record asks for and the units they get. -/
def asked (s : State) : Option (State × Fork × List Nat) :=
  match (s.commitSlot 0).readRecord (s.me.gr 4) 64 with
  | .ok (v, x) => if (ForkRec.ofNat x).bad then none else
      let f := forkAsked v.me x (s.me.gr 6)
      some (v, f, v.units f 0 (Nat.min f.maxw ((5 + f.grain - 1) / f.grain)))
  | .error _ => none

theorem wit_Workers :
    (forks (workers 2 0 0 0)).clean ∧ (forks (workers 2 0 0 0)).me.phase = .ready ∧ ((forks (workers 2 0 0 0)).me.gr 4).toNat % 64 = 0 ∧
    (asked (forks (workers 2 0 0 0))).any (fun p => p.2.2 == [0, 1] && p.1.freeCellAt (cellBase 0 [0, 0]) == some 0 && p.1.me.barriers 1 != 0xFFFF &&
      (p.1.freeSlots 1).head? == some 8 && p.1.leaseRoom [1] 0 0 == some (0, 0)) = true ∧
    (asked (forks (workers 1 1 1 0))).any (fun p => p.2.2 == [0] && (p.1.leaseRoom [0] 1 1).isSome && p.2.1.lab == 1 && p.2.1.lwb == 1) = true ∧
    (asked (forks (workers 1 0 0 1))).any (fun p => p.2.1.gang && p.2.2 == [0] && (p.1.freeSlots 15).head? == some 120 &&
      (tilesOf 0).contains 15 && p.1.leaseRoom (tilesOf 0) 0 0 == some (0, 0)) = true := by
  unfold State.clean; decide +kernel

/-- Every quadrant is over its budget and takes no worker; the run queue has room or none; the cells or the barrier are full. -/
def withheldFork (n : Nat) : State :=
  ({ forks (workers 1 0 0 0) with quads := (List.range 4).map (fun q => (q, { overBudget := true })) } : State).modTile 0 (fun t => { t with
    runq := List.replicate n { kind := .saved 0 } })
def fullSwitch : State := { forks (workers 1 0 0 0) with cells := (List.range 64).map (fun i => (i, some {})) }

theorem wit_WorkersQueued :
    (asked (withheldFork 15)).any (fun p => p.2.2 == [] && (p.1.tile 0).runq.length == 15 && p.1.freeCellAt (cellBase 0 []) == some 0) = true ∧
    (asked (withheldFork 16)).any (fun p => p.2.2 == [] && (p.1.tile 0).runq.length == 16) = true ∧ (withheldFork 15).clean ∧ (withheldFork 16).clean := by
  unfold State.clean; decide +kernel

theorem wit_WorkersWait :
    (asked fullSwitch).any (fun p => p.1.freeCellAt (cellBase 0 (p.2.2.map stallOf)) == none) = true ∧
    (asked ((forks (workers 1 0 0 0)).modMe (fun l => { l with b := [(1, 0xFFFF)] }))).any (fun p => p.1.me.barriers 1 == 0xFFFF) = true := by
  decide +kernel

/-- A member of a gang, and a task that is switched out, under ENDH. -/
theorem wit_EndHalts :
    (let s := (gang (.phsw 0) 0).modPart 0 (fun p => { p with dbgctl := 2 })
     s.endh 0 0x0C = true ∧ 8 ∈ s.gangKeys 0) ∧
    (let s : State := State.reset.modPart 0 (fun p => { p with dbgctl := 2, saved := [{ area := 0x100050000, ctx := task, home := 0 }] })
     (∀ y ∈ (s.part 0).saved, y.area % 0x2000 = 0) ∧ (s.part 0).saved ≠ [] ∧ s.endh 0 0xC0 = true) := by decide +kernel

/-- CPY.STOP of a command whose descriptor names a completion word in a page that is being moved. -/
def wording : State :=
  ({ base.modTile 0 (fun t => { t with chans := [(2, { cmds := [{ first := 0x10040, count := 1, task := 1, slot := some 0 }] })] }) with
    mem := wrN pages 0x100030040 64 (32 * 2 ^ 128 + 0x19 * 2 ^ 352 + 0x10008 * 2 ^ 384) }).modQuad 0 (fun q => { q with
      exch := some { a := 0x10003, b := 0x10004 } })

theorem wit_StopWaits :
    (match ((wording.tile 0).chan 2).cmds with
     | [m] => decide (m.task = wording.me.taskid ∧ m.status = 0 ∧ m.idx < m.count) &&
         (match wording.wordOf m m.idx with
          | some w => wording.commandWaits m w.toNat
          | none => false)
     | _ => false) = true := by decide +kernel

/-! The module (O54, O56, O58 to O60). -/

theorem wit_PowerConditions :
    (idleAt 99999).now < ((idleAt 99999).quad 0).budgetAt + 100000 ∧ (idleAt 99999).now < ((idleAt 99999).quad 0).moduleAt + 100000 ∧
    ¬(((idleAt 100000).quad 0).overBudget = true ∨ (idleAt 100000).now < ((idleAt 100000).quad 0).budgetAt + 100000) ∧
    ¬((idleAt 100000).dev.moduleOver = true ∨ (idleAt 100000).now < ((idleAt 100000).quad 0).moduleAt + 100000) := by decide +kernel

theorem wit_Lanest :
    State.reset.ctlStale head = false ∧ ((State.reset.bundle 0).lane 0).retired = false ∧ ((State.reset.bundle 0).lane 0).retraining = false ∧
    ((0x888888880#36 >>> (4 * 0)).setWidth 4 = 0#4) ∧ ((State.reset.bundle 0).lane 0).weight ≠ 0 ∧
    ((0x888888880#36 >>> (4 * 1)).setWidth 4 = 8#4) ∧ (((laned 3 { retraining := true }).bundle 0).lane 3).retraining = true := by decide +kernel

theorem wit_Held : (State.reset.modDev (fun d => { d with held := true })).dev.held = true ∧ recordOk goodRecord State.reset.dev.version = true := by
  decide +kernel

theorem wit_DebuggerWaits :
    (halted.modArcade 0 (fun a => { a with swap := some (0, 7, 0) })).midSwap 0 = true ∧ halted.midSwap (stallOf (homeOf 0)) = false ∧
    ((halted.modPart 0 (fun p => { p with cfg := { p.cfg with salen := 0 } })).freeAreas 0 = []) ∧ (archived.tile 0).runq.length < 16 ∧
    (let s := archived.modTile 0 (fun t => { t with runq := List.replicate 16 { kind := .saved 0 } })
     16 ≤ (s.tile 0).runq.length ∧ (s.part 0).dbgBusy = false) ∧
    (State.reset.slots = [] ∧ (State.reset.part 0).saved = []) := by decide +kernel

theorem wit_RegisterWrites :
    field (1#64) 0 4 = 1 ∧ field (0x32#64) 0 4 = 2 ∧ (∀ n : Fin 5, field (BitVec.ofNat 64 ((n.val + 1) * 2 ^ 60 + 7)) 60 4 = n.val + 1) ∧
    State.reset.dev.hostWaits = [] ∧ 0x100030010 % 32 + 16 ≤ 32 ∧ wording.writeWaits 0x100030010 = true := by decide +kernel

end

end Sys2Proof.Tests
end

section
/-! What a slot holds at task start (R12): argument registers, STATUS, RNGS and the partition's values, field by field, and the obligation
assembled from them. -/

namespace Sys2Proof.Machine

/-! Argument registers. -/

/-- A read after the values `vs` are written at the keys from `k`. -/
theorem fget_fsetL {α : Type} [DecidableEq α] (d : α) (vs : List α) (k j : Nat) (m : FMap α) :
    fget d (fsetL d k vs m) j = if k ≤ j ∧ j < k + vs.length then vs.getD (j - k) d else fget d m j := by
  induction vs generalizing k m with
  | nil => rw [fsetL, List.length_nil, if_neg (by omega)]
  | cons v vs ih =>
    rw [fsetL, ih, fget_fset, List.length_cons]
    rcases Nat.lt_trichotomy j k with hlt | rfl | hgt
    · rw [if_neg (by omega), if_neg (by omega), if_neg (by omega)]
    · rw [if_neg (by omega), if_pos rfl, if_pos (by omega), Nat.sub_self, List.getD_cons_zero]
    · obtain ⟨i, rfl⟩ : ∃ i, j = k + 1 + i := ⟨j - (k + 1), by omega⟩
      rw [if_neg (by omega : ¬k = k + 1 + i), show k + 1 + i - k = i + 1 by omega, List.getD_cons_succ, Nat.add_sub_cancel_left]
      have keys : (k + 1 ≤ k + 1 + i ∧ k + 1 + i < k + 1 + vs.length) ↔ (k ≤ k + 1 + i ∧ k + 1 + i < k + (vs.length + 1)) := by omega
      simp only [keys]

/-- A list reads as the default beyond its end. -/
theorem getD_of_length_le {α : Type} (d : α) {vs : List α} {i : Nat} (h : vs.length ≤ i) : vs.getD i d = d := by
  rw [List.getD_eq_getElem?_getD, List.getElem?_eq_none h, Option.getD_none]

theorem fget_argRegs (args : List Word) (j : Nat) (h : 1 ≤ j) : fget 0 (argRegs args) j = args.getD (j - 1) 0 := by
  rw [argRegs, fget_fsetL]
  split
  · rfl
  · rw [fget_nil, getD_of_length_le 0 (by omega)]

/-- A slot whose scalar file holds the arguments from g1 on holds them, and 0 beyond. -/
theorem Slot.holds_of_argRegs {l : Slot} {args : List Word} (h : l.g = argRegs args) : l.holds args := by
  intro i h1 h16
  have hi : (BitVec.ofNat 4 i).toNat = i := by rw [BitVec.toNat_ofNat, Nat.mod_eq_of_lt (by omega)]
  have h0 : BitVec.ofNat 4 i ≠ 0 := fun e => by rw [e, BitVec.ofNat_eq_ofNat, BitVec.toNat_zero] at hi; omega
  rw [Slot.gr, if_neg h0, hi, h, fget_argRegs args i h1]

/-- The handler's registers: the sender in g9, the payload in g1 to g8, and 0 beyond (R228). -/
theorem handlerArgs_getD (m : Message) (i : Nat) (h : m.payload.length ≤ 8) :
    (handlerArgs m).getD i 0 = if i = 8 then m.sender.setWidth 64 else m.payload.getD i 0 := by
  have hlen : ((List.range 8).map (fun j => m.payload.getD j 0)).length = 8 := by rw [List.length_map, List.length_range]
  rw [handlerArgs, List.getD_eq_getElem?_getD]
  rcases Nat.lt_trichotomy i 8 with hlt | rfl | hgt
  · rw [List.getElem?_append_left (by omega), List.getElem?_map, List.getElem?_range hlt, if_neg (by omega), Option.map_some,
      Option.getD_some]
  · rw [List.getElem?_append_right (by omega), hlen, if_pos rfl, Nat.sub_self, List.getElem?_cons_zero, Option.getD_some]
  · rw [List.getElem?_eq_none (by rw [List.length_append, hlen, List.length_singleton]; omega), Option.getD_none, if_neg (by omega),
      getD_of_length_le 0 (by omega)]

/-! STATUS of a new task (R31 Table 6). -/

/-- A bit of a word is a bit of each field that covers it. -/
theorem wbit_eq_testBit_field (x : Word) (lo len i : Nat) (h1 : lo ≤ i) (h2 : i < lo + len) :
    wbit x i = (field x lo len).testBit (i - lo) := by
  have hlen : i - lo < len := by omega
  rw [field, Nat.testBit_mod_two_pow, Nat.testBit_div_two_pow, Nat.sub_add_cancel h1, decide_eq_true hlen, Bool.true_and]
  rfl

theorem wbit_of_field_zero {x : Word} {lo len : Nat} (h : field x lo len = 0) {i : Nat} (h1 : lo ≤ i) (h2 : i < lo + len) :
    wbit x i = false := by
  rw [wbit_eq_testBit_field x lo len i h1 h2, h, Nat.zero_testBit]

theorem wbit_of_field_one {x : Word} {i : Nat} {b : Bool} (h : field x i 1 = b.toNat) : wbit x i = b := by
  rw [wbit_eq_testBit_field x i 1 i (Nat.le_refl i) (by omega), h, Nat.sub_self]
  cases b <;> rfl

section
variable (p c : Nat) (gang msg mig : Bool)

theorem statusOf_toNat : (statusOf p c gang msg mig).toNat =
    gang.toNat * 2 ^ 7 + msg.toNat * 2 ^ 8 + mig.toNat * 2 ^ 9 + c % 8 * 2 ^ 24 + p % 16 * 2 ^ 32 := by
  have := gang.toNat_le; have := msg.toNat_le; have := mig.toNat_le
  rw [statusOf, BitVec.toNat_ofNat]
  omega

/-- The fields of a new task's STATUS, and the zeros between them. -/
theorem field_statusOf :
    let x := statusOf p c gang msg mig
    field x 0 7 = 0 ∧ field x 7 1 = gang.toNat ∧ field x 8 1 = msg.toNat ∧ field x 9 1 = mig.toNat ∧ field x 10 14 = 0 ∧
    field x 24 3 = c % 8 ∧ field x 27 5 = 0 ∧ field x 32 4 = p % 16 ∧ field x 36 28 = 0 := by
  have := gang.toNat_le; have := msg.toNat_le; have := mig.toNat_le
  simp only [field, statusOf_toNat]
  refine ⟨?_, ?_, ?_, ?_, ?_, ?_, ?_, ?_, ?_⟩ <;> omega

theorem wbit_statusOf_reserved (i : Nat) (h : i < 7 ∨ (10 ≤ i ∧ i < 24) ∨ (27 ≤ i ∧ i < 32) ∨ 36 ≤ i) :
    wbit (statusOf p c gang msg mig) i = false := by
  obtain ⟨h0, -, -, -, h10, -, h27, -, h36⟩ := field_statusOf p c gang msg mig
  rcases h with h | h | h | h
  · exact wbit_of_field_zero h0 (by omega) (by omega)
  · exact wbit_of_field_zero h10 (by omega) (by omega)
  · exact wbit_of_field_zero h27 (by omega) (by omega)
  · by_cases h64 : i < 64
    · exact wbit_of_field_zero h36 (by omega) (by omega)
    · exact BitVec.getLsbD_of_ge _ i (by omega)

@[simp] theorem wbit_statusOf_gang : wbit (statusOf p c gang msg mig) 7 = gang := by
  obtain ⟨-, h, -⟩ := field_statusOf p c gang msg mig
  exact wbit_of_field_one h

@[simp] theorem wbit_statusOf_msg : wbit (statusOf p c gang msg mig) 8 = msg := by
  obtain ⟨-, -, h, -⟩ := field_statusOf p c gang msg mig
  exact wbit_of_field_one h

@[simp] theorem wbit_statusOf_mig : wbit (statusOf p c gang msg mig) 9 = mig := by
  obtain ⟨-, -, -, h, -⟩ := field_statusOf p c gang msg mig
  exact wbit_of_field_one h

end

/-! The values of R12. -/

/-- RNGS at task start, its one exception named by the TASKID that makes it. -/
theorem seedOf_eq (task : Word) :
    seedOf task = if task.setWidth 32 = 0x9E3779B9#32 then 1 else task.setWidth 32 ^^^ 0x9E3779B9#32 := by
  have zero : task.setWidth 32 ^^^ 0x9E3779B9#32 = 0 ↔ task.setWidth 32 = 0x9E3779B9#32 := BitVec.xor_eq_zero_iff
  simp only [seedOf, zero]

theorem freshSlot_fresh (s : State) {p : Nat} (hp : p < 16) (pcls : BitVec 3) (asid : BitVec 16) (task entry : Word) (args : List Word)
    (gang msg : Bool) : Fresh s (s.freshSlot p pcls asid task entry args gang msg) p pcls asid entry := by
  obtain ⟨-, -, -, -, -, hpcls, -, hpart, -⟩ := field_statusOf p pcls.toNat gang msg false
  exact {
    phase := rfl
    pc := rfl
    asid := rfl
    pcls := by
      rw [Slot.pcls, State.freshSlot, hpcls, Nat.mod_eq_of_lt pcls.isLt, BitVec.ofNat_toNat, BitVec.setWidth_eq]
    part := by rw [Slot.part, State.freshSlot, hpart, Nat.mod_eq_of_lt hp]
    status := wbit_statusOf_reserved p pcls.toNat gang msg false
    flags := rfl
    vectors := fun _ => rfl
    masks := fun _ hk => if_neg hk
    rings := fun _ => show (Ring.ofBits 0).v = false by decide
    barriers := fun _ => rfl
    rngs := seedOf_eq task
    initial := ⟨rfl, rfl, rfl, rfl, rfl, rfl⟩ }

/-- A slot is fresh by the partition's record alone. -/
theorem Fresh.of_cfg_eq {s u : State} {y : Slot} {p : Nat} {pcls : BitVec 3} {asid : BitVec 16} {entry : Word}
    (h : (u.part p).cfg = (s.part p).cfg) (f : Fresh u y p pcls asid entry) : Fresh s y p pcls asid entry :=
  { f with initial := h ▸ f.initial }

/-! The start of a handler (R228). -/

theorem taskPart_lt (task : Word) : taskPart task < 16 := Nat.mod_lt _ (by decide)

/-- A change to a partition that leaves its record alone leaves every record alone. -/
theorem State.cfg_modPart (s : State) (p q : Nat) {f : Part → Part} (hf : ∀ u, (f u).cfg = u.cfg) :
    ((s.modPart p f).part q).cfg = (s.part q).cfg := by
  simp only [State.part, State.modPart, List.getD_eq_getElem?_getD, List.getElem?_modify]
  split
  · cases s.parts[q]? with
    | none => rfl
    | some u => exact hf u
  · rw [Option.map_eq_map, Option.map_id_fun', id]

theorem State.cfg_newTask (s : State) (p q : Nat) : ((s.newTask p).1.part q).cfg = (s.part q).cfg :=
  s.cfg_modPart p q (fun _ => rfl)

@[simp] theorem State.part_acquireAt (s : State) (key p : Nat) : (s.acquireAt key).part p = s.part p := rfl

/-- A message that is no migrant starts its handler as a new task of the message's partition. -/
theorem State.slot_startMessage (s : State) (key : Nat) {m : Message} (h : m.migrant = none) :
    let r := (s.acquireAt key).newTask (taskPart m.task)
    (s.startMessage key m).slot key = r.1.freshSlot (taskPart m.task) m.pcls m.asid r.2 m.pc (handlerArgs m) false true := by
  simp only [State.startMessage, h, State.slot_setSlot_same]

theorem State.startMessage_fresh (s : State) (key : Nat) {m : Message} (h : m.migrant = none) :
    Fresh s ((s.startMessage key m).slot key) (taskPart m.task) m.pcls m.asid m.pc := by
  rw [s.slot_startMessage key h]
  refine (freshSlot_fresh _ (taskPart_lt m.task) ..).of_cfg_eq ?_
  rw [State.cfg_newTask, State.part_acquireAt]

theorem State.startMessage_holds (s : State) (key : Nat) {m : Message} (h : m.migrant = none) :
    ((s.startMessage key m).slot key).holds (handlerArgs m) := by
  rw [s.slot_startMessage key h]
  exact Slot.holds_of_argRegs rfl

/-- Settles O45: the values of R12 hold of `freshSlot` field by field, and a handler is such a slot in the state after its acquire and its
new TASKID, neither of which changes a partition's record. -/
theorem taskStart : Obligations.TaskStart := by
  refine ⟨?task, ?handler⟩
  case task =>
    intro s p pcls asid task entry args gang msg hp _
    exact ⟨freshSlot_fresh s hp .., Slot.holds_of_argRegs rfl, rfl, wbit_statusOf_gang .., wbit_statusOf_msg .., wbit_statusOf_mig ..⟩
  case handler =>
    intro s key m hm hlen
    have regs : ∀ i, 1 ≤ i → i < 16 → ((s.startMessage key m).slot key).gr (BitVec.ofNat 4 i) =
        if i - 1 = 8 then m.sender.setWidth 64 else m.payload.getD (i - 1) 0 := fun i h1 h16 => by
      rw [s.startMessage_holds key hm i h1 h16, handlerArgs_getD m _ hlen]
    have slot := s.slot_startMessage key hm
    refine ⟨s.startMessage_fresh key hm, ?_, ?_, ?_, regs 9 (by omega) (by omega), fun i h1 h16 h9 => ?_⟩
    · rw [slot]; exact wbit_statusOf_msg ..
    · rw [slot]; exact wbit_statusOf_mig ..
    · rw [slot]; exact wbit_statusOf_gang ..
    · rw [regs i h1 h16, if_neg (by omega)]

end Sys2Proof.Machine
end

section
/-! Scalar control (R70, R80, R83 to R85): the counts of zero and one bits, jumps and LOOP. Each family has one rule for the shape that its
instructions share, and the obligations are assembled from these rules. -/

namespace Sys2Proof.Machine

/-! Words whose only check is on the fields that must be zero (R43, R45). -/

/-- Such a word decodes, or raises cause 0x03. -/
theorem decLeaf_zeros (zeros : Bool) (i : Instr) : decLeaf true zeros true i = if zeros = true then .ok i else .error 0x03 := by
  cases zeros <;> rfl

/-- CLZ, CTZ and POPC decode only with rb 0. -/
theorem decode_counting (rd ra rb : BitVec 4) :
    decode (0x01#6 ++ rd ++ ra ++ rb ++ 0x18#8 ++ 0#6) = (if rb = 0 then .ok (.clz rd ra) else .error 0x03) ∧
    decode (0x01#6 ++ rd ++ ra ++ rb ++ 0x19#8 ++ 0#6) = (if rb = 0 then .ok (.ctz rd ra) else .error 0x03) ∧
    decode (0x01#6 ++ rd ++ ra ++ rb ++ 0x1A#8 ++ 0#6) = (if rb = 0 then .ok (.popc rd ra) else .error 0x03) := by
  refine ⟨?_, ?_, ?_⟩ <;> simp [decode, decAlu, decLeaf_zeros]

theorem decode_j (off : BitVec 26) : decode (0x0D#6 ++ off) = .ok (.j off) := by simp [decode, decLeaf]

theorem decode_jal (off : BitVec 26) : decode (0x0E#6 ++ off) = .ok (.jal off) := by simp [decode, decLeaf]

theorem decode_jalr (rd ra : BitVec 4) (imm : BitVec 18) :
    decode (0x0F#6 ++ rd ++ ra ++ imm) = .ok (if rd = 0 then .jr ra imm else .jalr rd ra imm) := by
  rw [apply_ite Except.ok]
  simp [decode, decJalr]

theorem decode_loop (cond ra rb : BitVec 4) (off : BitVec 14) :
    decode (0x10#6 ++ cond ++ ra ++ rb ++ off) = (if cond = 0 ∧ rb = 0 then .ok (.loop ra off) else .error 0x03) := by
  simp [decode, decLeaf_zeros, and_comm]

/-! Counts of bits. -/

theorem bit_eq_testBit (x i : Nat) : bit x i = x.testBit i := by
  rw [Nat.testBit_eq_decide_div_mod_eq]
  rfl

theorem clzN_le (x n : Nat) : clzN x n ≤ n := by
  induction n with
  | zero => exact Nat.le_refl 0
  | succ n ih =>
    rw [clzN]
    split
    · exact Nat.zero_le _
    · omega

/-- The bits that `clzN` counts are zeros. -/
theorem testBit_above_clzN (x n j : Nat) (h : n - clzN x n ≤ j) (hj : j < n) : x.testBit j = false := by
  induction n with
  | zero => omega
  | succ n ih =>
    rw [clzN, bit_eq_testBit] at h
    split at h
    case isTrue => omega
    case isFalse hb =>
      rcases Nat.lt_succ_iff_lt_or_eq.mp hj with hlt | rfl
      · exact ih (by omega) hlt
      · exact Bool.eq_false_iff.mpr hb

/-- The bit below those is a one. -/
theorem testBit_at_clzN (x n : Nat) (h : clzN x n < n) : x.testBit (n - 1 - clzN x n) = true := by
  induction n with
  | zero => omega
  | succ n ih =>
    rw [clzN, bit_eq_testBit] at h ⊢
    split at h
    case isTrue hb => simp [hb]
    case isFalse hb =>
      rw [if_neg hb, show n + 1 - 1 - (clzN x n + 1) = n - 1 - clzN x n by omega]
      exact ih (by omega)

theorem ctzN_le (x n : Nat) : ctzN x n ≤ n := by
  induction n generalizing x with
  | zero => exact Nat.le_refl 0
  | succ n ih =>
    have := ih (x / 2)
    rw [ctzN]
    split <;> omega

/-- The bits that `ctzN` counts are zeros. -/
theorem testBit_below_ctzN (x n j : Nat) (h : j < ctzN x n) : x.testBit j = false := by
  induction n generalizing x j with
  | zero => exact absurd h (Nat.not_lt_zero j)
  | succ n ih =>
    rw [ctzN] at h
    split at h
    case isTrue => omega
    case isFalse hb =>
      cases j with
      | zero => rw [Nat.testBit_zero, decide_eq_false hb]
      | succ j => rw [Nat.testBit_succ]; exact ih (x / 2) j (by omega)

/-- The bit above those is a one. -/
theorem testBit_at_ctzN (x n : Nat) (h : ctzN x n < n) : x.testBit (ctzN x n) = true := by
  induction n generalizing x with
  | zero => omega
  | succ n ih =>
    rw [ctzN] at h ⊢
    split at h
    case isTrue hb => rw [if_pos hb, Nat.testBit_zero, decide_eq_true hb]
    case isFalse hb => rw [if_neg hb, Nat.testBit_succ]; exact ih (x / 2) (by omega)

/-- `popN` counts the positions of the one bits. -/
theorem popN_eq (x n : Nat) : popN x n = ((List.range n).filter x.testBit).length := by
  induction n generalizing x with
  | zero => rfl
  | succ n ih =>
    have shift : x.testBit ∘ Nat.succ = (x / 2).testBit := funext fun j => Nat.testBit_succ x j
    rw [popN, ih, List.range_succ_eq_map, List.filter_cons, List.filter_map, shift, Nat.testBit_zero]
    split <;> rename_i hb
    · rw [List.length_cons, List.length_map, decide_eq_true_eq.mp hb, Nat.add_comm]
    · rw [List.length_map, Nat.mod_two_ne_one.mp (by simpa using hb), Nat.zero_add]

/-- A word without a one bit is 0, so a count of zeros from either end that finds no one bit counts a zero word. -/
theorem word_eq_zero_of_testBit (a : Word) (h : ∀ j, j < 64 → a.toNat.testBit j = false) : a = 0 := by
  refine BitVec.eq_of_getLsbD_eq fun j hj => ?_
  rw [← BitVec.testBit_toNat, h j hj]
  simp

/-- CLZ's count, of 64 bits (R70). -/
theorem clzN_word (a : Word) :
    clzN a.toNat 64 ≤ 64 ∧ (a = 0 → clzN a.toNat 64 = 64) ∧
    (a ≠ 0 → clzN a.toNat 64 < 64 ∧ a.getLsbD (63 - clzN a.toNat 64) = true ∧
      ∀ j, 63 - clzN a.toNat 64 < j → a.getLsbD j = false) := by
  have le := clzN_le a.toNat 64
  refine ⟨le, ?_, fun ha => ?_⟩
  · rintro rfl
    decide
  · have lt : clzN a.toNat 64 < 64 := Nat.lt_of_le_of_ne le fun e =>
      ha (word_eq_zero_of_testBit a fun j hj => testBit_above_clzN a.toNat 64 j (by omega) hj)
    refine ⟨lt, ?_, fun j hj => ?_⟩
    · rw [← BitVec.testBit_toNat]
      exact testBit_at_clzN a.toNat 64 lt
    · rcases Nat.lt_or_ge j 64 with h64 | h64
      · rw [← BitVec.testBit_toNat]
        exact testBit_above_clzN a.toNat 64 j (by omega) h64
      · exact BitVec.getLsbD_of_ge a j h64

/-- CTZ's count, of 64 bits (R70). -/
theorem ctzN_word (a : Word) :
    ctzN a.toNat 64 ≤ 64 ∧ (a = 0 → ctzN a.toNat 64 = 64) ∧
    (a ≠ 0 → ctzN a.toNat 64 < 64 ∧ a.getLsbD (ctzN a.toNat 64) = true ∧ ∀ j, j < ctzN a.toNat 64 → a.getLsbD j = false) := by
  have le := ctzN_le a.toNat 64
  refine ⟨le, ?_, fun ha => ?_⟩
  · rintro rfl
    decide
  · have lt : ctzN a.toNat 64 < 64 := Nat.lt_of_le_of_ne le fun e =>
      ha (word_eq_zero_of_testBit a fun j hj => testBit_below_ctzN a.toNat 64 j (by omega))
    refine ⟨lt, ?_, fun j hj => ?_⟩
    · rw [← BitVec.testBit_toNat]
      exact testBit_at_ctzN a.toNat 64 lt
    · rw [← BitVec.testBit_toNat]
      exact testBit_below_ctzN a.toNat 64 j hj

/-- POPC's count, of 64 bits (R70). -/
theorem popN_word (a : Word) : popN a.toNat 64 = ((List.range 64).filter (fun j => a.getLsbD j)).length := popN_eq a.toNat 64

/-! What retires in sequence, and what goes to a target. -/

/-- An instruction of one source writes its result and retires. -/
theorem alu1_retires {i : Instr} {s : State} {rd ra : BitVec 4} (f : Word → Word) (h : exec i s = alu1 f rd ra s) (g : s.goesOn) :
    Retires i s [] { g := [rd] } (Wrote rd (f (s.me.gr ra))) :=
  retires_plain i s (fun l => l.gw rd (f (l.gr ra))) _ _ g h (Slot.gw_pc ..) (keeps_gw _ _ _ _ (List.mem_singleton_self rd))
    (wrote_gw _ _ _ _ _ ⟨_, rfl⟩)

/-- A transfer to a legal target that writes one scalar register. -/
theorem transfer_gw_goesTo {i : Instr} {s : State} {t : Int} {rd : BitVec 4} {v : Slot → Word}
    (h : exec i s = transfer s t (fun l => l.gw rd (v l))) (legal : LegalTarget t) :
    GoesTo i s (BitVec.ofInt 64 t) { g := [rd] } (Wrote rd (v s.me)) :=
  retires_at i s _ _ _ _ (h.trans (transfer_legal s t _ legal)) (keeps_gw _ _ _ _ (List.mem_singleton_self rd))
    (wrote_gw _ _ _ _ _ ⟨_, rfl⟩)

/-! Jumps (R83, R84). -/

/-- A link to g0 writes nothing, so every jump is one transfer with a link: J and JR are those with link register 0. -/
theorem exec_of_jumpOf {i : Instr} {s : State} {t : Int} {rd : BitVec 4} (h : jumpOf i s.me = some (t, rd)) :
    exec i s = transfer s t (fun l => l.gw rd (l.pc + 4)) := by
  unfold jumpOf at h
  split at h <;> cases h <;> rfl

/-- LIMM.A and LIMM.B are kinds 0 and 1, and majors 0x04 to 0x09 accept them (R56). -/
theorem hintMisuse_limm {i : Instr} (kind : BitVec 4) (p : BitVec 22) (hk : kind.toNat ≤ 1) (h9 : 9 < majorOf i)
    (hh : majorOf i ≠ 0x3F) : hintMisuse i [(kind, p)] = true := by
  have refused : acceptsHint i kind.toNat = false := by
    rcases Nat.le_one_iff_eq_zero_or_eq_one.mp hk with e | e <;> simp [acceptsHint, e, h9]
  simp [hintMisuse, isHint, hh, refused]

theorem majorOf_jalr (rd ra : BitVec 4) (imm : BitVec 18) : majorOf (.jalr rd ra imm) = 0x0F := by simp [majorOf, encode]

theorem majorOf_jr (ra : BitVec 4) (imm : BitVec 18) : majorOf (.jr ra imm) = 0x0F := by
  simp [-BitVec.reduceAppend, majorOf, encode]

/-! LOOP (R85). -/

section
variable {s : State} {ra : BitVec 4} {off : BitVec 14}

/-- A spent counter stays, and the slot goes on in sequence. -/
theorem exec_loop_zero (h : s.me.gr ra = 0) : exec (.loop ra off) s = plain s (fun l => l) := if_pos h

/-- The last round ends the counter. -/
theorem exec_loop_one (h : s.me.gr ra = 1) : exec (.loop ra off) s = plain s (fun l => l.gw ra 0) := by
  show execLoop ra off s = _
  simp [execLoop, h]

/-- Any other counter goes down by one, and the slot goes to the target. -/
theorem exec_loop_counts (h0 : s.me.gr ra ≠ 0) (h1 : s.me.gr ra ≠ 1) :
    exec (.loop ra off) s = transfer s (branchTarget s.me.pc off) (fun l => l.gw ra (s.me.gr ra - 1)) :=
  (if_neg h0).trans (if_neg h1)

/-- In sequence, with no legal successor, LOOP traps before it writes. -/
theorem exec_loop_stops (h : s.me.gr ra = 0 ∨ s.me.gr ra = 1) (g : ¬s.goesOn) :
    exec (.loop ra off) s = .next (s.trapMe 0x09 (s.me.pc + 4)) := by
  rcases h with h | h
  · rw [exec_loop_zero h]; exact sequential_stops s _ g
  · rw [exec_loop_one h]; exact sequential_stops s _ g

end

/-! The obligations. -/

/-- Settles O10: each instruction writes what its recursive count gives for the word, and the count names the end bit it stops at. -/
theorem countingResults : Obligations.CountingResults := by
  refine ⟨decode_counting, fun rd ra s g => ?clz, fun rd ra s g => ?ctz, fun rd ra s g => ?popc⟩
  case clz =>
    obtain ⟨le, zero, nonzero⟩ := clzN_word (s.me.gr ra)
    exact ⟨_, le, zero, nonzero, alu1_retires (fun a => BitVec.ofNat 64 (clzN a.toNat 64)) rfl g⟩
  case ctz =>
    obtain ⟨le, zero, nonzero⟩ := ctzN_word (s.me.gr ra)
    exact ⟨_, le, zero, nonzero, alu1_retires (fun a => BitVec.ofNat 64 (ctzN a.toNat 64)) rfl g⟩
  case popc =>
    rw [← popN_word]
    exact alu1_retires (fun a => BitVec.ofNat 64 (popN a.toNat 64)) rfl g

/-- Settles O12: every jump is one transfer with a link, g0 standing for none; its target is read from the state before the write. -/
theorem jumps : Obligations.Jumps := by
  refine ⟨fun off => ⟨decode_j off, decode_jal off⟩, decode_jalr, fun rd ra imm p => ?limm, fun i s t rd h => ⟨?legal, ?illegal⟩⟩
  case limm =>
    have jalr := majorOf_jalr rd ra imm
    have jr := majorOf_jr ra imm
    refine ⟨?_, ?_, ?_, ?_⟩ <;> exact hintMisuse_limm _ p (by decide) (by omega) (by omega)
  case legal => exact transfer_gw_goesTo (exec_of_jumpOf h)
  case illegal => exact fun bad => (exec_of_jumpOf h).trans (transfer_illegal s t _ bad)

/-- Settles O13, by the counter: spent, at its last round, or above 1. -/
theorem loop : Obligations.Loop := by
  refine ⟨decode_loop, fun s ra off => ⟨fun h0 g => ?spent, fun h1 g => ?last, fun h0 h1 legal => ?taken, fun h0 h1 bad => ?illegal,
    exec_loop_stops⟩⟩
  case spent => exact retires_plain _ s (fun l => l) _ _ g (exec_loop_zero h0) rfl (Keeps.refl _ _) trivial
  case last =>
    exact retires_plain _ s (fun l => l.gw ra 0) _ _ g (exec_loop_one h1) (Slot.gw_pc ..)
      (keeps_gw _ _ _ _ (List.mem_singleton_self ra)) (wrote_gw _ _ _ _ _ ⟨_, rfl⟩)
  case taken => exact transfer_gw_goesTo (exec_loop_counts h0 h1) legal
  case illegal => exact (exec_loop_counts h0 h1).trans (transfer_illegal s _ _ bad)

end Sys2Proof.Machine
end

section
/-! Trap entry (R326): when the handler can start, what STATUS becomes, and the obligation assembled from them. -/

namespace Sys2Proof.Machine

/-! Fields of a word. -/

/-- The bits of a word with a field replaced. -/
theorem wbit_putField (x : Word) {lo len : Nat} (v i : Nat) (fits : lo + len ≤ 64) :
    wbit (putField x lo len v) i = if lo ≤ i ∧ i < lo + len then v.testBit (i - lo) else wbit x i := by
  have parts : x.toNat % 2 ^ lo + v % 2 ^ len * 2 ^ lo + x.toNat / 2 ^ (lo + len) * 2 ^ (lo + len) =
      2 ^ lo * (2 ^ len * (x.toNat / 2 ^ (lo + len)) + v % 2 ^ len) + x.toNat % 2 ^ lo := by
    rw [Nat.pow_add, Nat.mul_add, Nat.mul_comm (x.toNat / _), Nat.mul_assoc (2 ^ lo), Nat.mul_comm (v % 2 ^ len)]
    omega
  have low : x.toNat % 2 ^ lo < 2 ^ lo := Nat.mod_lt _ (Nat.two_pow_pos lo)
  have mid : v % 2 ^ len < 2 ^ len := Nat.mod_lt _ (Nat.two_pow_pos len)
  rw [wbit, putField, parts, BitVec.getLsbD_ofNat, Nat.testBit_two_pow_mul_add _ low, Nat.testBit_two_pow_mul_add _ mid,
    Nat.testBit_mod_two_pow, Nat.testBit_mod_two_pow, Nat.testBit_div_two_pow]
  by_cases below : i < lo
  · rw [if_pos below, if_neg (by omega), decide_eq_true (by omega : i < 64), decide_eq_true below]
    rfl
  by_cases inside : i - lo < len
  · rw [if_neg below, if_pos inside, if_pos (by omega), decide_eq_true (by omega : i < 64), decide_eq_true inside]
    rfl
  · rw [if_neg below, if_neg inside, if_neg (by omega), show i - lo - len + (lo + len) = i by omega]
    by_cases word : i < 64
    · rw [decide_eq_true word]
      rfl
    · rw [decide_eq_false word]
      exact (BitVec.getLsbD_of_ge x i (by omega)).symm

/-- A field reads back what was put into it, cut to its width. -/
theorem field_putField (x : Word) {lo len : Nat} (v : Nat) (fits : lo + len ≤ 64) : field (putField x lo len v) lo len = v % 2 ^ len := by
  refine Nat.eq_of_testBit_eq fun j => ?_
  by_cases h : j < len
  · have bits := wbit_eq_testBit_field (putField x lo len v) lo len (lo + j) (by omega) (by omega)
    rw [wbit_putField x v _ fits, if_pos (by omega), Nat.add_sub_cancel_left] at bits
    rw [← bits, Nat.testBit_mod_two_pow, decide_eq_true h, Bool.true_and]
  · rw [field, Nat.testBit_mod_two_pow, Nat.testBit_mod_two_pow, decide_eq_false h, Bool.false_and, Bool.false_and]

/-- A field below the one that is replaced reads as before. -/
theorem field_putField_below (x : Word) {lo len lo' len' : Nat} (v : Nat) (fits : lo' + len' ≤ 64) (below : lo + len ≤ lo') :
    field (putField x lo' len' v) lo len = field x lo len := by
  refine Nat.eq_of_testBit_eq fun j => ?_
  by_cases h : j < len
  · have bits := fun w => wbit_eq_testBit_field w lo len (lo + j) (by omega) (by omega)
    simp only [Nat.add_sub_cancel_left] at bits
    rw [← bits, ← bits, wbit_putField x v _ fits, if_neg (by omega)]
  · rw [field, field, Nat.testBit_mod_two_pow, Nat.testBit_mod_two_pow, decide_eq_false h, Bool.false_and, Bool.false_and]

/-! Where the handler can start. -/

theorem legalTarget_iff (t : Nat) : legalTarget t = true ↔ LegalTarget t := by
  rw [legalTarget, LegalTarget, Bool.and_eq_true, decide_eq_true_iff, beq_iff_eq]
  omega

theorem Slot.handlerOk_iff (l : Slot) (e : Word) : l.handlerOk e = true ↔ CanTrap l e := by
  have nested : (l.pl = 0 ∨ ¬e = l.tvec) ↔ ¬(1 ≤ l.pl ∧ e = l.tvec) := by
    rw [Decidable.not_and_iff_not_or_not, Nat.not_le, Nat.lt_one_iff]
  simp [Slot.handlerOk, CanTrap, legalTarget_iff, and_assoc, nested]

/-! The slot after trap entry. -/

theorem Slot.endUnit_phase {l : Slot} (h : l.stepping = false) : l.endUnit.phase = l.phase := by
  rw [Slot.endUnit, h, if_neg Bool.false_ne_true]

/-- STATUS with PL raised from 0 to 1, as trap entry does before it clears TBW. -/
def Slot.raisedStatus (l : Slot) : Word := if l.pl = 0 then putField l.status 0 2 1 else l.status

theorem Slot.field_raisedStatus (l : Slot) : field l.raisedStatus 0 2 = if l.pl = 0 then 1 else l.pl := by
  rw [Slot.raisedStatus, apply_ite (field · 0 2), field_putField _ _ (by decide)]
  rfl

theorem Slot.wbit_raisedStatus (l : Slot) {i : Nat} (h : 2 ≤ i) : wbit l.raisedStatus i = wbit l.status i := by
  rw [Slot.raisedStatus, apply_ite (wbit · i), wbit_putField _ _ _ (by decide), if_neg (by omega : ¬(0 ≤ i ∧ i < 0 + 2)), ite_self]

section
variable (l : Slot) (c : BitVec 8) (e v : Word)

theorem Slot.trapEntry_status : (l.trapEntry c e v).status =
    if c = 0x40 ∨ c = 0x41 then putField l.raisedStatus 6 1 0 else l.raisedStatus := by
  simp [Slot.trapEntry, Slot.raisedStatus]

/-- Clearing TBW, which lies above PL, leaves PL as it was raised. -/
theorem Slot.trapEntry_pl : (l.trapEntry c e v).pl = if l.pl = 0 then 1 else l.pl := by
  rw [Slot.pl, Slot.trapEntry_status, apply_ite (field · 0 2), field_putField_below _ _ (by decide) (by decide), ite_self,
    Slot.field_raisedStatus]

/-- Above PL, trap entry writes no bit of STATUS but TBW, which the causes of an undo clear. -/
theorem Slot.wbit_trapEntry_status {i : Nat} (h : 2 ≤ i) : wbit (l.trapEntry c e v).status i =
    if (c = 0x40 ∨ c = 0x41) ∧ i = 6 then false else wbit l.status i := by
  have six : (6 ≤ i ∧ i < 6 + 1) ↔ i = 6 := by omega
  rw [Slot.trapEntry_status, apply_ite (wbit · i), wbit_putField _ _ _ (by decide), l.wbit_raisedStatus h, Nat.zero_testBit]
  by_cases undone : c = 0x40 ∨ c = 0x41
  · simp only [six, undone, if_true, true_and]
  · simp only [undone, if_false, false_and]

/-- Trap entry is no segment boundary (R256): a segment that a commit began keeps its version and its sets. -/
theorem Slot.trapEntry_segment : (l.trapEntry c e v).seg.version = l.seg.version ∧ (l.trapEntry c e v).seg.reads = l.seg.reads ∧
    (l.trapEntry c e v).seg.writes = l.seg.writes := by
  rw [Slot.trapEntry, Slot.endUnit_seg]
  cases l.seg.opened <;> exact ⟨rfl, rfl, rfl⟩

theorem Slot.trapEntry_trapTaken : TrapTaken l (l.trapEntry c e v) c e v where
  estatus := Slot.endUnit_estatus _
  epc := Slot.endUnit_epc _
  ecause := Slot.endUnit_ecause _
  eval := Slot.endUnit_eval _
  pl := l.trapEntry_pl c e v
  tbw := by rw [Slot.tbw, l.wbit_trapEntry_status c e v (by decide)]; simp only [and_true]; rfl
  status i above other := by rw [l.wbit_trapEntry_status c e v above, if_neg fun h => other h.2]
  pc := Slot.endUnit_pc _
  regs := ⟨Slot.endUnit_g _, Slot.endUnit_v _, Slot.endUnit_k _, Slot.endUnit_q _, Slot.endUnit_b _⟩
  flags := ⟨Slot.endUnit_flags _, Slot.endUnit_rngs _, Slot.endUnit_pidx _⟩
  rest := ⟨Slot.endUnit_taskid _, Slot.endUnit_asid _, Slot.endUnit_tvec _, Slot.endUnit_quota _, Slot.endUnit_wdog _, Slot.endUnit_gto _,
    Slot.endUnit_cwm _, Slot.endUnit_ebcmin _, Slot.endUnit_debt _⟩
  segment := l.trapEntry_segment c e v
  phase running := Slot.endUnit_phase running

end

/-- Settles O15: `handlerOk` decides whether the handler can start, and the slot that trap entry leaves is `trapEntry`. -/
theorem trapEntry : Obligations.TrapEntry := by
  refine fun s key c e v => ⟨fun starts => ?taken, fun fails => ?ended⟩
  case taken =>
    exact ⟨_, enterTrap_ok s key c e v ((Slot.handlerOk_iff _ e).mpr starts), Slot.trapEntry_trapTaken _ c e v⟩
  case ended =>
    exact enterTrap_ends s key c e v (Bool.eq_false_iff.mpr (mt (Slot.handlerOk_iff _ e).mp fails))

end Sys2Proof.Machine
end
